-- ==== Sys2Proof/Word.lean ====
section
/-!
DEFINITION. The plain number types of the model: a byte of a frame, a 32-bit container of the header vector or
register word (R90, R196), and the sparse map that holds register fields and table entries.
-/
namespace Sys2Proof

/-- One byte of a frame, a key or a digest. -/
abbrev Byte := BitVec 8

/-- One 32-bit register (R90) or header-vector container (R196). -/
abbrev Word := BitVec 32

/-- A sparse map from numbers to numbers: pairs in strictly rising key order, no pair with the value 0.
An unlisted key reads 0. -/
abbrev SMap := List (Nat × Nat)

end Sys2Proof
end

