-- ==== Sys2Proof/Syntax.lean ====
section
/-!
DEFINITION. The commands of the part (the rows of the command table) and the types of their operands. An operand is
what the outside supplies: who writes what to which register, the bytes a partner sent, or a physical fact the part
finds (a parity failure, a measured value, a clock edge).
-/
namespace Sys2Proof

/-- The masters of R80. -/
inductive Master where
  | pf (f : Fin 4)
  | mp
  | debug
  | die (d : Fin 8)
  deriving DecidableEq, Repr

/-- The master ID (R80): 0 to 3, 4, 5, 8 to 15; 6 and 7 are reserved and have no master. -/
def Master.id : Master → Nat
  | .pf f => f.val
  | .mp => 4
  | .debug => 5
  | .die d => 8 + d.val

/-- What resets the MP alone when no register write does (R571, R616, R683). -/
inductive MpCause where
  | watchdog
  /-- An uncorrectable error of MP SRAM. -/
  | sram
  /-- A poisoned read of region 0 that returned other data than an image. -/
  | poison
  deriving DecidableEq, Repr

/-- A reference whose edges or updates the time base expects (R397 to R400). -/
inductive Reference where
  | mains
  | pps
  | servo
  deriving DecidableEq, Repr

/-- What a word or line read found: clean, a corrected error, an uncorrectable error. -/
inductive Ecc where
  | good
  | ce
  | ue
  deriving DecidableEq, Repr

/-- What the power management of one die reads in an epoch (R627, R629, R631): EST and the sensed power in 0.1 W, whether
a current sensor reports a fault, the core, SRAM and SerDes currents in 0.1 A, the temperature sensors in 0.1 °C, the slack of the
critical-path monitors in ps and the shift of the ring oscillators in ppm (R648). -/
structure Reading where
  est : Nat
  sensed : Int
  fault : Bool
  core : Nat
  sram : Nat
  serdes : Nat
  temps : List Int
  slack : List Nat
  ppm : List Int
  deriving DecidableEq, Repr

/-- What an ageing measurement reads of one die (R648): monitor slack in ps, ring-oscillator shift in ppm. -/
structure AgeReading where
  slack : List Nat
  ppm : List Int
  deriving DecidableEq, Repr

/-- What a start-up finds (R688, R691): DBG_EN as sampled, whether VDD_IO had been lost, the step the Meridian die fails (0
for none), the port dies that fail steps 9 and 12, and on each root port a device's capacity in 256 MiB units (0 for none),
its speed and its width. -/
structure StartFacts where
  dbgEn : Bool
  ioLost : Bool
  meridianFails : Nat
  fail9 : List (Fin 8)
  fail12 : List (Fin 8)
  cxl0 : Nat × Bool × Bool
  cxl1 : Nat × Bool × Bool
  deriving DecidableEq, Repr

/-- What the execution of a stage finds (R189, R211, R234, R241, R253): the vector fails its parity at a read of the word, or
at a read of the header rebuild; the fetched word; the entry its lookup reads, for the Catalogue as its slot with whether a
key word is the uncorrectable one; the multicast or template entry its end reads; the lookup is not served in this cclk; the
transition entry a re-parse finds uncorrectable; and the CE slots (page, slot) of the die whose memories gave a corrected
error. -/
structure StageFacts where
  parity : Bool
  rebuild : Bool
  fetch : Ecc
  lookupUe : Option (Fin 262176 × Bool)
  entryUe : Bool
  defer : Bool
  prs : Option (Fin 256)
  ces : List (Fin 4096 × Fin 8)
  deriving DecidableEq, Repr

/-- What an egress selection finds (R211, R365, R570): a cell of the head fails parity, the queue whose link memory is
uncorrectable, the transition entry the egress parse finds uncorrectable, and the CE slots with corrected errors. -/
structure SelectFacts where
  parity : Bool
  link : Option (Fin 16)
  prs : Option (Fin 256)
  ces : List (Fin 4096 × Fin 8)
  deriving DecidableEq, Repr

/-- The commands of the part: one constructor per row of the command table, with its operands. -/
inductive Instr where
  /-- REGISTER_WRITE (R77): A write to a register field that has no row of its own takes effect as its access type states; one
     that has acts as that row. `more`: the following words of a longer write; `facts`: what a start finds that a write of
     PAG_RESET.PART brings (R91). -/
  | registerWrite (m : Master) (addr : BitVec 28) (v : Word) (more : List Word) (facts : StartFacts)
  /-- UNPOPULATED_WINDOW_ACCESS (R3): An access to the window of an unpopulated port-die position completes, reads return
     zeros and writes are discarded. -/
  | unpopulatedWindowAccess (m : Master) (addr : BitVec 28) (w : Option Word)
  /-- RESERVED_RANGE_ACCESS (R71): An access to the reserved BAR0 range or a reserved page completes with zeros or a discard
     and sets ACC_ERR. -/
  | reservedRangeAccess (m : Master) (addr : BitVec 28) (w : Option Word)
  /-- BAD_WIDTH_ACCESS (R92): A narrow, unaligned or page-crossing access is discarded or reads zeros and sets ACC_ERR. -/
  | badWidthAccess (m : Master) (addr : BitVec 28) (len : Fin 65) (write : Bool)
  /-- BROADCAST_WRITE (R72): A write to the broadcast window is checked once and applied at the same offset on every populated
     port die; `more` as for REGISTER_WRITE. -/
  | broadcastWrite (m : Master) (off : BitVec 24) (v : Word) (more : List Word)
  /-- BROADCAST_READ (R73): A read of the broadcast window returns port die 0's value after earlier broadcast writes from the
     same function have applied. -/
  | broadcastRead (m : Master) (off : BitVec 24)
  /-- RC_READ_CLEAR (R79): A read of an RC field through a die window by a master with read rights returns and clears it. -/
  | rcReadClear (m : Master) (addr : BitVec 28) (more : Fin 16)
  /-- LOW_HALF_READ_LATCH (R93): A read of the low half of a 64-bit value latches the high half for the reading master. -/
  | lowHalfReadLatch (m : Master) (addr : BitVec 28) (both : Bool)
  /-- LOW_HALF_WRITE_HOLD (R94): A write of the low half of a 64-bit RW value is held per master and changes nothing in force. -/
  | lowHalfWriteHold (m : Master) (addr : BitVec 28) (v : Word)
  /-- HIGH_HALF_WRITE (R94): A write of the high half of a 64-bit RW value applies it with the held or current low half. -/
  | highHalfWrite (m : Master) (addr : BitVec 28) (v : Word)
  /-- RWD_HOLD_RELEASE (R82): A write of 0 to PAGE_CTRL.RWD_HOLD releases all held RWD writes to take effect together at the
     next boundary. -/
  | rwdHoldRelease (m : Master) (w : Fin 9) (page : Fin 4096)
  /-- PAGE_OWNER_WRITE (R85): A write of PAGE_OWNER by PF0 or the MP sets the page owner; any other master's write is
     discarded with ACC_ERR. -/
  | pageOwnerWrite (m : Master) (w : Fin 9) (page : Fin 4096) (v : Word)
  /-- IND_READ (R95): IND_CMD.OP 1 starts a read of the entry at IND_ADDR into IND_DATA. -/
  | indRead (m : Master) (w : Fin 9) (tab : Fin 42) (p : Fin 68) (autoinc : Bool)
  /-- IND_WRITE (R95): IND_CMD.OP 2 starts a write of IND_DATA to the entry at IND_ADDR. -/
  | indWrite (m : Master) (w : Fin 9) (tab : Fin 42) (p : Fin 68) (autoinc : Bool)
  /-- IND_OP_COMPLETE (R96): An indirect operation completes, clears BUSY, sets FAIL where rejected and increments IND_ADDR
     under AUTOINC. -/
  | indOpComplete (w : Fin 9) (tab : Fin 42) (p : Fin 68) (ecc : Ecc) (act : Bool)
  /-- CE_BUCKET_LEAK (R84): Each leak period subtracts 1 from a bucket level down to zero. -/
  | ceBucketLeak (w : Fin 9) (page : Fin 4096) (i : Fin 8)
  /-- EVT_FORCE (R82): A write of EVT_FORCE sets the named EVT_PENDING bits ignoring EVT_ENABLE. -/
  | evtForce (m : Master) (w : Fin 9) (page : Fin 4096) (mask : Word)
  /-- EVT_PENDING_CLEAR (R108): A W1C write of EVT_PENDING clears latched event bits. -/
  | evtPendingClear (m : Master) (w : Fin 9) (page : Fin 4096) (mask : Word)
  /-- EVT_SRC_PENDING_UPDATE (R109): A port-die page's pending state reaches EVT_SRC_PENDING on the Meridian die over the
     control channel. -/
  | evtSrcPendingUpdate (d : Fin 8) (page : Fin 4096)
  /-- EVT_VEC_ARM (R108): A write of EVT_VEC_ARM arms vectors after earlier W1C writes of the master have taken effect. -/
  | evtVecArm (m : Master) (hi : Bool) (mask : Word)
  /-- MSIX_MESSAGE_SEND (R107): An enabled, armed, active vector whose holdoff has passed sends its MSI-X message and disarms. -/
  | msixMessageSend (v : Fin 64) (masked : BitVec 4)
  /-- LOCK_ACQUIRE_READ (R112): A read of a lock register acquires a free lock or returns the holder's ID. -/
  | lockAcquireRead (m : Master) (i : Fin 64)
  /-- LOCK_RELEASE (R113): The owner's write of its own master ID frees the lock; other writes are discarded with ACC_ERR. -/
  | lockRelease (m : Master) (i : Fin 64) (v : Word)
  /-- LOCK_BREAK_WRITE (R114): A write of LCK_BREAK by PF0 or the MP frees the named locks and raises the lock-broken event. -/
  | lockBreakWrite (m : Master) (hi : Bool) (mask : Word)
  /-- LOCK_HOLD_LIMIT_WRITE (R115): A write of LCK_CFG.HOLD_LIMIT applies to holdings in progress and raises overdue hold
     events within 1 us. -/
  | lockHoldLimitWrite (m : Master) (v : Word)
  /-- LOCK_HOLD_EXPIRE (R115): A lock held longer than HOLD_LIMIT raises the lock-hold event once. -/
  | lockHoldExpire (i : Fin 64)
  /-- FRAME_RECEIVE (R42): A frame arrives on a port, is checked by the MAC, classified and written to the buffer cell by cell. -/
  | frameReceive (d : Fin 8) (l : Fin 256) (frame : List Byte) (words : List (List (Fin 544))) (shared : Bool)
      (line : List (List (Fin 4)))
  /-- XOFF_EVAL (R327): The XOFF condition is re-evaluated on release and at least every 64 ns, leaving XOFF when below XON. -/
  | xoffEval (d : Fin 8) (l : Fin 256) (g : Fin 8)
  /-- INGRESS_PARSE (R209): Once the first cell is complete the parser walks its transition table and yields the vector and
     entry offset. -/
  | ingressParse (d p : Fin 8) (ue : Option (Fin 256)) (ces : List (Fin 4096 × Fin 8))
  /-- STAGE_EXECUTE (R143): A packet fetches and executes one microword in a stage and forms its next address. -/
  | stageExecute (id : Nat) (facts : StageFacts)
  /-- DEEP_LOOKUP_RETURN (R293): A deep lookup returns with hit, miss, poisoned or error status. -/
  | deepLookupReturn (id : Nat) (poisoned : Fin 4) (timeout : Bool)
  /-- PARK_STALL_RELEASE (R160): A stalled packet parks once a parking entry and pool room are free. -/
  | parkStallRelease (id : Nat)
  /-- PARK_WAKE (R161): A parked packet's condition holds and an empty slot is inserted at stage 0 for it. -/
  | parkWake (id : Nat)
  /-- PARK_REENTRY (R163): A woken packet re-enters its WAIT stage and its cells return to its ingress account. -/
  | parkReentry (id : Nat) (ue : Bool)
  /-- PARK_TIMEOUT (R165): A packet parked for SEQ_PARK_TMO re-enters with the timed-out indication. -/
  | parkTimeout (id : Nat)
  /-- ORDER_HOLD_RELEASE (R168): A held packet passes to admission when every earlier packet of its port has left stage 11 or
     been dropped. -/
  | orderHoldRelease (id : Nat) (ue : Bool)
  /-- STORE_WORD_REWRITE (R190): Firmware rewrites an uncorrectable stage-store word from its retained image. -/
  | storeWordRewrite (d p : Fin 8) (st : Fin 18) (a : Fin 4096) (poisoned : Bool)
  /-- HW_LEARN (R274): The update engine learns a source-miss key locally and sends a hardware learn message. -/
  | hwLearn (d : Fin 8)
  /-- LEARN_MESSAGE_FORWARD (R279): The Meridian die copies a learn, touch or delete message to every other populated die. -/
  | learnMessageForward
  /-- LEARN_MESSAGE_APPLY (R282): A die applies a learn message, resolving conflicts with recent-learn records. -/
  | learnMessageApply (d : Fin 8)
  /-- LEARN_REJECT (R277): A peer's placement reject makes the home die delete the entry everywhere and report the failure. -/
  | learnReject (d : Fin 8)
  /-- DELETE_MESSAGE_APPLY (R284): A die applies a delete message when its entry's HOME matches or the delete is a software
     delete. -/
  | deleteMessageApply (d : Fin 8)
  /-- TOUCH_SEND (R286): A queued touch is sent to its home die. -/
  | touchSend (d : Fin 8)
  /-- TOUCH_APPLY (R286): A home die receiving a touch sets its hit bit for the key. -/
  | touchApply (d : Fin 8)
  /-- LEARN_RECORD_EXPIRE (R281): A recent-learn record expires after 4 us. -/
  | learnRecordExpire (d : Fin 8)
  /-- SWEEP_PASS (R287): The sweeper starts a pass every PERIOD_MS clearing hit bits and marking or removing idle home entries.
     `prevail`: the slots in whose removal cycle a hit or a touch falls (R314). -/
  | sweepPass (d : Fin 8) (prevail : List (Fin 262176))
  /-- CATALOGUE_REPAIR (R595): A die repairs a lost Catalogue slot from its peer by key or by bucket resync. -/
  | catalogueRepair (d : Fin 8) (peerUe : Bool)
  /-- PREFIX_REPAIR (R597): An uncorrectable prefix word is copied from the peer and its poison cleared. -/
  | prefixRepair (d : Fin 8) (peerUe : Bool)
  /-- CAT_INSERT (R268): The INSERT command places key and data on the issuing die and sends a software learn message. -/
  | catInsert (m : Master) (d : Fin 8) (tag : Fin 256) (wide static noReplace broadcast : Bool)
  /-- CAT_DELETE (R268): The DELETE command removes the key and sends a software delete to all dies. -/
  | catDelete (m : Master) (d : Fin 8) (tag : Fin 256) (wide broadcast : Bool)
  /-- CAT_SEARCH (R268): The SEARCH command looks up the key on the issuing die. -/
  | catSearch (m : Master) (d : Fin 8) (tag : Fin 256) (wide ue broadcast : Bool) (ces : List (Fin 4096 × Fin 8))
  /-- CAT_NEXT (R271): The NEXT command returns the next matching entry from the cursor or END. -/
  | catNext (m : Master) (d : Fin 8) (tag : Fin 256) (ue broadcast : Bool) (ces : List (Fin 4096 × Fin 8))
  /-- CAT_FLUSH_BY_PORT (R272): The FLUSH_BY_PORT command removes matching dynamic entries of a port on all dies. -/
  | catFlushByPort (m : Master) (d : Fin 8) (tag : Fin 256) (inclStatic broadcast : Bool)
  /-- SWEEP_PAUSE (R268): SWEEP_CTRL action 0 pauses the sweepers of all dies. -/
  | sweepPause (m : Master) (d : Fin 8) (tag : Fin 256) (broadcast : Bool)
  /-- SWEEP_RESUME (R268): SWEEP_CTRL action 1 resumes the sweepers of all dies. -/
  | sweepResume (m : Master) (d : Fin 8) (tag : Fin 256) (broadcast : Bool)
  /-- SWEEP_START_NOW (R268): SWEEP_CTRL action 2 starts a pass now and restarts the period on all dies.
     `prevail`: as SWEEP_PASS has it, by die. -/
  | sweepStartNow (m : Master) (d : Fin 8) (tag : Fin 256) (broadcast : Bool) (prevail : List (Fin 8 × Fin 262176))
  /-- CAT_DEEP_INSERT (R294): A deep INSERT places an entry in the deep catalogue on the lowest unfenced die. -/
  | catDeepInsert (m : Master) (d : Fin 8) (tag : Fin 256) (noReplace broadcast : Bool) (poisoned : Fin 4)
  /-- CAT_DEEP_DELETE (R294): A deep DELETE removes an entry from the deep catalogue. -/
  | catDeepDelete (m : Master) (d : Fin 8) (tag : Fin 256) (broadcast : Bool) (poisoned : Fin 4)
  /-- CAT_DEEP_SEARCH (R294): A deep SEARCH looks up a key in the deep catalogue. -/
  | catDeepSearch (m : Master) (d : Fin 8) (tag : Fin 256) (broadcast : Bool) (poisoned : Fin 4)
  /-- CAT_CMD_RESPONSE_POST (R269): A multi-die command posts its response once all dies have applied or rejected the change. -/
  | catCmdResponsePost (d : Fin 8)
  /-- CAT_RSP_POP (R311): A write of CAT_RSP_POP discards the head response. -/
  | catRspPop (m : Master) (d : Fin 8)
  /-- DEEP_CFG_WRITE (R295): A write of CAT_DEEP_CFG is checked against EN and region 1 and applied or discarded. -/
  | deepCfgWrite (m : Master) (d : Fin 8) (broadcast en : Bool) (seed : Fin 65536) (size : Fin 32)
  /-- LPM_INSERT (R298): The LPM INSERT command adds or replaces a prefix on each die in queue order. `late`,
     here and below: the dies, by bit, that a broadcast has not reached yet (R68). -/
  | lpmInsert (m : Master) (d : Fin 8) (tag len : Fin 256) (v6 broadcast : Bool) (late : Fin 256)
  /-- LPM_DELETE (R298): The LPM DELETE command removes a prefix on each die. -/
  | lpmDelete (m : Master) (d : Fin 8) (tag len : Fin 256) (v6 broadcast : Bool) (late : Fin 256)
  /-- LPM_SEARCH (R298): The LPM SEARCH command looks up an exact prefix. -/
  | lpmSearch (m : Master) (d : Fin 8) (tag len : Fin 256) (v6 broadcast : Bool) (late : Fin 256)
  /-- LPM_LOOKUP_CMD (R298): The LPM LOOKUP command returns the longest match for an address. -/
  | lpmLookupCmd (m : Master) (d : Fin 8) (tag len : Fin 256) (v6 broadcast : Bool) (late : Fin 256)
  /-- LPM_RSP_POP (R300): A write of LPM_RSP_POP discards the head response. -/
  | lpmRspPop (m : Master) (d : Fin 8)
  /-- FILTER_KEY_COMMIT (R304): An FLT_IND write with COMMIT_KEY takes value, mask and action together. `late`,
     here and below: as for LPM_INSERT. -/
  | filterKeyCommit (m : Master) (d : Fin 8) (broadcast : Bool) (late : Fin 256) (i : Fin 16384) (action : BitVec 64)
      (valid : Bool)
  /-- FILTER_ACTION_WRITE (R304): An FLT_IND write without COMMIT_KEY changes only action and VALID. -/
  | filterActionWrite (m : Master) (d : Fin 8) (broadcast : Bool) (late : Fin 256) (i : Fin 16384) (action : BitVec 64)
      (valid : Bool)
  /-- FILTER_BG_COMPARE (R305): The background compare checks TCAM rows against the shadow and rewrites or invalidates them. -/
  | filterBgCompare (d : Fin 8) (i : Fin 16384) (rowValue rowMask : BitVec 320) (shadow : Ecc)
  /-- LOCAL_TRANSFER (R347): The local transfer moves a copy from an eligible local VOQ into an egress queue. -/
  | localTransfer (d p : Fin 8) (ue : Bool) (lost : Option (Fin 8 × Fin 8)) (ces : List (Fin 4096 × Fin 8))
  /-- STOP_MESSAGE_RECEIVE (R341): A stop change reaches another die over the control channel. -/
  | stopMessageReceive (viewer d : Fin 8) (l : Fin 256) (q : Fin 16)
  /-- CROSSBAR_MATCH (R355): In each parcel time the Meridian die matches requesting sources to destinations by rotation and
     iterations. -/
  | crossbarMatch
  /-- PARCEL_LAUNCH (R357): A matched source fills and launches a parcel, or resends a pending replay. -/
  | parcelLaunch (src : Fin 64) (parity : Option (Fin 16)) (ue : Bool) (lost : Option (Fin 8)) (ces : List (Fin 4096 × Fin 8))
  /-- PARCEL_ARRIVAL (R360): The destination checks a parcel, lands its cells and acknowledges it or sends a NACK. -/
  | parcelArrival (dst : Fin 64) (good lost ue : Bool) (ces : List (Fin 4096 × Fin 8))
  /-- PARCEL_ACK_RECEIVE (R359): An acknowledgement releases the source's retained cells of the parcel. -/
  | parcelAckReceive (src : Fin 64) (read : Ecc)
  /-- PARCEL_NACK_RECEIVE (R361): A NACK makes the source resend the pair's parcels from the named one. -/
  | parcelNackReceive (src : Fin 64) (read : Ecc)
  /-- PARCEL_ACK_TIMEOUT (R361): No acknowledgement within ACK_TMO_NS makes the source resend from the oldest unacknowledged
     parcel. -/
  | parcelAckTimeout (src dst : Fin 64)
  /-- EGRESS_SELECT (R421): At a frame boundary the port starts the head of the first eligible strict or DRR queue into the
     egress half. -/
  | egressSelect (d : Fin 8) (l : Fin 256) (facts : SelectFacts)
  /-- PLATE_RECORD_WRITE (R618): A queued capture record is written to the Plate ring at WP. -/
  | plateRecordWrite (d : Fin 8)
  /-- COLLECTOR_FRAME_INJECT (R771): A queued collector frame is injected into stage 0 in a reserved slot. -/
  | collectorFrameInject (d p : Fin 8) (prs : Option (Fin 256))
  /-- TRANSMIT_COMPLETE (R315): The last byte of a copy is sent and its egress charge is released. -/
  | transmitComplete (d : Fin 8) (l : Fin 256) (parity : Bool)
  /-- ETS_POP (R446): A write of STB_ETS_POP discards the head timestamp entry. -/
  | etsPop (m : Master) (d : Fin 8)
  /-- PFC_FRAME_SEND (R329): A PG change into or out of XOFF sends a PFC frame ahead of queue selection. -/
  | pfcFrameSend (d : Fin 8) (l : Fin 256)
  /-- PFC_REPEAT (R332): While a PG stays in XOFF the port repeats its PFC frame every PFC_QUANTA / 2. -/
  | pfcRepeat (d : Fin 8) (l : Fin 256)
  /-- MAC_CONTROL_RECEIVE (R333): A received MAC control frame is consumed and a PFC frame pauses or resumes priorities. -/
  | macControlReceive (d : Fin 8) (l : Fin 256) (frame : List Byte)
  /-- PFC_PAUSE_EXPIRE (R333): A received pause time runs out and the priority is no longer paused. -/
  | pfcPauseExpire (d : Fin 8) (l : Fin 256) (prio : Fin 8)
  /-- WATCHDOG_DISCARD (R335): A queue paused without sending for BUF_WDOG_CFG.MS enters watchdog discard and is flushed. -/
  | watchdogDiscard (d : Fin 8) (l : Fin 256) (q : Fin 16)
  /-- WATCHDOG_EXIT (R335): A queue leaves watchdog discard once none of its priorities has been paused for MS. -/
  | watchdogExit (d : Fin 8) (l : Fin 256) (q : Fin 16)
  /-- DOWN_HOLD_EXPIRE (R370): A down-hold ending with the link down flushes the port's queues and VOQ copies everywhere. -/
  | downHoldExpire (d : Fin 8) (l : Fin 256)
  /-- SPILL_FETCH (R374): A spilling queue with fewer than 64 cells on the die fetches spilled copies back in order. -/
  | spillFetch (d : Fin 8) (l : Fin 256) (q : Fin 16)
  /-- SPILL_FETCH_RETURN (R374): A spilled copy returns from CXL memory into the fetch reserve. -/
  | spillFetchReturn (d : Fin 8) (poisoned : Bool)
  /-- SHAPER_REFILL (R425): Every 16 ns each enabled shaper bucket gains its rate up to BURST. -/
  | shaperRefill (d : Fin 8)
  /-- RAMP_STEP (R430): At each step phase a ramping group's limit rises toward CEIL. -/
  | rampStep (d : Fin 8) (g : Fin 64)
  /-- RAMP_IDLE_RESET (R431): A group idle for IDLE_RESET_US enters RESET at FLOOR. -/
  | rampIdleReset (d : Fin 8) (g : Fin 64)
  /-- GATE_CHANGE (R414): A port's gate state changes when follower phase reaches an entry's START. -/
  | gateChange (d : Fin 8) (l entry : Fin 256)
  /-- POL_CLR (R451): POL_CLR.GO clears a context's counters and sequence state and fills its buckets. -/
  | polClr (m : Master) (d : Fin 8) (i : Fin 16384)
  /-- POL_CTX_WRITE (R442): A write of a stream context is checked and applied at the next refill, or clears POISON. -/
  | polCtxWrite (m : Master) (d : Fin 8) (i : Fin 16384) (w0 w1 w2 w3 w4 : Word)
  /-- HQ_TAIL_WRITE (R743): A host write of HQ_TAIL hands new descriptors to the part. -/
  | hqTailWrite (m : Master) (pf : Fin 4) (q : Fin 20) (tail : Fin 65536)
  /-- HOST_FRAME_INJECT (R245): A host transmit frame enters the pipeline of its port in a reserved slot in ingress or egress
     mode. -/
  | hostFrameInject (pf : Fin 4) (q : Fin 4) (desc : BitVec 256) (frame : List Byte) (fault : Bool) (prs : Option (Fin 256))
  /-- HOST_RX_DELIVER (R745): A copy to the host is written with its prefix into the next receive descriptor or dropped. -/
  | hostRxDeliver (pf : Fin 4) (q : Fin 16) (buffer : BitVec 64) (fault : Bool)
  /-- MBX_GO (R735): The sender's GO posts the request, stamps SENDER and SEQ and rings the doorbell. -/
  | mbxGo (m : Master) (ch : Fin 13)
  /-- MBX_TAKE (R735): The MP's TAKE takes a posted request or acknowledges WITHDRAWN. -/
  | mbxTake (m : Master) (ch : Option (Fin 13))
  /-- MBX_DONE (R735): The MP's DONE completes the reply and raises the reply-ready event. -/
  | mbxDone (m : Master) (ch : Fin 13)
  /-- MBX_RELEASE (R735): The sender's RELEASE consumes the reply and the channel becomes IDLE. -/
  | mbxRelease (m : Master) (ch : Fin 13)
  /-- START_STATUS_GET (R741): The start-status service returns the start step, failures and result. -/
  | startStatusGet (ch : Fin 13)
  /-- SENSORS_READ (R742): The sensors READ service returns up to 14 sensor values. -/
  | sensorsRead (ch : Fin 13)
  /-- SENSORS_LOG_CFG (R742): The sensors LOG_CFG service sets the sensor-logging period. -/
  | sensorsLogCfg (ch : Fin 13)
  /-- SENSOR_LOG_PERIOD (R742): Each logging period firmware appends one sensor record per die to the Almanac. -/
  | sensorLogPeriod
  /-- PROGRAM_CHANGE_LOAD (R175): Firmware verifies, loads and flips a new program pair hitlessly or refuses it. -/
  | programChangeLoad (ch : Fin 13) (buf : Option (List Byte)) (bad : Option (Fin 18 × Fin 2048))
  /-- PROGRAM_CHANGE_RESTORE (R184): Firmware restores an unready pipeline's stores and epochs from the others and sets READY. -/
  | programChangeRestore (ch : Fin 13)
  /-- EPOCH_FLIP_IN (R171): SEQ_EPOCH_CMD.FLIP_IN from the MP inverts the ingress epoch. -/
  | epochFlipIn (m : Master) (d p : Fin 8)
  /-- EPOCH_FLIP_EG (R171): SEQ_EPOCH_CMD.FLIP_EG from the MP inverts the egress epoch. -/
  | epochFlipEg (m : Master) (d p : Fin 8)
  /-- EPOCH_FLIP_APPLY (R171): A flip takes effect for packets entering the half 16 cclk after the write. -/
  | epochFlipApply (d p : Fin 8)
  /-- OLD_HALF_IDLE (R175): When SEQ_OLD_USE reaches zero the old-half-idle event is raised and firmware replies DONE. -/
  | oldHalfIdle (d p : Fin 8)
  /-- REPAIR_MAP_READ (R586): The repair-map READ service returns the soft-repair map. -/
  | repairMapRead (ch : Fin 13) (writeOk : Bool)
  /-- REPAIR_MAP_ADD (R586): The repair-map ADD service adds entries to the soft-repair map for the next start. -/
  | repairMapAdd (ch : Fin 13) (buf : Option (List Byte))
  /-- REPAIR_MAP_REMOVE (R586): The repair-map REMOVE service removes an entry from the soft-repair map. -/
  | repairMapRemove (ch : Fin 13)
  /-- QUOTE (R725): The quote service returns a quote over the live state signed by the identity key. -/
  | quote (ch : Fin 13) (buf : Option (List Byte)) (writeOk : Bool)
  /-- CERTIFICATE_GET (R701): The certificate service returns the identity certificate unchanged. -/
  | certificateGet (ch : Fin 13) (writeOk : Bool)
  /-- OWNER_KEY_ADD (R711): The owner-key ADD service burns a hash into the lowest free owner slot. -/
  | ownerKeyAdd (ch : Fin 13) (buf : Option (List Byte)) (burnOk : Bool)
  /-- OWNER_KEY_REVOKE (R711): The owner-key REVOKE service burns the revoke bit of an owner slot. -/
  | ownerKeyRevoke (ch : Fin 13) (burnOk : Bool)
  /-- ROLLBACK_COMMIT (R712): The rollback-commit service raises a fused counter and revokes vendor slots in REVOKE_MASK. -/
  | rollbackCommit (ch : Fin 13) (burnOk : Bool)
  /-- FUSE_LOCK_MATRIX (R713): The fuse-lock MATRIX command burns the protection matrix and MATRIX_LOCK. -/
  | fuseLockMatrix (ch : Fin 13) (buf : Option (List Byte)) (burnOk : Bool)
  /-- FUSE_LOCK_DEBUG_OFF (R713): The fuse-lock DEBUG_OFF command burns DEBUG_OFF. -/
  | fuseLockDebugOff (ch : Fin 13) (burnOk : Bool)
  /-- FUSE_LOCK_BOTH (R713): The fuse-lock BOTH command burns the matrix, MATRIX_LOCK and DEBUG_OFF. -/
  | fuseLockBoth (ch : Fin 13) (buf : Option (List Byte)) (burnOk : Bool)
  /-- UPDATE_STAGE (R726): The update STAGE command copies a chunk of an image set into MP working memory. -/
  | updateStage (ch : Fin 13) (buf : Option (List Byte))
  /-- UPDATE_APPLY (R726): The update APPLY command verifies, writes and reads back the other bank and sets a trial selector. -/
  | updateApply (ch : Fin 13) (flaws : List (Nat × Byte))
  /-- CONFIRM (R727): The confirm service clears TRIAL when the running bank is preferred. -/
  | confirm (ch : Fin 13)
  /-- BOARD_DESCRIPTION_WRITE (R672): The board-description service writes a new board description record. -/
  | boardDescriptionWrite (ch : Fin 13) (buf : Option (List Byte))
  /-- RECOVERY_STAGE (R716): The recovery STAGE command receives a vendor manifest or image in the boot ROM. -/
  | recoveryStage (ch : Fin 13) (buf : Option (List Byte))
  /-- RECOVERY_WRITE (R716): The recovery WRITE command verifies and writes the staged set to bank A and a selector. -/
  | recoveryWrite (ch : Fin 13) (flaws : List (Nat × Byte))
  /-- DIE_REPORT (R740): A die controller's die-report message carries die-local faults or fence notices to firmware. -/
  | dieReport (d : Fin 8)
  /-- FOCUS_CONTRIBUTION (R466): The Focus engine checks a contribution and combines it into its chunk's accumulator or
     discards it. -/
  | focusContribution (d : Fin 8) (ue : Option (Fin 3)) (ces : List (Fin 4096 × Fin 8))
  /-- OPEN_NOTICE_RECEIVE (R480): An open notice from a non-root die starts the root's chunk timer. -/
  | openNoticeReceive (d : Fin 8)
  /-- PARTIAL_CELL_ARRIVAL (R477): The root adds a complete partial once, acknowledges it, or sends a NACK. -/
  | partialCellArrival (d : Fin 8) (ue : Bool) (ces : List (Fin 4096 × Fin 8))
  /-- PARTIAL_ACK_RECEIVE (R478): A partial acknowledgement releases the retained partial at the source. -/
  | partialAckReceive (d : Fin 8)
  /-- PARTIAL_NACK_RECEIVE (R478): A partial NACK makes the source resend the whole partial. -/
  | partialNackReceive (d : Fin 8)
  /-- PARTIAL_ACK_TIMEOUT (R478): No partial acknowledgement within ACK_TMO_US resends the partial or fails the context. -/
  | partialAckTimeout (d : Fin 8)
  /-- RESULT_INJECT (R482): The root injects a RESULT frame into stage 0 once the ingress account has room and a reserved slot
     is free. -/
  | resultInject (d : Fin 8) (ue : Bool) (prs : Option (Fin 256))
  /-- CLOSE_MESSAGE_RECEIVE (R479): A non-root die frees the chunk's slot and advances its base on the close message. -/
  | closeMessageReceive (d : Fin 8)
  /-- CHUNK_TIMER_EXPIRE (R480): A chunk timer expiring fails the context with code 1. -/
  | chunkTimerExpire (d : Fin 8) (slot : Fin 512)
  /-- MEMBER_BITMAP_REPLY (R488): A die answers the root's request for its missing-member bitmap. -/
  | memberBitmapReply (d : Fin 8)
  /-- ERROR_INJECT (R488): The root injects an ERROR frame with the code and member bitmap. -/
  | errorInject (d : Fin 8) (prs : Option (Fin 256))
  /-- FOCUS_CREATE (R484): The CREATE command validates across the die set and activates the context or refuses it. -/
  | focusCreate (m : Master) (d : Fin 8) (tag : Fin 256)
  /-- FOCUS_DESTROY (R485): The DESTROY command makes the context IDLE on every die, injecting an ERROR if a chunk is open. -/
  | focusDestroy (m : Master) (d : Fin 8) (tag : Fin 256)
  /-- MAINS_EDGE (R397): A qualified MAINS_REF rising edge disciplines the cycle and drives the source's state. -/
  | mainsEdge (held : Bool) (tracked : BitVec 32)
  /-- PPS_EDGE (R398): A PPS_IN edge disciplines time of day and drives the source's state. -/
  | ppsEdge (rate : BitVec 32)
  /-- TEN_MHZ_LOSS (R398): An absent or off-frequency 10 MHz clock is a loss at once and enters HOLDOVER. -/
  | tenMhzLoss
  /-- FREQ_ADJ_WRITE (R399): A write of STB_FREQ_ADJ adjusts frequency and counts as a PTP reference edge. -/
  | freqAdjWrite (m : Master) (v : Word)
  /-- MISSING_EDGE (R400): An expected reference edge or servo update fails to arrive and counts as missing. -/
  | missingEdge (r : Reference)
  /-- SOURCE_SELECT (R400): A write of STB_CFG selecting a time or cycle source moves the source to FREE or ACQUIRING. -/
  | sourceSelect (m : Master) (tod : Fin 4) (mains : Bool)
  /-- STEP_GO (R405): STB_STEP_CMD.GO posts a step for the next cycle boundary, replacing any pending step. -/
  | stepGo (m : Master)
  /-- CYCLE_BOUNDARY (R394): Phase wraps to 0 and the cycle number rises by 1. -/
  | cycleBoundary
  /-- EPH_SWAP_GO (R416): EPH_SWAP_CMD.GO requests a swap of the shadow bank for a port. -/
  | ephSwapGo (m : Master) (d p : Fin 8) (count : Fin 512)
  /-- EPH_SWAP_VALIDATE (R416): The part validates the shadow bank and arms the swap or refuses it with a reason. -/
  | ephSwapValidate (d p : Fin 8)
  /-- EPH_ENABLE_WRITE (R413): A write of EPH_PORT.EN closes the gates at the next boundary or opens them at once. -/
  | ephEnableWrite (m : Master) (d p : Fin 8) (l : Fin 32) (en : Bool)
  /-- FOLLOWER_SYNC_LOSS (R446): A die's follower copy leaves SYNC and raises the loss-of-SYNC event. -/
  | followerSyncLoss (d : Fin 8)
  /-- PORT_ENABLE (R541): A PRT_PORT write of EN = 1 moves the lanes to L0 and begins a link-up attempt. -/
  | portEnable (m : Master) (d : Fin 8) (l : Fin 256)
  /-- PORT_DISABLE (R545): A PRT_PORT write of EN = 0 ends any attempt, counts a link-down if up and idles the transmitters. -/
  | portDisable (m : Master) (d : Fin 8) (l : Fin 256) (cutFrame : List Byte)
  /-- LANE_STATE_REQUEST (R559): A write of LSTATE_REQ sets the lane state used while the port is disabled. -/
  | laneStateRequest (m : Master) (d : Fin 8) (l : Fin 256) (req : Fin 4)
  /-- LANES_READY (R559): Lanes leaving L1 or L2 become ready and the attempt begins. -/
  | lanesReady (d : Fin 8) (l : Fin 256)
  /-- AUTONEG_COMPLETE (R539): Clause 73 auto-negotiation resolves the interface or reports a mismatch. -/
  | autonegComplete (d : Fin 8) (l : Fin 256) (partner : List (Fin 4 × Fin 4))
  /-- TRAINING_COMPLETE (R540): Link training sets transmit equalisation and precoding of both ends. -/
  | trainingComplete (d : Fin 8) (l : Fin 256) (coefficients : List Word) (preTx preRx : BitVec 8)
  /-- LINK_UP (R543): After alignment lock and 1 ms without fault the link goes up and is reported to the buffer. -/
  | linkUp (d : Fin 8) (l : Fin 256) (aligned : BitVec 8) (since : Nat)
  /-- ATTEMPT_TIMEOUT (R542): An attempt reaching ATTEMPT_MS ends, counts ATTEMPT and starts the back-off wait. -/
  | attemptTimeout (d : Fin 8) (l : Fin 256) (aligned : BitVec 8) (since : Nat)
  /-- BACKOFF_EXPIRE (R542): The back-off wait ends and the next attempt begins. -/
  | backoffExpire (d : Fin 8) (l : Fin 256)
  /-- LINK_DOWN (R544): Loss of alignment, loss of signal or a received fault takes the link down and starts attempt 1. -/
  | linkDown (d : Fin 8) (l : Fin 256) (cause : Fin 4) (cutFrame : List Byte)
  /-- RTC_SCAN_GO (R549): LAN_RTC_CMD.GO starts a software Reticle scan, preempting a background scan. -/
  | rtcScanGo (m : Master) (d : Fin 8) (o : Fin 32) (v : Word)
  /-- RTC_SCAN_ABORT (R564): LAN_RTC_CMD.ABORT ends the software scan. -/
  | rtcScanAbort (m : Master) (d : Fin 8) (o : Fin 32) (v : Word)
  /-- SCAN_COMPLETE (R547): A scan ends and writes eye heights and widths. -/
  | scanComplete (d : Fin 8) (o : Fin 32) (counts : List (Fin 4096 × Word))
  /-- BACKGROUND_SCAN (R548): The lane controller scans each lane every SCAN_S seconds in summary mode. -/
  | backgroundScan (d : Fin 8) (o : Fin 32) (lane : Fin 8)
  /-- CALIBRATION_GO (R552): LAN_CAL_CMD.GO requests offline calibration of a lane or octet, or is refused. -/
  | calibrationGo (m : Master) (d : Fin 8) (o : Fin 32) (v : Word)
  /-- CALIBRATION_COMPLETE (R553): Calibration ends with its result and raises the calibration-ended event. -/
  | calibrationComplete (d : Fin 8) (o : Fin 32) (ok : Bool)
  /-- SPARE_SUBSTITUTE_GO (R556): LAN_SPARE_CMD.GO starts a live DSP-slice substitution. -/
  | spareSubstituteGo (m : Master) (d : Fin 8) (o : Fin 32) (v : Word)
  /-- SUBSTITUTION_COMPLETE (R557): A slice substitution switches at a codeword boundary or ends without effect with a code. -/
  | substitutionComplete (d : Fin 8) (o : Fin 32) (ok : Bool)
  /-- SLICE_DEGRADED (R555): A slice monitor passing its limit sets DEGRADED and raises an event. -/
  | sliceDegraded (d : Fin 8) (l : Fin 256)
  /-- OCTET_CONFIG_WRITE (R568): A write of PRT_OCT_CFG changes the octet mode and resets per-port entries, or is discarded. -/
  | octetConfigWrite (m : Master) (d : Fin 8) (o : Fin 32) (v : Word)
  /-- FLIT_RECEIVE (R575): A Shenor flit is checked and acknowledged, or a retry is requested. -/
  | flitReceive (meridian : Bool) (p : Fin 64) (good : Bool) (flit : List Byte)
  /-- FLIT_RETRY_REQUEST (R575): The sender resends from the named flit on a retry request. -/
  | flitRetryRequest (meridian : Bool) (p : Fin 64) (ue : Bool)
  /-- RETRAIN_COMPLETE (R576): A retrain completes and the sender resends from the oldest unacknowledged flit. -/
  | retrainComplete (meridian : Bool) (p : Fin 64)
  /-- RETRAIN_TIMEOUT (R578): A retrain not completing within 20 us fails the Meridian port. -/
  | retrainTimeout (meridian : Bool) (p : Fin 64)
  /-- SCRUB_GO (R590): RAS_SCRUB_CMD.GO starts a scrub pass or refuses it with a reason. -/
  | scrubGo (m : Master) (w : Fin 9)
  /-- SCRUB_ABORT (R594): RAS_SCRUB_CMD.ABORT ends the pass at the next unit. -/
  | scrubAbort (m : Master) (w : Fin 9)
  /-- SCRUB_UNIT (R592): The scrubber reads one unit and counts, corrects, contains or repairs by mode. -/
  | scrubUnit (w : Fin 9) (found : Ecc) (key : Bool) (owner : Option (Fin 512)) (mcr row : Fin 65536)
  /-- BIST_GO (R600): RAS_BIST_CMD.GO starts a memory self-test or refuses it. -/
  | bistGo (m : Master) (w : Fin 9) (v : Word)
  /-- BIST_COMPLETE (R601): A self-test ends, zeroes the memory and reports its result. -/
  | bistComplete (w : Fin 9) (fails mcr row col : Fin 65536)
  /-- SHN_SPARE_GO (R587): SHN_SPARE_CMD.GO starts a Shenor wire substitution. -/
  | shnSpareGo (m : Master) (meridian : Bool) (p : Fin 64) (v : Word)
  /-- SHN_SPARE_COMPLETE (R587): A wire substitution switches at a flit boundary or ends with a code. -/
  | shnSpareComplete (meridian : Bool) (p : Fin 64) (ok : Bool)
  /-- CXL_REGION_ENABLE (R611): A write of EN = 1 to a CXL region is checked and starts decoder commit, or is discarded. -/
  | cxlRegionEnable (m : Master) (r : Fin 4) (v : Word)
  /-- REGION_COMMIT_COMPLETE (R611): Both decoders of a region are committed and COMMITTED is set. -/
  | regionCommitComplete (r : Fin 4)
  /-- CXL_REGION_DISABLE (R612): A write of EN = 0 disables a region, refused for region 2 while spilled cells remain. -/
  | cxlRegionDisable (m : Master) (r : Fin 4) (v : Word)
  /-- CXL_BUDGET_REFILL (R610): Every 16 ns each region's budget bucket refills. -/
  | cxlBudgetRefill
  /-- CXL_REQUEST_TIMEOUT (R615): A CXL.mem request without response after CPL_TMO_US ends in error. -/
  | cxlRequestTimeout (r : Fin 4) (d : Fin 9)
  /-- CXL_DEVICE_LOST (R615): A link failure, LOSS_TMO timeouts or a fatal error makes the port's device lost. -/
  | cxlDeviceLost (p : Fin 2)
  /-- CXL_PORT_RESTART (R615): CXL_PORT_CMD.RESTART retrains and re-enumerates a lost port, or is refused. -/
  | cxlPortRestart (m : Master) (p : Fin 2)
  /-- CXL_RESTART_COMPLETE (R615): A restarted port is enumerated again within 100 ms. -/
  | cxlRestartComplete (p : Fin 2) (units : Fin 4097) (fast wide : Bool)
  /-- CXL_RD_READ (R620): A read through CXL_RD returns a region line within 5 us or sets FAIL. -/
  | cxlRdRead (poisoned : Bool)
  /-- PMU_EPOCH (R626): Each 1 us epoch the dies report and the governor decides throttle, boost, allowances and lockstep. -/
  | pmuEpoch (readings : List Reading)
  /-- EXT_THROT_ASSERT (R631): Assertion of EXT_THROT_N imposes demand EXT_S on every port die. -/
  | extThrotAssert
  /-- EXT_THROT_DEASSERT (R631): Deassertion of EXT_THROT_N removes the external demand. -/
  | extThrotDeassert
  /-- DROOP_DETECT (R642): A droop detection stretches every cclk period of the die by 50 %. -/
  | droopDetect (d : Fin 8)
  /-- DROOP_STRETCH_END (R642): The stretch ends 32 cclk after every detector has cleared. -/
  | droopStretchEnd (d : Fin 8)
  /-- VOLTAGE_STEP (R640): The core setpoint moves one step of 10 mV or less per 10 us toward its target. -/
  | voltageStep (w : Fin 9)
  /-- PMBUS_POLL (R641): Every 1 ms the Meridian die reads every regulator of the board description. -/
  | pmbusPoll (reads : List (Option (BitVec 16 × BitVec 16)))
  /-- SENSE_GAIN_CORRECT (R627): Every 100 ms the current-sense gain is corrected against PMBus READ_IOUT. -/
  | senseGainCorrect (w : Fin 9) (sensed : Nat)
  /-- AGEING_MEASURE (R649): Every 2,160 powered hours firmware measures slack, raises TRIM and appends to the ageing record. -/
  | ageingMeasure (readings : List AgeReading)
  /-- AGE_MEASURE_CMD (R649): A write of 1 to PMU_AGE_CMD starts an ageing measurement now. -/
  | ageMeasureCmd (m : Master) (w : Fin 9)
  /-- AGE_MEASURE_RETRY (R656): A measurement interrupted by an MP reset is repeated 1 hour after firmware restarts. -/
  | ageMeasureRetry (readings : List AgeReading)
  /-- LIFE_RECORD_WRITE (R652): Every 24 hours firmware writes life accounting to the ageing record. -/
  | lifeRecordWrite
  /-- POWER_UP (R688): Assertion of PWR_GOOD runs start-up through its steps to traffic-ready. -/
  | powerUp (perst : Bool) (facts : StartFacts)
  /-- PWR_GOOD_LOSS (R671): Deassertion of PWR_GOOD enters cold reset within 1 us. -/
  | pwrGoodLoss
  /-- SYS_RST_ASSERT (R683): SYS_RST_N held low for 1 ms or more causes a cold reset. -/
  | sysRstAssert
  /-- WARM_RESET (R683): PAG_RESET.PART or a firmware fatal error resets the part with rails and clocks kept up. -/
  | warmReset (by' : Option (Master × BitVec 16 × Bool)) (facts : StartFacts)
  /-- MP_RESET (R683): PAG_RESET.MP, the MP watchdog or an MP SRAM error resets the MP alone. -/
  | mpReset (by' : Option (Master × BitVec 16)) (cause : MpCause)
  /-- HOST_PORT_RESET (R686): PERST#, a hot reset or host link down resets the host port and all four PFs. -/
  | hostPortReset (perst : Bool)
  /-- PERST_DEASSERT (R686): Deassertion of PERST# lets the host link train and configuration space answer within 80 ms. -/
  | perstDeassert
  /-- FUNCTION_LEVEL_RESET (R683): A PCIe FLR resets one PF, clearing its vectors, locks, queues and page ownership. -/
  | functionLevelReset (f : Fin 4)
  /-- THERMAL_TRIP (R679): A sensor at 120 C asserts THERM_TRIP_N and stops cclk and fclk until cold reset. -/
  | thermalTrip
  /-- DIE_FATAL_ERROR (R66): A port die signalling a fatal error is fenced while the other dies keep forwarding. -/
  | dieFatalError (d : Fin 8)
  /-- MEAS_EXTEND (R722): SEC_MEAS_CMD.GO from the MP extends the measurement accumulator and log. -/
  | measExtend (m : Master)
  /-- COUNTER_WRAP (R754): A general counter wrapping modulo 2^64 sets WRAP and raises the counter-wrap event. -/
  | counterWrap (w : Fin 9) (c : Fin 64) (n : Fin 17)
  /-- USER_PAGE_READ (R759): A BAR2 read returns the mirrored counter when user access is allowed, otherwise zero. -/
  | userPageRead (f : Fin 4) (addr : BitVec 16)
  /-- USER_PAGE_WRITE (R759): A BAR2 write is discarded with no error. -/
  | userPageWrite (f : Fin 4) (addr : BitVec 16) (v : Word)
  /-- PSTAT_CLEAR (R762): CNT_PSTAT_CLR.GO zeroes all fixed statistics of the named port within 1 us. -/
  | pstatClear (m : Master) (d : Fin 8) (v : Word)
  /-- SYS_RST_RELEASE (R695): Release of SYS_RST_N after a cold reset begins start-up again at step 1. -/
  | sysRstRelease (facts : StartFacts)
  /-- FOLLOWER_SYNC_REGAIN (R446): A port die's follower copy comes back within 2 ns of the time base and STB_FOL_STATUS.SYNC
     returns to 1. -/
  | followerSyncRegain (d : Fin 8)
  /-- WIRE_MARGIN_BELOW_LIMIT (R588): A Shenor receiver's continuous measurement finds a wire's margin below its limit and
     raises SHN event bit 2. -/
  | wireMarginBelowLimit (meridian : Bool) (p : Fin 64) (wire : Fin 340) (margin : Fin 65536) (errors : Word) (below : Bool)
  deriving DecidableEq, Repr

end Sys2Proof
end

