-- ==== Sys2Proof/Decode.lean ====
section
/-!
DEFINITION. The words of the command table: no row of this block's table gives an encoding, so no word spells a command.
-/
namespace Sys2Proof

/-- The command a word spells by the table's bits: the table gives none of its rows bits. -/
def decodeTableWord (_nbits _w : Nat) : Option Instr := none

end Sys2Proof
end

