-- ==== Sys2Proof/Config.lean ====
section
/-!
DEFINITION. What an implementation fixes and the spec leaves open or takes from an outside standard: constants with no
body, so that no proof can see what they are. Every claim holds whatever they are.
-/
namespace Sys2Proof

/-- The free values of the model, one for each draw: what the spec leaves open. -/
opaque Config.freeValue : Nat → Nat

/-- Byte `i` of the SHAKE256 output of FIPS 202 on a message. -/
opaque Config.shakeByte : List Byte → Nat → Byte

/-- ML-DSA-65 verification of FIPS 204: public key, message, signature. -/
opaque Config.mldsaVerify : List Byte → List Byte → List Byte → Bool

/-- Byte `i` of the ML-DSA-65 public key that key generation of FIPS 204 derives from a seed. -/
opaque Config.mldsaPublic : List Byte → Nat → Byte

/-- Byte `i` of a hedged ML-DSA-65 signature: seed of the key, message, and the number of the random draw. -/
opaque Config.mldsaSign : List Byte → List Byte → Nat → Nat → Byte

/-- The AES-256-GCM tag of FIPS 197 and SP 800-38D is valid: key, IV, additional data, ciphertext, tag. -/
opaque Config.gcmValid : List Byte → List Byte → List Byte → List Byte → List Byte → Bool

/-- Byte `i` of the AES-256-GCM plaintext: key, IV, ciphertext. -/
opaque Config.gcmPlain : List Byte → List Byte → List Byte → Nat → Byte

/-- Byte `i` of the fused unique secret and of the device-class secret (R709). -/
opaque Config.uniqueSecret : Nat → Byte
opaque Config.classSecret : Nat → Byte

/-- Byte `i` of the vendor key hash that Liwald fuses into slot `s` at manufacture (R709). -/
opaque Config.vendorHash : Nat → Nat → Byte

/-- The fused voltage table V0 of a window's die at a core clock in MHz, in mV (R640). -/
opaque Config.v0 : Nat → Nat → Nat

/-- The fused factory trim of a window's die, in mV (R654). -/
opaque Config.factoryTrim : Nat → Nat

/-- The trim in mV that restores the fused guard at 1.75 GHz, from a die's least monitor slack in ps (R649). -/
opaque Config.trimFor : Nat → Nat → Nat

/-- The CRC-16 of a Shenor flit (R30), whose polynomial the spec does not give: the flit with its CRC bytes zero. -/
opaque Config.flitCrc : List Byte → Nat

/-- The amplitude code at the centre of an eye, lower, middle and upper, the centre phase, and the millivolts at the receiver input
of a number of amplitude codes (R547, R564). -/
opaque Config.eyeCentre : Nat → Nat
opaque Config.centrePhase : Nat
opaque Config.reticleMv : Nat → Nat

/-- The alignment markers of an interface, by port rate in Gb/s, and the codewords between two sets of them: IEEE 802.3 gives
them (R533). -/
opaque Config.alignmentMarkers : Nat → List Bool
opaque Config.markerPeriod : Nat → Nat

end Sys2Proof
end

