-- ==== Sys2Proof/Machine/Store.lean ====
section
/-!
DEFINITION. The sparse store the registers and table entries live in, and the places (fields) in it. Every field of
every register has one home, found by its key; what is stored is the field's difference (bitwise exclusive or) from
its reset value, so that an empty store is the store right after reset and equal stores are equal data.
-/
namespace Sys2Proof

/-- What a key reads as: the listed value, or 0. -/
def SMap.get : SMap → Nat → Nat
  | [], _ => 0
  | (a, v) :: t, k => if a = k then v else SMap.get t k

/-- Remove a key. -/
def SMap.erase : SMap → Nat → SMap
  | [], _ => []
  | (a, v) :: t, k => if a = k then SMap.erase t k else (a, v) :: SMap.erase t k

/-- Put a non-zero value at a key, keeping the keys strictly rising. -/
def SMap.put : SMap → Nat → Nat → SMap
  | [], k, v => [(k, v)]
  | (a, w) :: t, k, v =>
    if k < a then (k, v) :: (a, w) :: t
    else if k = a then (k, v) :: t
    else (a, w) :: SMap.put t k v

/-- Write a value at a key; writing 0 removes the entry. -/
def SMap.set (m : SMap) (k v : Nat) : SMap := if v = 0 then m.erase k else m.put k v

/-- The canonical form: keys strictly rising above `lo`, no value 0. -/
def SMap.wfFrom : Option Nat → SMap → Bool
  | _, [] => true
  | none, (a, v) :: t => (v != 0) && SMap.wfFrom (some a) t
  | some b, (a, v) :: t => decide (b < a) && (v != 0) && SMap.wfFrom (some a) t

/-- The canonical form of a sparse map. -/
def SMap.wf (m : SMap) : Bool := SMap.wfFrom none m

/-- A register field: its page index in its window, its offset in the page, the distance between the registers of an
array, its bits and its reset value. -/
structure Fld where
  page : Nat
  off : Nat
  stride : Nat
  hi : Nat
  lo : Nat
  rst : Nat
  deriving DecidableEq, Repr

/-- The width of a field in bits. -/
def Fld.width (f : Fld) : Nat := f.hi - f.lo + 1

/-- The BAR0 byte address of a register: window 0 is the Meridian die, window d + 1 port die d (R70, R75). -/
def regAddr (w page off : Nat) : Nat := (w * 4096 + page) * 4096 + off

/-- The key of a field: the BAR0 byte address of its register, times 32, plus its lowest bit. `p` counts the pages of
a block that repeats per pipeline, octet or port; `i` the registers of an array. -/
def Fld.key (f : Fld) (w p i : Nat) : Nat := regAddr w (f.page + p) (f.off + f.stride * i) * 32 + f.lo

/-- A field of an indirect-window entry (R95): the window's table number, the field's first bit in the entry, its
width and its reset value. -/
structure TFld where
  tab : Nat
  bit : Nat
  width : Nat
  rst : Nat
  deriving DecidableEq, Repr

/-- The key of an entry field: table, window, repeated page, entry index, first bit. -/
def TFld.key (f : TFld) (w p i : Nat) : Nat :=
  ((((f.tab * 16 + w) * 64 + p) * 16777216 + i) * 512 + f.bit)

/-- The copy of an entry's configuration field that is in force: some writes come into force later. -/
def TFld.eff (f : TFld) : TFld := { f with tab := f.tab + 64 }

/-- The value of a field of `n` bits held at `key` when its reset value is `rst`. -/
def SMap.field (m : SMap) (key rst : Nat) : Nat := (m.get key) ^^^ rst

/-- Write a field of `width` bits (the value modulo its width). -/
def SMap.setField (m : SMap) (key width rst v : Nat) : SMap := m.set key ((v % 2 ^ width) ^^^ rst)

/-- Bits [hi:lo] of a number. -/
def bits (v hi lo : Nat) : Nat := v / 2 ^ lo % 2 ^ (hi - lo + 1)

/-- Bit `i` of a number as 0 or 1. -/
def bit (v i : Nat) : Nat := v / 2 ^ i % 2

/-- A truth value as the bit the registers show. -/
def b2n (b : Bool) : Nat := if b then 1 else 0

end Sys2Proof
end

