-- ==== Sys2Proof/Machine/RegMap.lean ====
section
/-!
DEFINITION. The register map: every register field the spec names, with its page, offset, bits and reset value
(namespace R), and the table of all of them with access type, repetition and the values that are not reserved. A name
starting M_ is the Meridian die's copy of a field that both windows have. Fields whose reset is "per part", "fuse",
"per block" and the like are given their value where they are read or at reset.
-/
namespace Sys2Proof
namespace R

/-- R82: block code, one per prefix, as in R777 -/
def PAGE_ID_BLOCK : Fld := ⟨0x0, 0x0, 0, 31, 16, 0⟩
/-- R82: 0x0 = Meridian; 0x1–0x8 = port die 0–7 -/
def PAGE_ID_WINDOW : Fld := ⟨0x0, 0x0, 0, 15, 12, 0⟩
/-- R82: page index -/
def PAGE_ID_INDEX : Fld := ⟨0x0, 0x0, 0, 11, 0, 0⟩
/-- R82: changes when a field moves or changes meaning -/
def PAGE_VERSION_MAJOR : Fld := ⟨0x0, 0x4, 0, 15, 8, 0⟩
/-- R82: changes when fields are only added -/
def PAGE_VERSION_MINOR : Fld := ⟨0x0, 0x4, 0, 7, 0, 0⟩
/-- R82: 1 = RWD writes on the page are held and not applied; on the change from 1 to 0, all held writes take effect together at the next boundary -/
def PAGE_CTRL_RWD_HOLD : Fld := ⟨0x0, 0x8, 0, 0, 0, 0⟩
/-- R82: master ID of the first error since CFG_ERR and ACC_ERR were last both clear -/
def PAGE_STATUS_ERR_MASTER : Fld := ⟨0x0, 0xc, 0, 31, 28, 0⟩
/-- R82: page offset of that first error -/
def PAGE_STATUS_ERR_OFFSET : Fld := ⟨0x0, 0xc, 0, 27, 16, 0⟩
/-- R82: 1 = an indirect operation on the page is in progress -/
def PAGE_STATUS_BUSY : Fld := ⟨0x0, 0xc, 0, 3, 3, 0⟩
/-- R82: 1 = at least one RWD write waits for its boundary -/
def PAGE_STATUS_RWD_PENDING : Fld := ⟨0x0, 0xc, 0, 2, 2, 0⟩
/-- R82: access error under R71, R86, R92 or the indirect-window rules -/
def PAGE_STATUS_ACC_ERR : Fld := ⟨0x0, 0xc, 0, 1, 1, 0⟩
/-- R82: reserved encoding written, per R25 -/
def PAGE_STATUS_CFG_ERR : Fld := ⟨0x0, 0xc, 0, 0, 0, 0⟩
/-- R82: live state of the page's 32 event sources -/
def EVT_RAW : Fld := ⟨0x0, 0x10, 0, 31, 0, 0⟩
/-- R82: 1 = source may set its EVT_PENDING bit -/
def EVT_ENABLE : Fld := ⟨0x0, 0x14, 0, 31, 0, 0⟩
/-- R82: latched events -/
def EVT_PENDING : Fld := ⟨0x0, 0x18, 0, 31, 0, 0⟩
/-- R82: each 1 sets the EVT_PENDING bit, ignoring EVT_ENABLE -/
def EVT_FORCE : Fld := ⟨0x0, 0x1c, 0, 31, 0, 0⟩
/-- R82: 1 = page has an event-tree source -/
def EVT_ROUTE_HAS_SOURCE : Fld := ⟨0x0, 0x20, 0, 31, 31, 0⟩
/-- R82: event-tree source number -/
def EVT_ROUTE_SOURCE : Fld := ⟨0x0, 0x20, 0, 27, 16, 0⟩
/-- R82: 1 = every setting of a pending bit appends an Almanac record -/
def EVT_ROUTE_LOG : Fld := ⟨0x0, 0x20, 0, 8, 8, 1⟩
/-- R82: tree vector 0–63 -/
def EVT_ROUTE_VECTOR : Fld := ⟨0x0, 0x20, 0, 5, 0, 0⟩
/-- R82: 1 = OWNER names the page's owner; 0 = the page has no owner -/
def PAGE_OWNER_VALID : Fld := ⟨0x0, 0x24, 0, 4, 4, 0⟩
/-- R82: master ID that alone may write 0x100–0xFFF while VALID is 1; 0x6–0x7 reserved -/
def PAGE_OWNER_OWNER : Fld := ⟨0x0, 0x24, 0, 3, 0, 0⟩
/-- R82: leak period 1–65,535 ms; 0 is reserved -/
def PAGE_CE_CFG_LEAK_MS : Fld := ⟨0x0, 0x40, 8, 31, 16, 1000⟩
/-- R82: bucket depth 1–65,535; 0 is reserved -/
def PAGE_CE_CFG_DEPTH : Fld := ⟨0x0, 0x40, 8, 15, 0, 256⟩
/-- R82: memory class, as in "Errors, replay and repair" -/
def PAGE_CE_STAT_CLASS : Fld := ⟨0x0, 0x44, 8, 31, 28, 0⟩
/-- R82: current bucket level -/
def PAGE_CE_STAT_LEVEL : Fld := ⟨0x0, 0x44, 8, 15, 0, 0⟩
/-- R88: 2, 4 or 8 -/
def PAG_PART_PORT_DIES : Fld := ⟨0x0, 0x100, 0, 23, 16, 0⟩
/-- R88: ASCII stepping letter, 0x41 = A -/
def PAG_PART_STEPPING : Fld := ⟨0x0, 0x100, 0, 15, 8, 0⟩
/-- R88: Nymino family code -/
def PAG_PART_FAMILY : Fld := ⟨0x0, 0x100, 0, 7, 0, 78⟩
/-- R88: bit d = 1: port die d fenced per R66 -/
def PAG_DIEMAP_FENCED : Fld := ⟨0x0, 0x104, 0, 15, 8, 0⟩
/-- R88: bit d = 1: port die d populated -/
def PAG_DIEMAP_POPULATED : Fld := ⟨0x0, 0x104, 0, 7, 0, 0⟩
/-- R88: serial number [31:0] -/
def PAG_SERIAL_LO : Fld := ⟨0x0, 0x108, 0, 31, 0, 0⟩
/-- R88: serial number [63:32] -/
def PAG_SERIAL_HI : Fld := ⟨0x0, 0x10c, 0, 31, 0, 0⟩
/-- R88: bits [2c+1:2c] hold the rights of master m (0–5) to class c (0–9) -/
def PAG_ACCESS_MAP_RIGHTS : Fld := ⟨0x0, 0x110, 4, 19, 0, 0⟩
/-- R106: bit b = source 32n + b pending, n = 0–127 -/
def EVT_SRC_PENDING : Fld := ⟨0x1, 0x100, 4, 31, 0, 0⟩
/-- R106: 1 = vector v may send messages, v = 0–63 -/
def EVT_VEC_CFG_EN : Fld := ⟨0x2, 0x100, 4, 31, 31, 0⟩
/-- R106: function whose MSI-X entry v receives the message -/
def EVT_VEC_CFG_PF : Fld := ⟨0x2, 0x100, 4, 29, 28, 0⟩
/-- R106: minimum gap between messages, 0–255 µs -/
def EVT_VEC_CFG_HOLDOFF : Fld := ⟨0x2, 0x100, 4, 23, 16, 0⟩
/-- R106: vectors 0–31 armed -/
def EVT_VEC_ARM_LO : Fld := ⟨0x2, 0x200, 0, 31, 0, 4294967295⟩
/-- R106: vectors 32–63 armed -/
def EVT_VEC_ARM_HI : Fld := ⟨0x2, 0x204, 0, 31, 0, 4294967295⟩
/-- R106: vector has a pending source, vectors 0–31 -/
def EVT_VEC_ACTIVE_LO : Fld := ⟨0x2, 0x208, 0, 31, 0, 0⟩
/-- R106: the same, vectors 32–63 -/
def EVT_VEC_ACTIVE_HI : Fld := ⟨0x2, 0x20c, 0, 31, 0, 0⟩
/-- R114: bit i = lock i held, locks 0–31 -/
def LCK_HELD_LO : Fld := ⟨0x4, 0x200, 0, 31, 0, 0⟩
/-- R114: locks 32–63 -/
def LCK_HELD_HI : Fld := ⟨0x4, 0x204, 0, 31, 0, 0⟩
/-- R114: writing 1 frees lock i, locks 0–31; reads return LCK_HELD_LO; only PF0 and MP: a write from any other master is discarded and sets ACC_ERR, what -/
def LCK_BREAK_LO : Fld := ⟨0x4, 0x208, 0, 31, 0, 0⟩
/-- R114: the same for locks 32–63 -/
def LCK_BREAK_HI : Fld := ⟨0x4, 0x20c, 0, 31, 0, 0⟩
/-- R114: hold alarm, 1–65,535 µs; 0 is reserved -/
def LCK_CFG_HOLD_LIMIT : Fld := ⟨0x4, 0x210, 0, 15, 0, 1000⟩
/-- R192: 1 = both active halves loaded; ports may leave MAC reset -/
def SEQ_STATUS_READY : Fld := ⟨0x8, 0x100, 0, 3, 3, 0⟩
/-- R192: 1 = firmware is writing an inactive half -/
def SEQ_STATUS_LOADING : Fld := ⟨0x8, 0x100, 0, 2, 2, 0⟩
/-- R192: egress epoch bit -/
def SEQ_STATUS_EPOCH_EG : Fld := ⟨0x8, 0x100, 0, 1, 1, 0⟩
/-- R192: ingress epoch bit -/
def SEQ_STATUS_EPOCH_IN : Fld := ⟨0x8, 0x100, 0, 0, 0, 0⟩
/-- R192: packets using the inactive egress half -/
def SEQ_OLD_USE_EGRESS : Fld := ⟨0x8, 0x104, 0, 31, 16, 0⟩
/-- R192: packets using the inactive ingress half, parked and held included -/
def SEQ_OLD_USE_INGRESS : Fld := ⟨0x8, 0x104, 0, 15, 0, 0⟩
/-- R192: 1 = invert the egress epoch under R171; MP only, else discarded with ACC_ERR -/
def SEQ_EPOCH_CMD_FLIP_EG : Fld := ⟨0x8, 0x108, 0, 1, 1, 0⟩
/-- R192: 1 = invert the ingress epoch under R171; MP only, else discarded with ACC_ERR -/
def SEQ_EPOCH_CMD_FLIP_IN : Fld := ⟨0x8, 0x108, 0, 0, 0, 0⟩
/-- R192: pipeline software flags 0–15, for COND 0x20–0x2F and WAITSEL 0x10–0x1F -/
def SEQ_SWFLAG_FLAG : Fld := ⟨0x8, 0x10c, 0, 15, 0, 0⟩
/-- R192: parking entries usable, 0–1,024; 1,025–2,047 are reserved -/
def SEQ_PARK_CFG_ENTRIES : Fld := ⟨0x8, 0x110, 0, 26, 16, 1024⟩
/-- R192: parking pool size in cells, 0–65,536; larger values are reserved -/
def SEQ_PARK_POOL_CELLS : Fld := ⟨0x8, 0x114, 0, 16, 0, 8192⟩
/-- R192: park timeout, 1–1,000,000 µs; 0 and larger values are reserved -/
def SEQ_PARK_TMO_MICROSEC : Fld := ⟨0x8, 0x118, 0, 19, 0, 100⟩
/-- R192: largest number of entries in use since the last read -/
def SEQ_PARK_STAT_PEAK : Fld := ⟨0x8, 0x11c, 0, 26, 16, 0⟩
/-- R192: entries in use now -/
def SEQ_PARK_STAT_USED : Fld := ⟨0x8, 0x11c, 0, 10, 0, 0⟩
/-- R192: pool cells in use now -/
def SEQ_PARK_CELLS_USED : Fld := ⟨0x8, 0x120, 0, 16, 0, 0⟩
/-- R192: cclk with a stage stalled under R160, bits [31:0] -/
def SEQ_STALL_CCLK_LO : Fld := ⟨0x8, 0x128, 0, 31, 0, 0⟩
/-- R192: bits [63:32]; read under R93 -/
def SEQ_STALL_CCLK_HI : Fld := ⟨0x8, 0x12c, 0, 31, 0, 0⟩
/-- R192: park timeouts; saturates at 0xFFFF_FFFF -/
def SEQ_PARK_TMO_CNT : Fld := ⟨0x8, 0x130, 0, 31, 0, 0⟩
/-- R192: packets dropped under R189; saturates -/
def SEQ_UE_DROP_CNT : Fld := ⟨0x8, 0x134, 0, 31, 0, 0⟩
/-- R192: 1 = STAGE and ADDR hold the first uncorrectable word since VALID was cleared -/
def SEQ_UE_LOG_VALID : Fld := ⟨0x8, 0x138, 0, 31, 31, 0⟩
/-- R192: stage 0–17 -/
def SEQ_UE_LOG_STAGE : Fld := ⟨0x8, 0x138, 0, 16, 12, 0⟩
/-- R192: address, epoch bit included -/
def SEQ_UE_LOG_ADDR : Fld := ⟨0x8, 0x138, 0, 11, 0, 0⟩
/-- R192: packets held under R167; saturates -/
def SEQ_ORDER_HOLD_CNT : Fld := ⟨0x8, 0x13c, 0, 31, 0, 0⟩
/-- R246: start state of the egress parse -/
def PRS_CFG_EG_START : Fld := ⟨0x10, 0x100, 0, 31, 24, 0⟩
/-- R246: start lookahead offset of the egress parse -/
def PRS_CFG_EG_LA : Fld := ⟨0x10, 0x100, 0, 21, 16, 0⟩
/-- R246: start state of the ingress parse -/
def PRS_CFG_IN_START : Fld := ⟨0x10, 0x100, 0, 15, 8, 0⟩
/-- R246: start lookahead offset of the ingress parse -/
def PRS_CFG_IN_LA : Fld := ⟨0x10, 0x100, 0, 5, 0, 0⟩
/-- R246: ingress entry offset after a parse error -/
def PRS_ERR_ENTRY_OFFSET : Fld := ⟨0x10, 0x104, 0, 10, 0, 0⟩
/-- R246: parse errors of code e, e = 1–6; saturates -/
def PRS_ERR_CNT : Fld := ⟨0x10, 0x110, 4, 31, 0, 0⟩
/-- R248: operand of the default disposition -/
def HVX_CFG_DEF_OPERAND : Fld := ⟨0x18, 0x100, 0, 31, 16, 0⟩
/-- R248: recirculations allowed, 1–7; 0 is reserved -/
def HVX_CFG_RECIRC_MAX : Fld := ⟨0x18, 0x100, 0, 10, 8, 3⟩
/-- R248: 0x4 = to host; 0x7 = drop; other values reserved -/
def HVX_CFG_DEF_KIND : Fld := ⟨0x18, 0x100, 0, 3, 0, 7⟩
/-- R248: egress queue for TC t, t = 0–7 -/
def HVX_QMAP_Q : Fld := ⟨0x18, 0x104, 0, 31, 0, 1985229328⟩
/-- R248: replays under R241 -/
def HVX_HV_REPLAY_CNT : Fld := ⟨0x18, 0x110, 0, 31, 0, 0⟩
/-- R248: drops under R244 -/
def HVX_HV_DROP_CNT : Fld := ⟨0x18, 0x114, 0, 31, 0, 0⟩
/-- R248: mirror requests ignored under R225 -/
def HVX_MIRROR_OVF_CNT : Fld := ⟨0x18, 0x118, 0, 31, 0, 0⟩
/-- R248: drops under R240 -/
def HVX_RECIRC_DROP_CNT : Fld := ⟨0x18, 0x11c, 0, 31, 0, 0⟩
/-- R248: defaults applied under R227 -/
def HVX_NODISP_CNT : Fld := ⟨0x18, 0x120, 0, 31, 0, 0⟩
/-- R248: drops under R223 -/
def HVX_EDIT_FAIL_CNT : Fld := ⟨0x18, 0x124, 0, 31, 0, 0⟩
/-- R248: groups with PIPES zero -/
def HVX_MCG_EMPTY_CNT : Fld := ⟨0x18, 0x128, 0, 31, 0, 0⟩
/-- R248: drops with reason r, r = 0–15 -/
def HVX_DROP_CNT : Fld := ⟨0x18, 0x140, 4, 31, 0, 0⟩
/-- R248: truncation in 64-byte units; 0 = whole frame -/
def HVX_MIR_A_TRUNC : Fld := ⟨0x18, 0x180, 8, 31, 24, 0⟩
/-- R248: 1 = session s enabled, s = 0–15 -/
def HVX_MIR_A_EN : Fld := ⟨0x18, 0x180, 8, 20, 20, 0⟩
/-- R248: egress queue -/
def HVX_MIR_A_QUEUE : Fld := ⟨0x18, 0x180, 8, 19, 16, 0⟩
/-- R248: destination global port -/
def HVX_MIR_A_PORT : Fld := ⟨0x18, 0x180, 8, 10, 0, 0⟩
/-- R248: egress entry offset of the copy -/
def HVX_MIR_B_EG_ENTRY : Fld := ⟨0x18, 0x184, 8, 10, 0, 0⟩
/-- R300: IPv4 units in use, IPv6 counted as 3 -/
def LPM_OCC_UNITS : Fld := ⟨0x24, 0x100, 0, 17, 0, 0⟩
/-- R300: address bits [32j+31:32j], j = 0–3; IPv4 uses j = 0 -/
def LPM_CMD_ADDR : Fld := ⟨0x24, 0x104, 4, 31, 0, 0⟩
/-- R300: data [31:0] -/
def LPM_CMD_DATA_LO : Fld := ⟨0x24, 0x114, 0, 31, 0, 0⟩
/-- R300: data [63:32] -/
def LPM_CMD_DATA_HI : Fld := ⟨0x24, 0x118, 0, 31, 0, 0⟩
/-- R300: IPv4 VRF; must be 0 for IPv6, else REFUSED -/
def LPM_CMD_VRF : Fld := ⟨0x24, 0x11c, 0, 15, 0, 0⟩
/-- R300: returned in the response -/
def LPM_CMD_OP_TAG : Fld := ⟨0x24, 0x120, 0, 31, 24, 0⟩
/-- R300: prefix length; above 32 for IPv4 or above 128 for IPv6 gives REFUSED -/
def LPM_CMD_OP_LEN : Fld := ⟨0x24, 0x120, 0, 23, 16, 0⟩
/-- R300: 1 = IPv6 -/
def LPM_CMD_OP_V6 : Fld := ⟨0x24, 0x120, 0, 8, 8, 0⟩
/-- R300: 1 = INSERT, replacing the data of an existing prefix; 2 = DELETE; 3 = SEARCH; 4 = LOOKUP; 0, 5–7 reserved -/
def LPM_CMD_OP_OP : Fld := ⟨0x24, 0x120, 0, 2, 0, 0⟩
/-- R300: free queue places -/
def LPM_CMD_QSTAT_FREE : Fld := ⟨0x24, 0x124, 0, 19, 16, 8⟩
/-- R300: responses waiting, 0–8 -/
def LPM_CMD_QSTAT_RSP : Fld := ⟨0x24, 0x124, 0, 3, 0, 0⟩
/-- R300: 1 = discard the head response -/
def LPM_RSP_POP : Fld := ⟨0x24, 0x128, 0, 0, 0, 0⟩
/-- R300: tag of the head response -/
def LPM_RSP_HDR_TAG : Fld := ⟨0x24, 0x12c, 0, 31, 24, 0⟩
/-- R300: codes of R270 -/
def LPM_RSP_HDR_STATUS : Fld := ⟨0x24, 0x12c, 0, 19, 16, 0⟩
/-- R300: matched length for SEARCH or LOOKUP -/
def LPM_RSP_HDR_LEN : Fld := ⟨0x24, 0x12c, 0, 7, 0, 0⟩
/-- R300: data [31:0] -/
def LPM_RSP_DATA_LO : Fld := ⟨0x24, 0x130, 0, 31, 0, 0⟩
/-- R300: data [63:32] -/
def LPM_RSP_DATA_HI : Fld := ⟨0x24, 0x134, 0, 31, 0, 0⟩
/-- R307: container of key bits [223:192]; p = pipeline 0–7, h = 0 ingress, 1 egress -/
def FLT_XSEL_A_SEL2 : Fld := ⟨0x26, 0x100, 8, 17, 12, 0⟩
/-- R307: container of key bits [191:160] -/
def FLT_XSEL_A_SEL1 : Fld := ⟨0x26, 0x100, 8, 11, 6, 0⟩
/-- R307: container of key bits [159:128] -/
def FLT_XSEL_A_SEL0 : Fld := ⟨0x26, 0x100, 8, 5, 0, 0⟩
/-- R307: key bits [319:288] -/
def FLT_XSEL_B_SEL5 : Fld := ⟨0x26, 0x104, 8, 17, 12, 0⟩
/-- R307: key bits [287:256] -/
def FLT_XSEL_B_SEL4 : Fld := ⟨0x26, 0x104, 8, 11, 6, 0⟩
/-- R307: key bits [255:224] -/
def FLT_XSEL_B_SEL3 : Fld := ⟨0x26, 0x104, 8, 5, 0, 0⟩
/-- R307: 1 = background compare runs -/
def FLT_BG_CFG_EN : Fld := ⟨0x26, 0x180, 0, 31, 31, 1⟩
/-- R307: pass period, 100–65,535 µs; 0–99 reserved -/
def FLT_BG_CFG_PERIOD_US : Fld := ⟨0x26, 0x180, 0, 15, 0, 1000⟩
/-- R307: rows rewritten; saturates -/
def FLT_BG_FIX_CNT : Fld := ⟨0x26, 0x188, 0, 31, 0, 0⟩
/-- R307: uncorrectable shadows; saturates -/
def FLT_UE_CNT : Fld := ⟨0x26, 0x18c, 0, 31, 0, 0⟩
/-- R307: 1 = INDEX holds the first such entry since cleared -/
def FLT_UE_LOG_VALID : Fld := ⟨0x26, 0x190, 0, 31, 31, 0⟩
/-- R307: entry index -/
def FLT_UE_LOG_INDEX : Fld := ⟨0x26, 0x190, 0, 13, 0, 0⟩
/-- R307: value bits [32j+31:32j], j = 0–9 -/
def FLT_STAGE_VAL : Fld := ⟨0x26, 0x1a0, 4, 31, 0, 0⟩
/-- R307: mask bits [32j+31:32j] -/
def FLT_STAGE_MASK : Fld := ⟨0x26, 0x1c8, 4, 31, 0, 0⟩
/-- R307: value of the entry last read through FLT_IND -/
def FLT_READ_VAL : Fld := ⟨0x27, 0x100, 4, 31, 0, 0⟩
/-- R307: mask of that entry -/
def FLT_READ_MASK : Fld := ⟨0x27, 0x128, 4, 31, 0, 0⟩
/-- R310: seed of c1; a write while any entry is valid is discarded with ACC_ERR -/
def CAT_CFG_HASH_SEED : Fld := ⟨0x20, 0x100, 0, 31, 16, 23100⟩
/-- R310: 1 = every hit sets the hit bit -/
def CAT_CFG_AGE_ANY : Fld := ⟨0x20, 0x100, 0, 8, 8, 0⟩
/-- R310: 1 = hardware learning allowed on the die -/
def CAT_CFG_LRN_EN : Fld := ⟨0x20, 0x100, 0, 0, 0, 0⟩
/-- R310: learns per µs, 1–50; other values reserved -/
def CAT_LRN_RATE_LIMIT : Fld := ⟨0x20, 0x104, 0, 5, 0, 50⟩
/-- R310: 1 = sweeper runs -/
def CAT_SWEEP_CFG_EN : Fld := ⟨0x20, 0x108, 0, 31, 31, 0⟩
/-- R310: 1–1,000,000 ms; other values reserved; takes effect at the next pass -/
def CAT_SWEEP_CFG_PERIOD_MS : Fld := ⟨0x20, 0x108, 0, 19, 0, 150000⟩
/-- R310: slots in use, stash included -/
def CAT_OCC_SLOTS : Fld := ⟨0x20, 0x10c, 0, 18, 0, 0⟩
/-- R310: 1 = SWEEP_CTRL pause stands -/
def CAT_STATUS_SWEEP_PAUSED : Fld := ⟨0x20, 0x110, 0, 1, 1, 0⟩
/-- R310: 1 = update engine active -/
def CAT_STATUS_UPDATE_BUSY : Fld := ⟨0x20, 0x110, 0, 0, 0, 0⟩
/-- R310: learns completed -/
def CAT_LRN_CNT : Fld := ⟨0x20, 0x120, 0, 31, 0, 0⟩
/-- R310: under R275 -/
def CAT_LRN_DUP_CNT : Fld := ⟨0x20, 0x124, 0, 31, 0, 0⟩
/-- R310: under R276 -/
def CAT_LRN_DROP_CNT : Fld := ⟨0x20, 0x128, 0, 31, 0, 0⟩
/-- R310: under R277 and R278 -/
def CAT_LRN_FULL_CNT : Fld := ⟨0x20, 0x12c, 0, 31, 0, 0⟩
/-- R310: station moves -/
def CAT_MOVE_CNT : Fld := ⟨0x20, 0x130, 0, 31, 0, 0⟩
/-- R310: under R282 -/
def CAT_CONFLICT_CNT : Fld := ⟨0x20, 0x134, 0, 31, 0, 0⟩
/-- R310: under R274 and R283 -/
def CAT_STATIC_VIOL_CNT : Fld := ⟨0x20, 0x138, 0, 31, 0, 0⟩
/-- R310: under R284 -/
def CAT_STALE_DEL_CNT : Fld := ⟨0x20, 0x13c, 0, 31, 0, 0⟩
/-- R310: sweeper removals -/
def CAT_AGE_DEL_CNT : Fld := ⟨0x20, 0x140, 0, 31, 0, 0⟩
/-- R310: under R286 -/
def CAT_TOUCH_DROP_CNT : Fld := ⟨0x20, 0x144, 0, 31, 0, 0⟩
/-- R310: under R281 -/
def CAT_REC_EVICT_CNT : Fld := ⟨0x20, 0x148, 0, 31, 0, 0⟩
/-- R310: moves made -/
def CAT_RELOC_CNT : Fld := ⟨0x20, 0x14c, 0, 31, 0, 0⟩
/-- R310: 1 = pipeline p learns, p = 0–7 -/
def CAT_LRN_CFG_EN : Fld := ⟨0x20, 0x180, 4, 31, 31, 0⟩
/-- R310: source-lookup stage, 0–11; 12–15 reserved -/
def CAT_LRN_CFG_STAGE : Fld := ⟨0x20, 0x180, 4, 27, 24, 0⟩
/-- R310: container of learned data [63:32] -/
def CAT_LRN_CFG_DATA_HI : Fld := ⟨0x20, 0x180, 4, 13, 8, 0⟩
/-- R310: container of learned data [31:0] -/
def CAT_LRN_CFG_DATA_LO : Fld := ⟨0x20, 0x180, 4, 5, 0, 56⟩
/-- R310: data [31:0] bits compared for station moves -/
def CAT_LRN_MASK : Fld := ⟨0x20, 0x1a0, 4, 31, 0, 2047⟩
/-- R311: key bits [32j+31:32j], j = 0–7 -/
def CAT_CMD_KEY : Fld := ⟨0x21, 0x100, 4, 31, 0, 0⟩
/-- R311: key mask for NEXT and FLUSH_BY_PORT -/
def CAT_CMD_KMASK : Fld := ⟨0x21, 0x120, 4, 31, 0, 0⟩
/-- R311: data [31:0] -/
def CAT_CMD_DATA_LO : Fld := ⟨0x21, 0x140, 0, 31, 0, 0⟩
/-- R311: data [63:32] -/
def CAT_CMD_DATA_HI : Fld := ⟨0x21, 0x144, 0, 31, 0, 0⟩
/-- R311: data mask [31:0] for NEXT -/
def CAT_CMD_DMASK_LO : Fld := ⟨0x21, 0x148, 0, 31, 0, 0⟩
/-- R311: data mask [63:32] -/
def CAT_CMD_DMASK_HI : Fld := ⟨0x21, 0x14c, 0, 31, 0, 0⟩
/-- R311: NEXT start index, 0–262,175 -/
def CAT_CMD_CURSOR : Fld := ⟨0x21, 0x150, 0, 18, 0, 0⟩
/-- R311: returned in the response -/
def CAT_CMD_OP_TAG : Fld := ⟨0x21, 0x154, 0, 31, 24, 0⟩
/-- R311: 1 = deep catalogue -/
def CAT_CMD_OP_DEEP : Fld := ⟨0x21, 0x154, 0, 12, 12, 0⟩
/-- R311: 1 = 256-bit key -/
def CAT_CMD_OP_KEY256 : Fld := ⟨0x21, 0x154, 0, 11, 11, 0⟩
/-- R311: 1 = static entry -/
def CAT_CMD_OP_STATIC : Fld := ⟨0x21, 0x154, 0, 10, 10, 0⟩
/-- R311: 1 = INSERT does not replace -/
def CAT_CMD_OP_NO_REPLACE : Fld := ⟨0x21, 0x154, 0, 9, 9, 0⟩
/-- R311: 1 = FLUSH_BY_PORT includes static entries -/
def CAT_CMD_OP_INCL_STATIC : Fld := ⟨0x21, 0x154, 0, 8, 8, 0⟩
/-- R311: codes of R268; 0 and 7–15 reserved -/
def CAT_CMD_OP_OPCODE : Fld := ⟨0x21, 0x154, 0, 3, 0, 0⟩
/-- R311: free queue places -/
def CAT_CMD_STAT_FREE : Fld := ⟨0x21, 0x158, 0, 20, 16, 16⟩
/-- R311: writes discarded under R265; saturates at 255 -/
def CAT_CMD_STAT_OVF_CNT : Fld := ⟨0x21, 0x158, 0, 15, 8, 0⟩
/-- R311: responses waiting, 0–16 -/
def CAT_CMD_STAT_RSP : Fld := ⟨0x21, 0x158, 0, 4, 0, 0⟩
/-- R311: 1 = discard the head response -/
def CAT_RSP_POP : Fld := ⟨0x21, 0x15c, 0, 0, 0, 0⟩
/-- R311: tag -/
def CAT_RSP_HDR_TAG : Fld := ⟨0x21, 0x160, 0, 31, 24, 0⟩
/-- R311: codes of R270 -/
def CAT_RSP_HDR_STATUS : Fld := ⟨0x21, 0x160, 0, 19, 16, 0⟩
/-- R311: home die of the entry returned -/
def CAT_RSP_HDR_HOME : Fld := ⟨0x21, 0x160, 0, 15, 13, 0⟩
/-- R311: static flag -/
def CAT_RSP_HDR_STATIC : Fld := ⟨0x21, 0x160, 0, 12, 12, 0⟩
/-- R311: key width -/
def CAT_RSP_HDR_KEY256 : Fld := ⟨0x21, 0x160, 0, 11, 11, 0⟩
/-- R311: hit bit on the issuing die -/
def CAT_RSP_HDR_HIT : Fld := ⟨0x21, 0x160, 0, 10, 10, 0⟩
/-- R311: key of the entry returned, j = 0–7 -/
def CAT_RSP_KEY : Fld := ⟨0x21, 0x164, 4, 31, 0, 0⟩
/-- R311: data [31:0] -/
def CAT_RSP_DATA_LO : Fld := ⟨0x21, 0x184, 0, 31, 0, 0⟩
/-- R311: data [63:32] -/
def CAT_RSP_DATA_HI : Fld := ⟨0x21, 0x188, 0, 31, 0, 0⟩
/-- R311: new cursor after NEXT -/
def CAT_RSP_CURSOR : Fld := ⟨0x21, 0x18c, 0, 18, 0, 0⟩
/-- R311: entries removed on the issuing die by FLUSH_BY_PORT -/
def CAT_RSP_REMOVED : Fld := ⟨0x21, 0x190, 0, 31, 0, 0⟩
/-- R313: 1 = deep lookups and commands allowed; when 0, a deep lookup returns miss with error -/
def CAT_DEEP_CFG_EN : Fld := ⟨0x23, 0x100, 0, 31, 31, 0⟩
/-- R313: seed for the second line -/
def CAT_DEEP_CFG_SEED : Fld := ⟨0x23, 0x100, 0, 23, 8, 50085⟩
/-- R313: 10–24; other values reserved -/
def CAT_DEEP_CFG_SIZE_LOG2 : Fld := ⟨0x23, 0x100, 0, 4, 0, 10⟩
/-- R313: lookups outstanding, 0–256 -/
def CAT_DEEP_OUT : Fld := ⟨0x23, 0x104, 0, 8, 0, 0⟩
/-- R313: lookups issued; saturates -/
def CAT_DEEP_LOOKUP_CNT : Fld := ⟨0x23, 0x110, 0, 31, 0, 0⟩
/-- R313: hits; saturates -/
def CAT_DEEP_HIT_CNT : Fld := ⟨0x23, 0x114, 0, 31, 0, 0⟩
/-- R313: error returns; saturates -/
def CAT_DEEP_ERR_CNT : Fld := ⟨0x23, 0x118, 0, 31, 0, 0⟩
/-- R313: poisoned returns; saturates -/
def CAT_DEEP_POISON_CNT : Fld := ⟨0x23, 0x11c, 0, 31, 0, 0⟩
/-- R381: headroom pool; R318 applies -/
def BUF_POOL_HDRM_CELLS : Fld := ⟨0x28, 0x100, 0, 19, 0, 65536⟩
/-- R381: shared pool size; bits [31:20] reserved -/
def BUF_POOL_SHARED_CELLS : Fld := ⟨0x28, 0x104, 0, 19, 0, 0⟩
/-- R381: F; bits [31:20] reserved -/
def BUF_POOL_FREE_CELLS : Fld := ⟨0x28, 0x108, 0, 19, 0, 0⟩
/-- R381: headroom cells in use; bits [31:20] reserved -/
def BUF_POOL_HDRM_USED_CELLS : Fld := ⟨0x28, 0x10c, 0, 19, 0, 0⟩
/-- R381: lossy VOQ cap, 256–262,144; other values reserved; bits [31:20] reserved -/
def BUF_VOQ_CAP_CELLS : Fld := ⟨0x28, 0x110, 0, 19, 0, 16384⟩
/-- R381: stop hysteresis in cells -/
def BUF_STOP_CFG_HYST : Fld := ⟨0x28, 0x114, 0, 15, 0, 16⟩
/-- R381: 1 = spill enabled -/
def BUF_SPILL_CFG_EN : Fld := ⟨0x28, 0x118, 0, 31, 31, 0⟩
/-- R381: bulk TC -/
def BUF_SPILL_CFG_TC : Fld := ⟨0x28, 0x118, 0, 26, 24, 0⟩
/-- R381: F below which spill starts -/
def BUF_SPILL_CFG_START_FREE : Fld := ⟨0x28, 0x118, 0, 19, 0, 65536⟩
/-- R381: fetch reserve, 1,024–65,536; other values reserved; bits [31:20] reserved -/
def BUF_SPILL_RSV_FETCH_CELLS : Fld := ⟨0x28, 0x11c, 0, 19, 0, 4096⟩
/-- R381: 1 = watchdog of R335 active -/
def BUF_WDOG_CFG_EN : Fld := ⟨0x28, 0x120, 0, 31, 31, 1⟩
/-- R381: 1–65,535 ms; 0 is reserved -/
def BUF_WDOG_CFG_MS : Fld := ⟨0x28, 0x120, 0, 15, 0, 100⟩
/-- R381: cells of the die now in the spill region, bits [31:0] -/
def BUF_SPILL_CELLS_LO : Fld := ⟨0x28, 0x124, 0, 31, 0, 0⟩
/-- R381: bits [63:32]; read under R93 -/
def BUF_SPILL_CELLS_HI : Fld := ⟨0x28, 0x128, 0, 31, 0, 0⟩
/-- R381: header bit of the IPv6 header in the egress parse -/
def BUF_MARK_CFG_V6_HDR : Fld := ⟨0x28, 0x12c, 0, 12, 8, 3⟩
/-- R381: header bit of the IPv4 header -/
def BUF_MARK_CFG_V4_HDR : Fld := ⟨0x28, 0x12c, 0, 4, 0, 1⟩
/-- R381: landing cells in use; bits [31:14] reserved -/
def BUF_LAND_USED_CELLS : Fld := ⟨0x28, 0x130, 0, 13, 0, 0⟩
/-- R381: headroom overflows, die total -/
def BUF_HDRM_OVF_CNT : Fld := ⟨0x28, 0x140, 0, 31, 0, 0⟩
/-- R381: under R345 -/
def BUF_VOQ_CAP_DROP_CNT : Fld := ⟨0x28, 0x144, 0, 31, 0, 0⟩
/-- R381: under R335 -/
def BUF_WDOG_CNT : Fld := ⟨0x28, 0x148, 0, 31, 0, 0⟩
/-- R381: copies dropped for a cell parity error -/
def BUF_CELL_PAR_DROP_CNT : Fld := ⟨0x28, 0x14c, 0, 31, 0, 0⟩
/-- R388: bit c = TC c is expedited -/
def MER_CFG_EXP_TC : Fld := ⟨0x10, 0x100, 0, 31, 24, 128⟩
/-- R388: 1–15; 0 is reserved -/
def MER_CFG_REPLAY_MAX : Fld := ⟨0x10, 0x100, 0, 19, 16, 4⟩
/-- R388: 500–65,535 ns; lower values are reserved -/
def MER_CFG_ACK_TMO_NS : Fld := ⟨0x10, 0x100, 0, 15, 0, 2000⟩
/-- R388: N: 16, 32 or 64 -/
def MER_ACTIVE_PORTS : Fld := ⟨0x10, 0x104, 0, 6, 0, 64⟩
/-- R388: parcel-time count, bits [31:0] -/
def MER_PTIME_LO : Fld := ⟨0x10, 0x108, 0, 31, 0, 0⟩
/-- R388: bits [63:32]; read under R93 -/
def MER_PTIME_HI : Fld := ⟨0x10, 0x10c, 0, 31, 0, 0⟩
/-- R445: 0 = free run; 1 = PPS and 10 MHz; 2 = PTP; 3 = reserved -/
def STB_CFG_TOD_SRC : Fld := ⟨0x70, 0x100, 0, 29, 28, 0⟩
/-- R445: 0 = time of day; 1 = mains -/
def STB_CFG_CYC_SRC : Fld := ⟨0x70, 0x100, 0, 24, 24, 0⟩
/-- R445: 0 = slew; 1 = realign -/
def STB_CFG_RELOCK : Fld := ⟨0x70, 0x100, 0, 20, 20, 0⟩
/-- R445: 0 = 0.01 Hz; 1 = 0.1 Hz; 2 = 1 Hz; 3 = reserved -/
def STB_CFG_DPLL_BW : Fld := ⟨0x70, 0x100, 0, 19, 18, 1⟩
/-- R445: 1–10,000 ppm; other values reserved -/
def STB_CFG_SLEW_PPM : Fld := ⟨0x70, 0x100, 0, 13, 0, 100⟩
/-- R445: 1,000–1,000,000,000 ns; other values reserved -/
def STB_CYC_LEN_LEN_NS : Fld := ⟨0x70, 0x104, 0, 29, 0, 20000000⟩
/-- R445: 1–65,536; other values reserved -/
def STB_CYC_DIV_D : Fld := ⟨0x70, 0x108, 0, 16, 0, 1⟩
/-- R445: OFS of R395, applied under R405 or R406 -/
def STB_CYC_OFS : Fld := ⟨0x70, 0x10c, 0, 31, 0, 0⟩
/-- R445: mains lock limit, 1–65,535 µs; 0 is reserved -/
def STB_LOCK_CFG_CYC_LOCK_US : Fld := ⟨0x70, 0x110, 0, 31, 16, 50⟩
/-- R445: PPS lock limit, 1–65,535 ns; 0 is reserved -/
def STB_LOCK_CFG_TOD_LOCK_NS : Fld := ⟨0x70, 0x110, 0, 15, 0, 100⟩
/-- R445: 1–65,535 ms; 0 is reserved -/
def STB_SERVO_INTERVAL_MS : Fld := ⟨0x70, 0x114, 0, 15, 0, 1000⟩
/-- R445: signed PPS_IN delay, ns -/
def STB_PPS_COMP : Fld := ⟨0x70, 0x118, 0, 31, 0, 0⟩
/-- R445: 0 = FREE; 1 = ACQUIRING; 2 = LOCKED; 3 = HOLDOVER -/
def STB_STATUS_TOD_STATE : Fld := ⟨0x70, 0x120, 0, 29, 28, 0⟩
/-- R445: encoded as TOD_STATE -/
def STB_STATUS_CYC_STATE : Fld := ⟨0x70, 0x120, 0, 25, 24, 0⟩
/-- R445: 1 = step waits for a boundary -/
def STB_STATUS_STEP_PENDING : Fld := ⟨0x70, 0x120, 0, 16, 16, 0⟩
/-- R445: R404 -/
def STB_MAINS_FREQ_MHZ : Fld := ⟨0x70, 0x124, 0, 16, 0, 0⟩
/-- R445: signed ns, last PPS edge -/
def STB_PHASE_ERR : Fld := ⟨0x70, 0x128, 0, 31, 0, 0⟩
/-- R445: signed ns, last mains edge -/
def STB_CYC_PHASE_ERR : Fld := ⟨0x70, 0x12c, 0, 31, 0, 0⟩
/-- R445: holdover entries; saturates -/
def STB_HOLD_CNT : Fld := ⟨0x70, 0x130, 0, 31, 0, 0⟩
/-- R445: cycle number [31:0] -/
def STB_CYCLE_LO : Fld := ⟨0x70, 0x140, 0, 31, 0, 0⟩
/-- R445: [63:32]; read under R93 -/
def STB_CYCLE_HI : Fld := ⟨0x70, 0x144, 0, 31, 0, 0⟩
/-- R445: φ -/
def STB_CYC_PHASE : Fld := ⟨0x70, 0x148, 0, 31, 0, 0⟩
/-- R445: fraction; latches 0x154–0x15C -/
def STB_TOD_SUBNS : Fld := ⟨0x70, 0x150, 0, 15, 0, 0⟩
/-- R445: nanoseconds -/
def STB_TOD_NS : Fld := ⟨0x70, 0x154, 0, 31, 0, 0⟩
/-- R445: seconds [31:0] -/
def STB_TOD_SEC_LO : Fld := ⟨0x70, 0x158, 0, 31, 0, 0⟩
/-- R445: seconds [47:32] -/
def STB_TOD_SEC_HI : Fld := ⟨0x70, 0x15c, 0, 15, 0, 0⟩
/-- R445: signed, 2^−16 ppb units; takes effect within 1 µs -/
def STB_FREQ_ADJ : Fld := ⟨0x70, 0x160, 0, 31, 0, 0⟩
/-- R445: signed, −999,999,999 to 999,999,999; other values reserved -/
def STB_STEP_NS : Fld := ⟨0x70, 0x164, 0, 31, 0, 0⟩
/-- R445: signed seconds -/
def STB_STEP_SEC : Fld := ⟨0x70, 0x168, 0, 31, 0, 0⟩
/-- R445: 1 = apply under R405; a GO while STEP_PENDING replaces the pending step -/
def STB_STEP_CMD_GO : Fld := ⟨0x70, 0x16c, 0, 0, 0, 0⟩
/-- R446: 1 = follower within ±2 ns of the time base -/
def STB_FOL_STATUS_SYNC : Fld := ⟨0x5c, 0x100, 0, 31, 31, 0⟩
/-- R446: 1 = capture under R409 -/
def STB_ETS_CFG_EN : Fld := ⟨0x5c, 0x104, 0, 31, 31, 0⟩
/-- R446: packet flag that requests capture -/
def STB_ETS_CFG_FLAG : Fld := ⟨0x5c, 0x104, 0, 2, 0, 7⟩
/-- R446: captures discarded; saturates -/
def STB_ETS_STAT_OVF_CNT : Fld := ⟨0x5c, 0x108, 0, 31, 16, 0⟩
/-- R446: FIFO entries, 0–256 -/
def STB_ETS_STAT_COUNT : Fld := ⟨0x5c, 0x108, 0, 8, 0, 0⟩
/-- R446: 1 = discard the head entry -/
def STB_ETS_POP : Fld := ⟨0x5c, 0x10c, 0, 0, 0, 0⟩
/-- R446: global port of the head entry -/
def STB_ETS_HDR_PORT : Fld := ⟨0x5c, 0x110, 0, 26, 16, 0⟩
/-- R446: tag of the head entry -/
def STB_ETS_HDR_TAG : Fld := ⟨0x5c, 0x110, 0, 15, 0, 0⟩
/-- R447: l of the port for the next command -/
def EPH_SWAP_SEL_PORT : Fld := ⟨0x50, 0x100, 0, 4, 0, 0⟩
/-- R447: target cycle number bits [31:0]; 0 = next boundary -/
def EPH_SWAP_AT : Fld := ⟨0x50, 0x104, 0, 31, 0, 0⟩
/-- R447: 1 = validate and arm under R416 -/
def EPH_SWAP_CMD_GO : Fld := ⟨0x50, 0x108, 0, 31, 31, 0⟩
/-- R447: shadow-bank COUNT -/
def EPH_SWAP_CMD_COUNT : Fld := ⟨0x50, 0x108, 0, 8, 0, 0⟩
/-- R447: last command written to the page, for the port it named: 0 = idle; 1 = pending, from GO until validation refuses the swap or the swap takes effe -/
def EPH_SWAP_STAT_STATE : Fld := ⟨0x50, 0x10c, 0, 31, 30, 0⟩
/-- R447: reason of R416; 0 from GO until a refusal -/
def EPH_SWAP_STAT_REASON : Fld := ⟨0x50, 0x10c, 0, 23, 16, 0⟩
/-- R447: offending entry for reasons 2–3; offending queue for reason 4 -/
def EPH_SWAP_STAT_DETAIL : Fld := ⟨0x50, 0x10c, 0, 15, 0, 0⟩
/-- R496: Focus UDP destination port -/
def FOC_CFG_UDP_PORT : Fld := ⟨0x60, 0x100, 0, 31, 16, 6840⟩
/-- R496: 1 = engine accepts contributions; R495 -/
def FOC_CFG_EN : Fld := ⟨0x60, 0x100, 0, 15, 15, 0⟩
/-- R496: container 59 slot holding the Focus header offset -/
def FOC_CFG_HDR_SLOT : Fld := ⟨0x60, 0x100, 0, 11, 10, 2⟩
/-- R496: TC of partial cells -/
def FOC_CFG_PARTIAL_TC : Fld := ⟨0x60, 0x100, 0, 2, 0, 6⟩
/-- R496: stage-0 offset of injected frames -/
def FOC_CFG_RES_RES_ENTRY : Fld := ⟨0x60, 0x104, 0, 10, 0, 0⟩
/-- R496: 1–65,535 µs; 0 is reserved -/
def FOC_PART_CFG_ACK_TMO_US : Fld := ⟨0x60, 0x108, 0, 31, 16, 20⟩
/-- R496: 1–15; 0 is reserved -/
def FOC_PART_CFG_RETRY : Fld := ⟨0x60, 0x108, 0, 3, 0, 4⟩
/-- R496: unreserved 64-byte lines -/
def FOC_ACC_STAT_FREE_LINES : Fld := ⟨0x60, 0x10c, 0, 19, 0, 524288⟩
/-- R496: context number for the next command -/
def FOC_CMD_CTX_CTX : Fld := ⟨0x60, 0x110, 0, 11, 0, 0⟩
/-- R496: returned in FOC_CMD_STAT -/
def FOC_CMD_TAG : Fld := ⟨0x60, 0x114, 0, 31, 24, 0⟩
/-- R496: 1 = CREATE; 2 = DESTROY; 0 and 3 reserved -/
def FOC_CMD_OP : Fld := ⟨0x60, 0x114, 0, 1, 0, 0⟩
/-- R496: 1 = command running -/
def FOC_CMD_STAT_BUSY : Fld := ⟨0x60, 0x118, 0, 31, 31, 0⟩
/-- R496: tag of the last command -/
def FOC_CMD_STAT_TAG : Fld := ⟨0x60, 0x118, 0, 23, 16, 0⟩
/-- R496: 0 = OK; 5 = REFUSED -/
def FOC_CMD_STAT_STATUS : Fld := ⟨0x60, 0x118, 0, 11, 8, 0⟩
/-- R496: reason of R484 -/
def FOC_CMD_STAT_REASON : Fld := ⟨0x60, 0x118, 0, 7, 0, 0⟩
/-- R496: R466 -/
def FOC_BAD_HDR_CNT : Fld := ⟨0x60, 0x120, 0, 31, 0, 0⟩
/-- R496: R466 -/
def FOC_NOCTX_CNT : Fld := ⟨0x60, 0x124, 0, 31, 0, 0⟩
/-- R496: R466 -/
def FOC_NOTMEMBER_CNT : Fld := ⟨0x60, 0x128, 0, 31, 0, 0⟩
/-- R496: R466 -/
def FOC_AHEAD_DROP_CNT : Fld := ⟨0x60, 0x12c, 0, 31, 0, 0⟩
/-- R496: R465 -/
def FOC_PARK_DROP_CNT : Fld := ⟨0x60, 0x130, 0, 31, 0, 0⟩
/-- R496: R478 -/
def FOC_PART_REPLAY_CNT : Fld := ⟨0x60, 0x134, 0, 31, 0, 0⟩
/-- R496: RESULT frames injected -/
def FOC_RES_CNT : Fld := ⟨0x60, 0x138, 0, 31, 0, 0⟩
/-- R496: ERROR frames injected -/
def FOC_ERR_CNT : Fld := ⟨0x60, 0x13c, 0, 31, 0, 0⟩
/-- R496: 1 = first failure or poisoning since cleared -/
def FOC_EVT_LOG_VALID : Fld := ⟨0x60, 0x140, 0, 31, 31, 0⟩
/-- R496: error code -/
def FOC_EVT_LOG_CODE : Fld := ⟨0x60, 0x140, 0, 19, 16, 0⟩
/-- R496: context number -/
def FOC_EVT_LOG_CTX : Fld := ⟨0x60, 0x140, 0, 11, 0, 0⟩
/-- R496: sequencer microcode version -/
def FOC_SEQ_MC_VERSION : Fld := ⟨0x60, 0x180, 0, 31, 16, 0⟩
/-- R496: 1 = microcode loaded -/
def FOC_SEQ_READY : Fld := ⟨0x60, 0x180, 0, 0, 0, 0⟩
/-- R564: 1 = lane-controller microcode running -/
def LAN_OCT_STATUS_MC_READY : Fld := ⟨0x80, 0x100, 0, 31, 31, 0⟩
/-- R564: 1 = octet clock synthesiser locked -/
def LAN_OCT_STATUS_PLL_LOCK : Fld := ⟨0x80, 0x100, 0, 30, 30, 0⟩
/-- R564: 1 = background scans under R548 -/
def LAN_BG_CFG_EN : Fld := ⟨0x80, 0x104, 0, 31, 31, 1⟩
/-- R564: 1–65,535 s; 0 is reserved -/
def LAN_BG_CFG_SCAN_S : Fld := ⟨0x80, 0x104, 0, 15, 0, 600⟩
/-- R564: R532; l = 0–7 -/
def LAN_LANE_CFG_TX_INV : Fld := ⟨0x80, 0x110, 4, 31, 31, 0⟩
/-- R564: R532 -/
def LAN_LANE_CFG_RX_INV : Fld := ⟨0x80, 0x110, 4, 30, 30, 0⟩
/-- R564: 0 = off; 1 = on; 2 = as training requests; 3 = reserved -/
def LAN_LANE_CFG_PRECODE_TX : Fld := ⟨0x80, 0x110, 4, 29, 28, 2⟩
/-- R564: encoded as PRECODE_TX -/
def LAN_LANE_CFG_PRECODE_RX : Fld := ⟨0x80, 0x110, 4, 27, 26, 2⟩
/-- R564: 1 = transmit with LAN_TXEQ even when training runs -/
def LAN_LANE_CFG_TXEQ_MAN : Fld := ⟨0x80, 0x110, 4, 25, 25, 0⟩
/-- R564: signed, in 1/64 of full swing -/
def LAN_TXEQ_PRE2 : Fld := ⟨0x80, 0x130, 4, 31, 24, 0⟩
/-- R564: signed -/
def LAN_TXEQ_PRE1 : Fld := ⟨0x80, 0x130, 4, 23, 16, 252⟩
/-- R564: 0–63 -/
def LAN_TXEQ_MAIN : Fld := ⟨0x80, 0x130, 4, 15, 8, 56⟩
/-- R564: signed; reads return the coefficients in use -/
def LAN_TXEQ_POST1 : Fld := ⟨0x80, 0x130, 4, 7, 0, 252⟩
/-- R564: signal detected -/
def LAN_LANE_STAT_SIGNAL : Fld := ⟨0x80, 0x150, 4, 31, 31, 0⟩
/-- R564: clock recovery locked -/
def LAN_LANE_STAT_CDR_LOCK : Fld := ⟨0x80, 0x150, 4, 30, 30, 0⟩
/-- R564: adaptation converged -/
def LAN_LANE_STAT_ADAPTED : Fld := ⟨0x80, 0x150, 4, 29, 29, 0⟩
/-- R564: transmit precoding active -/
def LAN_LANE_STAT_PRE_TX_ACT : Fld := ⟨0x80, 0x150, 4, 28, 28, 0⟩
/-- R564: receive precoding active -/
def LAN_LANE_STAT_PRE_RX_ACT : Fld := ⟨0x80, 0x150, 4, 27, 27, 0⟩
/-- R564: R555; cleared by substitution -/
def LAN_LANE_STAT_DEGRADED : Fld := ⟨0x80, 0x150, 4, 26, 26, 0⟩
/-- R564: slice in use, 0–263 -/
def LAN_LANE_STAT_SLICE : Fld := ⟨0x80, 0x150, 4, 8, 0, 0⟩
/-- R564: 1 = start a software scan; discarded with ACC_ERR while a software scan runs -/
def LAN_RTC_CMD_GO : Fld := ⟨0x80, 0x170, 0, 31, 31, 0⟩
/-- R564: 1 = end the software scan -/
def LAN_RTC_CMD_ABORT : Fld := ⟨0x80, 0x170, 0, 30, 30, 0⟩
/-- R564: lane of the octet -/
def LAN_RTC_CMD_LANE : Fld := ⟨0x80, 0x170, 0, 18, 16, 0⟩
/-- R564: 2^DWELL UI per point, 10–30; other values reserved -/
def LAN_RTC_CMD_DWELL : Fld := ⟨0x80, 0x170, 0, 12, 8, 20⟩
/-- R564: 0 = summary scan; 1 = full scan -/
def LAN_RTC_CMD_FULL : Fld := ⟨0x80, 0x170, 0, 0, 0, 0⟩
/-- R564: 0 = idle; 1 = running; 2 = done; 3 = aborted -/
def LAN_RTC_STAT_STATE : Fld := ⟨0x80, 0x174, 0, 31, 30, 0⟩
/-- R564: 1 = last scan started by software -/
def LAN_RTC_STAT_SW : Fld := ⟨0x80, 0x174, 0, 29, 29, 0⟩
/-- R564: lane scanned -/
def LAN_RTC_STAT_LANE : Fld := ⟨0x80, 0x174, 0, 18, 16, 0⟩
/-- R564: points completed -/
def LAN_RTC_STAT_POINTS : Fld := ⟨0x80, 0x174, 0, 12, 0, 0⟩
/-- R564: upper eye height, mV at the receiver input -/
def LAN_RTC_EYE_H_H2 : Fld := ⟨0x80, 0x178, 0, 29, 20, 0⟩
/-- R564: middle eye, or the NRZ eye -/
def LAN_RTC_EYE_H_H1 : Fld := ⟨0x80, 0x178, 0, 19, 10, 0⟩
/-- R564: lower eye -/
def LAN_RTC_EYE_H_H0 : Fld := ⟨0x80, 0x178, 0, 9, 0, 0⟩
/-- R564: upper eye width, 1/64 UI -/
def LAN_RTC_EYE_W_W2 : Fld := ⟨0x80, 0x17c, 0, 23, 16, 0⟩
/-- R564: middle eye, or the NRZ eye -/
def LAN_RTC_EYE_W_W1 : Fld := ⟨0x80, 0x17c, 0, 15, 8, 0⟩
/-- R564: lower eye -/
def LAN_RTC_EYE_W_W0 : Fld := ⟨0x80, 0x17c, 0, 7, 0, 0⟩
/-- R564: 1 = request calibration under R552 -/
def LAN_CAL_CMD_GO : Fld := ⟨0x80, 0x180, 0, 31, 31, 0⟩
/-- R564: 0 = lane; 1 = octet -/
def LAN_CAL_CMD_SCOPE : Fld := ⟨0x80, 0x180, 0, 8, 8, 0⟩
/-- R564: lane, for SCOPE 0 -/
def LAN_CAL_CMD_LANE : Fld := ⟨0x80, 0x180, 0, 2, 0, 0⟩
/-- R564: 0 = idle; 1 = running; 2 = ended -/
def LAN_CAL_STAT_STATE : Fld := ⟨0x80, 0x184, 0, 31, 30, 0⟩
/-- R564: codes of the table of R560 -/
def LAN_CAL_STAT_CODE : Fld := ⟨0x80, 0x184, 0, 3, 0, 0⟩
/-- R564: 1 = request substitution under R556 -/
def LAN_SPARE_CMD_GO : Fld := ⟨0x80, 0x188, 0, 31, 31, 0⟩
/-- R564: lane of the octet -/
def LAN_SPARE_CMD_LANE : Fld := ⟨0x80, 0x188, 0, 18, 16, 0⟩
/-- R564: spare k, slice 256 + k -/
def LAN_SPARE_CMD_SPARE : Fld := ⟨0x80, 0x188, 0, 2, 0, 0⟩
/-- R564: 0 = idle; 1 = running; 2 = ended -/
def LAN_SPARE_STAT_STATE : Fld := ⟨0x80, 0x18c, 0, 31, 30, 0⟩
/-- R564: codes of the table of R560 -/
def LAN_SPARE_STAT_CODE : Fld := ⟨0x80, 0x18c, 0, 27, 24, 0⟩
/-- R564: bit k = spare k free; the same on every LAN page of the die -/
def LAN_SPARE_STAT_POOL_FREE : Fld := ⟨0x80, 0x18c, 0, 15, 8, 0⟩
/-- R565: 0 = CR/KR; 1 = chip-to-module, under R526 -/
def PRT_OCT_CFG_MEDIA : Fld := ⟨0xa0, 0x100, 0, 8, 8, 0⟩
/-- R565: at RATE 3: 0 = RS(528,514); 1 = none; 2–3 reserved -/
def PRT_OCT_CFG_FEC25 : Fld := ⟨0xa0, 0x100, 0, 5, 4, 0⟩
/-- R565: R525 -/
def PRT_OCT_CFG_MODE : Fld := ⟨0xa0, 0x100, 0, 3, 2, 3⟩
/-- R565: R525 -/
def PRT_OCT_CFG_RATE : Fld := ⟨0xa0, 0x100, 0, 1, 0, 0⟩
/-- R565: attempt timeout, 100–65,535 ms; other values reserved -/
def PRT_LINK_CFG_ATTEMPT_MS : Fld := ⟨0xa0, 0x104, 0, 31, 16, 3000⟩
/-- R565: 1–65,535 ms; 0 is reserved -/
def PRT_BACKOFF_MAX_MS : Fld := ⟨0xa0, 0x108, 0, 31, 16, 16000⟩
/-- R565: 1–65,535 ms; 0 is reserved -/
def PRT_BACKOFF_BASE_MS : Fld := ⟨0xa0, 0x108, 0, 15, 0, 250⟩
/-- R565: symbols corrected on lane l, l = 0–7; saturating -/
def PRT_FEC_SYM : Fld := ⟨0xa0, 0x110, 4, 31, 0, 0⟩
/-- R603: correctable errors of class c, c = 0–15 -/
def M_RAS_CE_CNT : Fld := ⟨0xc0, 0x100, 4, 31, 0, 0⟩
/-- R603: correctable errors of class c, c = 0–15 -/
def RAS_CE_CNT : Fld := ⟨0xc0, 0x100, 4, 31, 0, 0⟩
/-- R603: uncorrectable errors of class c -/
def M_RAS_UE_CNT : Fld := ⟨0xc0, 0x140, 4, 31, 0, 0⟩
/-- R603: uncorrectable errors of class c -/
def RAS_UE_CNT : Fld := ⟨0xc0, 0x140, 4, 31, 0, 0⟩
/-- R603: replica repairs completed -/
def M_RAS_REPAIR_CNT : Fld := ⟨0xc0, 0x180, 0, 31, 0, 0⟩
/-- R603: replica repairs completed -/
def RAS_REPAIR_CNT : Fld := ⟨0xc0, 0x180, 0, 31, 0, 0⟩
/-- R603: R598 -/
def M_RAS_UNREPAIRED_CNT : Fld := ⟨0xc0, 0x184, 0, 31, 0, 0⟩
/-- R603: R598 -/
def RAS_UNREPAIRED_CNT : Fld := ⟨0xc0, 0x184, 0, 31, 0, 0⟩
/-- R603: R578 -/
def M_RAS_XPORT_DROP_CNT : Fld := ⟨0xc0, 0x188, 0, 31, 0, 0⟩
/-- R603: R578 -/
def RAS_XPORT_DROP_CNT : Fld := ⟨0xc0, 0x188, 0, 31, 0, 0⟩
/-- R603: copies flushed under class 12 -/
def M_RAS_UE_DROP_CNT : Fld := ⟨0xc0, 0x18c, 0, 31, 0, 0⟩
/-- R603: copies flushed under class 12 -/
def RAS_UE_DROP_CNT : Fld := ⟨0xc0, 0x18c, 0, 31, 0, 0⟩
/-- R603: factory repairs on the die -/
def M_RAS_FUSE_STAT_REPAIRS : Fld := ⟨0xc0, 0x190, 0, 15, 0, 0⟩
/-- R603: factory repairs on the die -/
def RAS_FUSE_STAT_REPAIRS : Fld := ⟨0xc0, 0x190, 0, 15, 0, 0⟩
/-- R603: R585 -/
def M_RAS_SOFT_STAT_DIGEST_BAD : Fld := ⟨0xc0, 0x194, 0, 31, 31, 0⟩
/-- R603: R585 -/
def RAS_SOFT_STAT_DIGEST_BAD : Fld := ⟨0xc0, 0x194, 0, 31, 31, 0⟩
/-- R603: entries applied to the die, 0–4,096 -/
def M_RAS_SOFT_STAT_APPLIED : Fld := ⟨0xc0, 0x194, 0, 28, 16, 0⟩
/-- R603: entries applied to the die, 0–4,096 -/
def RAS_SOFT_STAT_APPLIED : Fld := ⟨0xc0, 0x194, 0, 28, 16, 0⟩
/-- R603: entries skipped for the die, 0–4,096 -/
def M_RAS_SOFT_STAT_SKIPPED : Fld := ⟨0xc0, 0x194, 0, 12, 0, 0⟩
/-- R603: entries skipped for the die, 0–4,096 -/
def RAS_SOFT_STAT_SKIPPED : Fld := ⟨0xc0, 0x194, 0, 12, 0, 0⟩
/-- R603: class to scrub -/
def M_RAS_SCRUB_CFG_CLASS : Fld := ⟨0xc1, 0x100, 0, 27, 24, 0⟩
/-- R603: class to scrub -/
def RAS_SCRUB_CFG_CLASS : Fld := ⟨0xc1, 0x100, 0, 27, 24, 0⟩
/-- R603: pipeline 0–7, or octet 0–31 for class 13; ignored otherwise -/
def M_RAS_SCRUB_CFG_INST : Fld := ⟨0xc1, 0x100, 0, 20, 16, 0⟩
/-- R603: pipeline 0–7, or octet 0–31 for class 13; ignored otherwise -/
def RAS_SCRUB_CFG_INST : Fld := ⟨0xc1, 0x100, 0, 20, 16, 0⟩
/-- R603: 0 = report; 1 = correct; 2 = repair from replica; 3 = reserved -/
def M_RAS_SCRUB_CFG_MODE : Fld := ⟨0xc1, 0x100, 0, 1, 0, 0⟩
/-- R603: 0 = report; 1 = correct; 2 = repair from replica; 3 = reserved -/
def RAS_SCRUB_CFG_MODE : Fld := ⟨0xc1, 0x100, 0, 1, 0, 0⟩
/-- R603: first unit -/
def M_RAS_SCRUB_START : Fld := ⟨0xc1, 0x104, 0, 23, 0, 0⟩
/-- R603: first unit -/
def RAS_SCRUB_START : Fld := ⟨0xc1, 0x104, 0, 23, 0, 0⟩
/-- R603: last unit -/
def M_RAS_SCRUB_END : Fld := ⟨0xc1, 0x108, 0, 23, 0, 0⟩
/-- R603: last unit -/
def RAS_SCRUB_END : Fld := ⟨0xc1, 0x108, 0, 23, 0, 0⟩
/-- R603: 1 = start a pass under R590; clears the summary registers -/
def M_RAS_SCRUB_CMD_GO : Fld := ⟨0xc1, 0x10c, 0, 31, 31, 0⟩
/-- R603: 1 = start a pass under R590; clears the summary registers -/
def RAS_SCRUB_CMD_GO : Fld := ⟨0xc1, 0x10c, 0, 31, 31, 0⟩
/-- R603: 1 = end the pass, R594 -/
def M_RAS_SCRUB_CMD_ABORT : Fld := ⟨0xc1, 0x10c, 0, 30, 30, 0⟩
/-- R603: 1 = end the pass, R594 -/
def RAS_SCRUB_CMD_ABORT : Fld := ⟨0xc1, 0x10c, 0, 30, 30, 0⟩
/-- R603: 0 = idle; 1 = running; 2 = done; 3 = refused or ended -/
def M_RAS_SCRUB_STAT_STATE : Fld := ⟨0xc1, 0x110, 0, 31, 30, 0⟩
/-- R603: 0 = idle; 1 = running; 2 = done; 3 = refused or ended -/
def RAS_SCRUB_STAT_STATE : Fld := ⟨0xc1, 0x110, 0, 31, 30, 0⟩
/-- R603: R590, R594 -/
def M_RAS_SCRUB_STAT_REASON : Fld := ⟨0xc1, 0x110, 0, 29, 27, 0⟩
/-- R603: R590, R594 -/
def RAS_SCRUB_STAT_REASON : Fld := ⟨0xc1, 0x110, 0, 29, 27, 0⟩
/-- R603: next unit -/
def M_RAS_SCRUB_STAT_CURSOR : Fld := ⟨0xc1, 0x110, 0, 23, 0, 0⟩
/-- R603: next unit -/
def RAS_SCRUB_STAT_CURSOR : Fld := ⟨0xc1, 0x110, 0, 23, 0, 0⟩
/-- R603: units read -/
def M_RAS_SCRUB_READ : Fld := ⟨0xc1, 0x114, 0, 31, 0, 0⟩
/-- R603: units read -/
def RAS_SCRUB_READ : Fld := ⟨0xc1, 0x114, 0, 31, 0, 0⟩
/-- R603: correctable units -/
def M_RAS_SCRUB_CORRECTED : Fld := ⟨0xc1, 0x118, 0, 31, 0, 0⟩
/-- R603: correctable units -/
def RAS_SCRUB_CORRECTED : Fld := ⟨0xc1, 0x118, 0, 31, 0, 0⟩
/-- R603: uncorrectable units -/
def M_RAS_SCRUB_UNCORR : Fld := ⟨0xc1, 0x11c, 0, 31, 0, 0⟩
/-- R603: uncorrectable units -/
def RAS_SCRUB_UNCORR : Fld := ⟨0xc1, 0x11c, 0, 31, 0, 0⟩
/-- R603: R598 -/
def M_RAS_SCRUB_REPAIRED : Fld := ⟨0xc1, 0x120, 0, 31, 0, 0⟩
/-- R603: R598 -/
def RAS_SCRUB_REPAIRED : Fld := ⟨0xc1, 0x120, 0, 31, 0, 0⟩
/-- R603: 1 = INDEX valid -/
def M_RAS_SCRUB_FIRST_UE_VALID : Fld := ⟨0xc1, 0x124, 0, 31, 31, 0⟩
/-- R603: 1 = INDEX valid -/
def RAS_SCRUB_FIRST_UE_VALID : Fld := ⟨0xc1, 0x124, 0, 31, 31, 0⟩
/-- R603: first uncorrectable unit of the pass -/
def M_RAS_SCRUB_FIRST_UE_INDEX : Fld := ⟨0xc1, 0x124, 0, 23, 0, 0⟩
/-- R603: first uncorrectable unit of the pass -/
def RAS_SCRUB_FIRST_UE_INDEX : Fld := ⟨0xc1, 0x124, 0, 23, 0, 0⟩
/-- R603: laid out as RAS_SCRUB_FIRST_UE; last such unit -/
def M_RAS_SCRUB_LAST_UE : Fld := ⟨0xc1, 0x128, 0, 31, 0, 0⟩
/-- R603: laid out as RAS_SCRUB_FIRST_UE; last such unit -/
def RAS_SCRUB_LAST_UE : Fld := ⟨0xc1, 0x128, 0, 31, 0, 0⟩
/-- R603: macro of the last uncorrectable unit -/
def M_RAS_SCRUB_UE_LOC_MACRO : Fld := ⟨0xc1, 0x12c, 0, 31, 16, 0⟩
/-- R603: macro of the last uncorrectable unit -/
def RAS_SCRUB_UE_LOC_MACRO : Fld := ⟨0xc1, 0x12c, 0, 31, 16, 0⟩
/-- R603: its row -/
def M_RAS_SCRUB_UE_LOC_ROW : Fld := ⟨0xc1, 0x12c, 0, 15, 0, 0⟩
/-- R603: its row -/
def RAS_SCRUB_UE_LOC_ROW : Fld := ⟨0xc1, 0x12c, 0, 15, 0, 0⟩
/-- R603: 1 = request a self-test under R600 -/
def M_RAS_BIST_CMD_GO : Fld := ⟨0xc2, 0x100, 0, 31, 31, 0⟩
/-- R603: 1 = request a self-test under R600 -/
def RAS_BIST_CMD_GO : Fld := ⟨0xc2, 0x100, 0, 31, 31, 0⟩
/-- R603: class -/
def M_RAS_BIST_CMD_CLASS : Fld := ⟨0xc2, 0x100, 0, 27, 24, 0⟩
/-- R603: class -/
def RAS_BIST_CMD_CLASS : Fld := ⟨0xc2, 0x100, 0, 27, 24, 0⟩
/-- R603: as RAS_SCRUB_CFG.INST -/
def M_RAS_BIST_CMD_INST : Fld := ⟨0xc2, 0x100, 0, 20, 16, 0⟩
/-- R603: as RAS_SCRUB_CFG.INST -/
def RAS_BIST_CMD_INST : Fld := ⟨0xc2, 0x100, 0, 20, 16, 0⟩
/-- R603: 0 = idle; 1 = running; 2 = ended -/
def M_RAS_BIST_STAT_STATE : Fld := ⟨0xc2, 0x104, 0, 31, 30, 0⟩
/-- R603: 0 = idle; 1 = running; 2 = ended -/
def RAS_BIST_STAT_STATE : Fld := ⟨0xc2, 0x104, 0, 31, 30, 0⟩
/-- R603: codes of the table of R560 -/
def M_RAS_BIST_STAT_CODE : Fld := ⟨0xc2, 0x104, 0, 27, 24, 0⟩
/-- R603: codes of the table of R560 -/
def RAS_BIST_STAT_CODE : Fld := ⟨0xc2, 0x104, 0, 27, 24, 0⟩
/-- R603: failing rows and columns found -/
def M_RAS_BIST_STAT_FAILS : Fld := ⟨0xc2, 0x104, 0, 15, 0, 0⟩
/-- R603: failing rows and columns found -/
def RAS_BIST_STAT_FAILS : Fld := ⟨0xc2, 0x104, 0, 15, 0, 0⟩
/-- R603: first failing macro -/
def M_RAS_BIST_LOC_MACRO : Fld := ⟨0xc2, 0x108, 0, 31, 16, 0⟩
/-- R603: first failing macro -/
def RAS_BIST_LOC_MACRO : Fld := ⟨0xc2, 0x108, 0, 31, 16, 0⟩
/-- R603: its row; 0xFFFF = a column fault -/
def M_RAS_BIST_LOC_ROW : Fld := ⟨0xc2, 0x108, 0, 15, 0, 0⟩
/-- R603: its row; 0xFFFF = a column fault -/
def RAS_BIST_LOC_ROW : Fld := ⟨0xc2, 0x108, 0, 15, 0, 0⟩
/-- R603: first failing column; 0xFFFF = a row fault -/
def M_RAS_BIST_LOC_COL : Fld := ⟨0xc2, 0x10c, 0, 15, 0, 0⟩
/-- R603: first failing column; 0xFFFF = a row fault -/
def RAS_BIST_LOC_COL : Fld := ⟨0xc2, 0x10c, 0, 15, 0, 0⟩
/-- R604: 1–15; 0 is reserved -/
def M_SHN_CFG_RETRY_MAX : Fld := ⟨0x20, 0x100, 0, 7, 4, 8⟩
/-- R604: 1–15; 0 is reserved -/
def SHN_CFG_RETRY_MAX : Fld := ⟨0x30, 0x100, 0, 7, 4, 8⟩
/-- R604: 0 = down; 1 = training; 2 = up; 3 = failed -/
def M_SHN_STATUS_STATE : Fld := ⟨0x20, 0x104, 0, 31, 30, 0⟩
/-- R604: 0 = down; 1 = training; 2 = up; 3 = failed -/
def SHN_STATUS_STATE : Fld := ⟨0x30, 0x104, 0, 31, 30, 0⟩
/-- R604: flits retried; saturating -/
def M_SHN_RETRY_CNT : Fld := ⟨0x20, 0x108, 0, 31, 0, 0⟩
/-- R604: flits retried; saturating -/
def SHN_RETRY_CNT : Fld := ⟨0x30, 0x108, 0, 31, 0, 0⟩
/-- R604: retrains; saturating -/
def M_SHN_RETRAIN_CNT : Fld := ⟨0x20, 0x10c, 0, 31, 0, 0⟩
/-- R604: retrains; saturating -/
def SHN_RETRAIN_CNT : Fld := ⟨0x30, 0x10c, 0, 31, 0, 0⟩
/-- R604: 1 = request substitution under R587 -/
def M_SHN_SPARE_CMD_GO : Fld := ⟨0x20, 0x110, 0, 31, 31, 0⟩
/-- R604: 1 = request substitution under R587 -/
def SHN_SPARE_CMD_GO : Fld := ⟨0x30, 0x110, 0, 31, 31, 0⟩
/-- R604: bundle 0–4; 5–7 reserved -/
def M_SHN_SPARE_CMD_BUNDLE : Fld := ⟨0x20, 0x110, 0, 18, 16, 0⟩
/-- R604: bundle 0–4; 5–7 reserved -/
def SHN_SPARE_CMD_BUNDLE : Fld := ⟨0x30, 0x110, 0, 18, 16, 0⟩
/-- R604: data wire 0–63 -/
def M_SHN_SPARE_CMD_WIRE : Fld := ⟨0x20, 0x110, 0, 13, 8, 0⟩
/-- R604: data wire 0–63 -/
def SHN_SPARE_CMD_WIRE : Fld := ⟨0x30, 0x110, 0, 13, 8, 0⟩
/-- R604: spare s -/
def M_SHN_SPARE_CMD_SPARE : Fld := ⟨0x20, 0x110, 0, 1, 0, 0⟩
/-- R604: spare s -/
def SHN_SPARE_CMD_SPARE : Fld := ⟨0x30, 0x110, 0, 1, 0, 0⟩
/-- R604: 0 = idle; 1 = running; 2 = ended -/
def M_SHN_SPARE_STAT_STATE : Fld := ⟨0x20, 0x114, 0, 31, 30, 0⟩
/-- R604: 0 = idle; 1 = running; 2 = ended -/
def SHN_SPARE_STAT_STATE : Fld := ⟨0x30, 0x114, 0, 31, 30, 0⟩
/-- R604: R587 -/
def M_SHN_SPARE_STAT_CODE : Fld := ⟨0x20, 0x114, 0, 27, 24, 0⟩
/-- R604: R587 -/
def SHN_SPARE_STAT_CODE : Fld := ⟨0x30, 0x114, 0, 27, 24, 0⟩
/-- R604: bit 4b + s = spare s of bundle b free -/
def M_SHN_SPARE_STAT_FREE : Fld := ⟨0x20, 0x114, 0, 19, 0, 0⟩
/-- R604: bit 4b + s = spare s of bundle b free -/
def SHN_SPARE_STAT_FREE : Fld := ⟨0x30, 0x114, 0, 19, 0, 0⟩
/-- R623: 0 = no device; 1 = training; 2 = enumerating; 3 = up; 4 = lost; 5–7 reserved -/
def CXL_PORT_STATUS_STATE : Fld := ⟨0x91, 0x100, 0, 31, 29, 0⟩
/-- R623: 0 = 32 GT/s; 1 = 64 GT/s -/
def CXL_PORT_STATUS_SPEED : Fld := ⟨0x91, 0x100, 0, 8, 8, 0⟩
/-- R623: lanes: 8 or 16 -/
def CXL_PORT_STATUS_WIDTH : Fld := ⟨0x91, 0x100, 0, 4, 0, 0⟩
/-- R623: volatile capacity in 256 MiB units, 0–4,096 -/
def CXL_PORT_CAP_UNITS : Fld := ⟨0x91, 0x104, 0, 12, 0, 0⟩
/-- R623: 1–255; 0 is reserved -/
def CXL_PORT_CFG_LOSS_TMO : Fld := ⟨0x91, 0x108, 0, 23, 16, 16⟩
/-- R623: 10–65,535 µs; other values reserved -/
def CXL_PORT_CFG_CPL_TMO_US : Fld := ⟨0x91, 0x108, 0, 15, 0, 100⟩
/-- R623: 1 = restart under R615 -/
def CXL_PORT_CMD_RESTART : Fld := ⟨0x91, 0x10c, 0, 31, 31, 0⟩
/-- R623: largest read latency since the last read -/
def CXL_PORT_LAT_MAX_NS : Fld := ⟨0x91, 0x110, 0, 31, 16, 0⟩
/-- R623: mean read latency over the last 1 ms -/
def CXL_PORT_LAT_MEAN_NS : Fld := ⟨0x91, 0x110, 0, 15, 0, 0⟩
/-- R623: R615 -/
def CXL_PORT_CPL_TMO_CNT : Fld := ⟨0x91, 0x120, 0, 31, 0, 0⟩
/-- R623: R615 -/
def CXL_PORT_LOSS_CNT : Fld := ⟨0x91, 0x124, 0, 31, 0, 0⟩
/-- R623: poisoned reads -/
def CXL_PORT_RD_POISON_CNT : Fld := ⟨0x91, 0x128, 0, 31, 0, 0⟩
/-- R623: bytes read, [31:0] -/
def CXL_PORT_RD_BYTES_LO : Fld := ⟨0x91, 0x130, 0, 31, 0, 0⟩
/-- R623: [63:32]; read under R93 -/
def CXL_PORT_RD_BYTES_HI : Fld := ⟨0x91, 0x134, 0, 31, 0, 0⟩
/-- R623: bytes written, [31:0] -/
def CXL_PORT_WR_BYTES_LO : Fld := ⟨0x91, 0x138, 0, 31, 0, 0⟩
/-- R623: [63:32]; read under R93 -/
def CXL_PORT_WR_BYTES_HI : Fld := ⟨0x91, 0x13c, 0, 31, 0, 0⟩
/-- R624: R611, R612 -/
def CXL_REG_EN : Fld := ⟨0x93, 0x100, 32, 31, 31, 0⟩
/-- R624: decoders committed -/
def CXL_REG_COMMITTED : Fld := ⟨0x93, 0x100, 32, 30, 30, 0⟩
/-- R624: 0 = off; 1 = active; 2 = lost; 3 = mirror degraded -/
def CXL_REG_STATE : Fld := ⟨0x93, 0x100, 32, 29, 28, 0⟩
/-- R624: R614; region 0 only -/
def CXL_REG_MIRROR : Fld := ⟨0x93, 0x100, 32, 24, 24, 0⟩
/-- R624: root port -/
def CXL_REG_PORT : Fld := ⟨0x93, 0x100, 32, 16, 16, 0⟩
/-- R624: R609; reads 50 for region 0 -/
def CXL_REG_BUDGET_GBPS : Fld := ⟨0x93, 0x100, 32, 10, 0, 0⟩
/-- R624: 256 MiB units -/
def CXL_REG_DPA_BASE : Fld := ⟨0x93, 0x104, 32, 11, 0, 0⟩
/-- R624: 256 MiB units -/
def CXL_REG_SIZE : Fld := ⟨0x93, 0x108, 32, 12, 0, 0⟩
/-- R624: 0 = wrap; 1 = stop -/
def CXL_PLATE_CFG_STOP : Fld := ⟨0x93, 0x180, 0, 0, 0, 0⟩
/-- R624: next line written -/
def CXL_PLATE_WP : Fld := ⟨0x93, 0x184, 0, 31, 0, 0⟩
/-- R624: oldest line software still needs, for stop mode -/
def CXL_PLATE_RP : Fld := ⟨0x93, 0x188, 0, 31, 0, 0⟩
/-- R624: R617; saturates -/
def CXL_PLATE_DROP_CNT : Fld := ⟨0x93, 0x18c, 0, 31, 0, 0⟩
/-- R624: R616; saturates -/
def CXL_SPILL_POISON_CNT : Fld := ⟨0x93, 0x190, 0, 31, 0, 0⟩
/-- R657: R644 -/
def PMU_GOV_CFG_LOCKSTEP_EN : Fld := ⟨0x80, 0x100, 0, 31, 31, 1⟩
/-- R657: 1 = fixed-frequency mode, R639 -/
def PMU_GOV_CFG_FIXED : Fld := ⟨0x80, 0x100, 0, 30, 30, 0⟩
/-- R657: 0–48; other values reserved -/
def PMU_GOV_CFG_EXT_S : Fld := ⟨0x80, 0x100, 0, 13, 8, 16⟩
/-- R657: 10–10,000 ms; other values reserved -/
def PMU_CAP_SUST_WINDOW_MS : Fld := ⟨0x80, 0x104, 0, 31, 18, 1000⟩
/-- R657: range of R631 -/
def PMU_CAP_SUST_WATTS : Fld := ⟨0x80, 0x104, 0, 12, 0, 3400⟩
/-- R657: range of R631 -/
def PMU_CAP_FAST_WATTS : Fld := ⟨0x80, 0x108, 0, 12, 0, 4250⟩
/-- R657: 100 µs average of package P, W -/
def PMU_PKG_PWR_FAST_W : Fld := ⟨0x80, 0x10c, 0, 31, 16, 0⟩
/-- R657: WINDOW_MS average, W -/
def PMU_PKG_PWR_SUST_W : Fld := ⟨0x80, 0x10c, 0, 15, 0, 0⟩
/-- R657: EXT_THROT_N asserted -/
def PMU_GOV_STATUS_EXT : Fld := ⟨0x80, 0x110, 0, 31, 31, 0⟩
/-- R657: R633 -/
def PMU_GOV_STATUS_SUST_BIND : Fld := ⟨0x80, 0x110, 0, 30, 30, 0⟩
/-- R657: R633 -/
def PMU_GOV_STATUS_FAST_BIND : Fld := ⟨0x80, 0x110, 0, 29, 29, 0⟩
/-- R657: bit d = die d in a lockstep group -/
def PMU_GOV_STATUS_LOCK_DIES : Fld := ⟨0x80, 0x110, 0, 7, 0, 0⟩
/-- R657: weight of die d, 1–255; 0 is reserved -/
def PMU_DIE_WEIGHT : Fld := ⟨0x80, 0x120, 4, 7, 0, 16⟩
/-- R657: allowance in force, W; 0 = none -/
def PMU_DIE_ALLOW : Fld := ⟨0x80, 0x140, 4, 12, 0, 0⟩
/-- R658: R638 -/
def M_PMU_CFG_BOOST_EN : Fld := ⟨0x81, 0x100, 0, 31, 31, 1⟩
/-- R658: R638 -/
def PMU_CFG_BOOST_EN : Fld := ⟨0xc8, 0x100, 0, 31, 31, 1⟩
/-- R658: 10–100 mV; other values reserved -/
def M_PMU_CFG_DROOP_MV : Fld := ⟨0x81, 0x100, 0, 7, 0, 40⟩
/-- R658: 10–100 mV; other values reserved -/
def PMU_CFG_DROOP_MV : Fld := ⟨0xc8, 0x100, 0, 7, 0, 40⟩
/-- R658: applied steps -/
def M_PMU_STATUS_S : Fld := ⟨0x81, 0x104, 0, 31, 26, 0⟩
/-- R658: applied steps -/
def PMU_STATUS_S : Fld := ⟨0xc8, 0x104, 0, 31, 26, 0⟩
/-- R658: boost level -/
def M_PMU_STATUS_B : Fld := ⟨0x81, 0x104, 0, 25, 23, 0⟩
/-- R658: boost level -/
def PMU_STATUS_B : Fld := ⟨0xc8, 0x104, 0, 25, 23, 0⟩
/-- R658: bit r = reason r counting now -/
def M_PMU_STATUS_REASONS : Fld := ⟨0x81, 0x104, 0, 15, 8, 0⟩
/-- R658: bit r = reason r counting now -/
def PMU_STATUS_REASONS : Fld := ⟨0xc8, 0x104, 0, 15, 8, 0⟩
/-- R658: hottest sensor, °C -/
def M_PMU_STATUS_TJ_MAX : Fld := ⟨0x81, 0x104, 0, 7, 0, 0⟩
/-- R658: hottest sensor, °C -/
def PMU_STATUS_TJ_MAX : Fld := ⟨0xc8, 0x104, 0, 7, 0, 0⟩
/-- R658: cclk without stretch, MHz, rounded down -/
def M_PMU_FREQ_MHZ : Fld := ⟨0x81, 0x108, 0, 15, 0, 0⟩
/-- R658: cclk without stretch, MHz, rounded down -/
def PMU_FREQ_MHZ : Fld := ⟨0xc8, 0x108, 0, 15, 0, 0⟩
/-- R658: R631 -/
def M_PMU_ILIM_SRAM_A : Fld := ⟨0x81, 0x10c, 0, 31, 16, 90⟩
/-- R658: R631 -/
def PMU_ILIM_SRAM_A : Fld := ⟨0xc8, 0x10c, 0, 31, 16, 90⟩
/-- R658: R631 -/
def M_PMU_ILIM_CORE_A : Fld := ⟨0x81, 0x10c, 0, 15, 0, 320⟩
/-- R658: R631 -/
def PMU_ILIM_CORE_A : Fld := ⟨0xc8, 0x10c, 0, 15, 0, 320⟩
/-- R658: R634, 10–1,000 A -/
def M_PMU_ILIM_SERDES_A : Fld := ⟨0x81, 0x110, 0, 15, 0, 220⟩
/-- R658: R634, 10–1,000 A -/
def PMU_ILIM_SERDES_A : Fld := ⟨0xc8, 0x110, 0, 15, 0, 220⟩
/-- R658: MEAS in 0.1 W -/
def M_PMU_POWER_MEAS_DW : Fld := ⟨0x81, 0x114, 0, 31, 16, 0⟩
/-- R658: MEAS in 0.1 W -/
def PMU_POWER_MEAS_DW : Fld := ⟨0xc8, 0x114, 0, 31, 16, 0⟩
/-- R658: EST in 0.1 W -/
def M_PMU_POWER_EST_DW : Fld := ⟨0x81, 0x114, 0, 15, 0, 0⟩
/-- R658: EST in 0.1 W -/
def PMU_POWER_EST_DW : Fld := ⟨0xc8, 0x114, 0, 15, 0, 0⟩
/-- R658: R628 -/
def M_PMU_EST_STAT_DISAGREE : Fld := ⟨0x81, 0x118, 0, 31, 31, 0⟩
/-- R658: R628 -/
def PMU_EST_STAT_DISAGREE : Fld := ⟨0xc8, 0x118, 0, 31, 31, 0⟩
/-- R658: R629, this epoch -/
def M_PMU_EST_STAT_IMPLAUSIBLE : Fld := ⟨0x81, 0x118, 0, 30, 30, 0⟩
/-- R658: R629, this epoch -/
def PMU_EST_STAT_IMPLAUSIBLE : Fld := ⟨0xc8, 0x118, 0, 30, 30, 0⟩
/-- R658: saturating -/
def M_PMU_EST_STAT_DISAGREE_CNT : Fld := ⟨0x81, 0x118, 0, 15, 0, 0⟩
/-- R658: saturating -/
def PMU_EST_STAT_DISAGREE_CNT : Fld := ⟨0xc8, 0x118, 0, 15, 0, 0⟩
/-- R658: core setpoint -/
def M_PMU_VOLT_CORE_MV : Fld := ⟨0x81, 0x11c, 0, 31, 16, 850⟩
/-- R658: core setpoint -/
def PMU_VOLT_CORE_MV : Fld := ⟨0xc8, 0x11c, 0, 31, 16, 850⟩
/-- R658: TRIM -/
def M_PMU_VOLT_TRIM_MV : Fld := ⟨0x81, 0x11c, 0, 15, 0, 0⟩
/-- R658: TRIM -/
def PMU_VOLT_TRIM_MV : Fld := ⟨0xc8, 0x11c, 0, 15, 0, 0⟩
/-- R658: accumulator r of R647, bits [31:0] -/
def M_PMU_THR_US_LO : Fld := ⟨0x81, 0x140, 8, 31, 0, 0⟩
/-- R658: accumulator r of R647, bits [31:0] -/
def PMU_THR_US_LO : Fld := ⟨0xc8, 0x140, 8, 31, 0, 0⟩
/-- R658: bits [63:32]; read under R93 -/
def M_PMU_THR_US_HI : Fld := ⟨0x81, 0x144, 8, 31, 0, 0⟩
/-- R658: bits [63:32]; read under R93 -/
def PMU_THR_US_HI : Fld := ⟨0xc8, 0x144, 8, 31, 0, 0⟩
/-- R658: R650, bits [31:0] -/
def M_PMU_AGE_CEIL_US_LO : Fld := ⟨0x81, 0x180, 0, 31, 0, 0⟩
/-- R658: R650, bits [31:0] -/
def PMU_AGE_CEIL_US_LO : Fld := ⟨0xc8, 0x180, 0, 31, 0, 0⟩
/-- R658: bits [63:32] -/
def M_PMU_AGE_CEIL_US_HI : Fld := ⟨0x81, 0x184, 0, 31, 0, 0⟩
/-- R658: bits [63:32] -/
def PMU_AGE_CEIL_US_HI : Fld := ⟨0xc8, 0x184, 0, 31, 0, 0⟩
/-- R659: signed, R650 -/
def M_PMU_AGE_STAT_MARGIN_MV : Fld := ⟨0x82, 0x100, 0, 31, 16, 0⟩
/-- R659: signed, R650 -/
def PMU_AGE_STAT_MARGIN_MV : Fld := ⟨0xc9, 0x100, 0, 31, 16, 0⟩
/-- R659: measurements recorded -/
def M_PMU_AGE_STAT_QUARTERS : Fld := ⟨0x82, 0x100, 0, 15, 0, 0⟩
/-- R659: measurements recorded -/
def PMU_AGE_STAT_QUARTERS : Fld := ⟨0xc9, 0x100, 0, 15, 0, 0⟩
/-- R659: powered hours at the last measurement -/
def M_PMU_AGE_LAST : Fld := ⟨0x82, 0x104, 0, 31, 0, 0⟩
/-- R659: powered hours at the last measurement -/
def PMU_AGE_LAST : Fld := ⟨0xc9, 0x104, 0, 31, 0, 0⟩
/-- R659: write 1 = measure now (R649); reads 0 = idle, 1 = running, 2 = done; 3 is reserved -/
def M_PMU_AGE_CMD : Fld := ⟨0x82, 0x108, 0, 1, 0, 0⟩
/-- R659: write 1 = measure now (R649); reads 0 = idle, 1 = running, 2 = done; 3 is reserved -/
def PMU_AGE_CMD : Fld := ⟨0xc9, 0x108, 0, 1, 0, 0⟩
/-- R659: R652 -/
def M_PMU_LIFE_HOURS : Fld := ⟨0x82, 0x110, 0, 31, 0, 0⟩
/-- R659: R652 -/
def PMU_LIFE_HOURS : Fld := ⟨0xc9, 0x110, 0, 31, 0, 0⟩
/-- R659: R652 -/
def M_PMU_LIFE_TJ_PEAK_EXCEEDED : Fld := ⟨0x82, 0x114, 0, 31, 31, 0⟩
/-- R659: R652 -/
def PMU_LIFE_TJ_PEAK_EXCEEDED : Fld := ⟨0xc9, 0x114, 0, 31, 31, 0⟩
/-- R659: peak Tj, 0.1 °C -/
def M_PMU_LIFE_TJ_MAX_DC : Fld := ⟨0x82, 0x114, 0, 27, 16, 0⟩
/-- R659: peak Tj, 0.1 °C -/
def PMU_LIFE_TJ_MAX_DC : Fld := ⟨0xc9, 0x114, 0, 27, 16, 0⟩
/-- R659: mean Tj, 0.1 °C -/
def M_PMU_LIFE_TJ_AVG_DC : Fld := ⟨0x82, 0x114, 0, 11, 0, 0⟩
/-- R659: mean Tj, 0.1 °C -/
def PMU_LIFE_TJ_AVG_DC : Fld := ⟨0xc9, 0x114, 0, 11, 0, 0⟩
/-- R693: must be 0xA5C3 -/
def PAG_RESET_KEY : Fld := ⟨0x0, 0x200, 0, 31, 16, 0⟩
/-- R693: 1 = MP reset within 10 µs -/
def PAG_RESET_MP : Fld := ⟨0x0, 0x200, 0, 1, 1, 0⟩
/-- R693: 1 = warm reset within 10 µs; takes precedence over MP -/
def PAG_RESET_PART : Fld := ⟨0x0, 0x200, 0, 0, 0, 0⟩
/-- R693: last start-up step completed, 0–14 -/
def PAG_BOOT_PROG_STEP : Fld := ⟨0x0, 0x204, 0, 31, 24, 0⟩
/-- R693: step at which R691 acted; 0 = none -/
def PAG_BOOT_PROG_FAIL_STEP : Fld := ⟨0x0, 0x204, 0, 23, 16, 0⟩
/-- R693: bit d = port die d released from reset -/
def PAG_BOOT_PROG_RELEASED : Fld := ⟨0x0, 0x204, 0, 15, 8, 0⟩
/-- R693: 0 = image A running; 1 = image B -/
def PAG_BOOT_PROG_IMAGE : Fld := ⟨0x0, 0x204, 0, 7, 7, 0⟩
/-- R693: 1 = FATAL_N driven low -/
def PAG_PINS_FATAL : Fld := ⟨0x0, 0x208, 0, 5, 5, 0⟩
/-- R693: 1 = THERM_TRIP_N driven low -/
def PAG_PINS_TRIP : Fld := ⟨0x0, 0x208, 0, 4, 4, 0⟩
/-- R693: 1 = EXT_THROT_N asserted after the filter -/
def PAG_PINS_EXT_THROT : Fld := ⟨0x0, 0x208, 0, 3, 3, 0⟩
/-- R693: 1 = PERST# asserted -/
def PAG_PINS_PERST : Fld := ⟨0x0, 0x208, 0, 2, 2, 0⟩
/-- R693: MAINS_REF level -/
def PAG_PINS_MAINS : Fld := ⟨0x0, 0x208, 0, 1, 1, 0⟩
/-- R693: PPS_IN level -/
def PAG_PINS_PPS : Fld := ⟨0x0, 0x208, 0, 0, 0, 0⟩
/-- R693: last reset of the part: 0 = power-up; 1 = PWR_GOOD loss; 2 = SYS_RST_N; 3 = PAG_RESET.PART; 4 = firmware fatal error; 5 = thermal trip (read at  -/
def PAG_RESET_CAUSE_CAUSE : Fld := ⟨0x0, 0x20c, 0, 7, 0, 0⟩
/-- R729: 1 = debug port disabled for life -/
def SEC_FUSE_DEBUG_OFF : Fld := ⟨0xa0, 0x100, 0, 31, 31, 0⟩
/-- R729: 1 = PAG_ACCESS_MAP in force -/
def SEC_FUSE_MATRIX_LOCK : Fld := ⟨0xa0, 0x100, 0, 30, 30, 0⟩
/-- R729: bit s = owner slot s revoked -/
def SEC_FUSE_OWNER_REVOKED : Fld := ⟨0xa0, 0x100, 0, 23, 20, 0⟩
/-- R729: bit s = owner slot s programmed -/
def SEC_FUSE_OWNER_VALID : Fld := ⟨0xa0, 0x100, 0, 19, 16, 0⟩
/-- R729: bit s = vendor slot s revoked -/
def SEC_FUSE_VENDOR_REVOKED : Fld := ⟨0xa0, 0x100, 0, 11, 8, 0⟩
/-- R729: bit s = vendor slot s programmed -/
def SEC_FUSE_VENDOR_VALID : Fld := ⟨0xa0, 0x100, 0, 3, 0, 0⟩
/-- R729: owner counter, 0–64 -/
def SEC_RB_OWNER_SVN : Fld := ⟨0xa0, 0x104, 0, 22, 16, 0⟩
/-- R729: vendor counter, 0–64 -/
def SEC_RB_VENDOR_SVN : Fld := ⟨0xa0, 0x104, 0, 6, 0, 0⟩
/-- R729: R714 -/
def SEC_STATUS_DEBUG_ACTIVE : Fld := ⟨0xa0, 0x108, 0, 31, 31, 0⟩
/-- R729: selector TRIAL as last read or written -/
def SEC_STATUS_TRIAL : Fld := ⟨0xa0, 0x108, 0, 30, 30, 0⟩
/-- R729: R722 -/
def SEC_STATUS_LOG_TRUNC : Fld := ⟨0xa0, 0x108, 0, 29, 29, 0⟩
/-- R729: R724 -/
def SEC_STATUS_ID_READY : Fld := ⟨0xa0, 0x108, 0, 28, 28, 0⟩
/-- R729: key slot of the running vendor manifest -/
def SEC_STATUS_VENDOR_SLOT : Fld := ⟨0xa0, 0x108, 0, 25, 24, 0⟩
/-- R729: key slot of the owner manifest in use -/
def SEC_STATUS_OWNER_SLOT : Fld := ⟨0xa0, 0x108, 0, 21, 20, 0⟩
/-- R729: 0 = no owner slot valid; 1 = verified; 2 = absent; 3 = refused; other values reserved -/
def SEC_STATUS_OWNER_STATE : Fld := ⟨0xa0, 0x108, 0, 15, 12, 0⟩
/-- R729: code of R705 or R706 -/
def SEC_STATUS_OWNER_REASON : Fld := ⟨0xa0, 0x108, 0, 11, 8, 0⟩
/-- R729: SVN of the owner manifest in use -/
def SEC_RUN_OWNER_SVN : Fld := ⟨0xa0, 0x10c, 0, 22, 16, 0⟩
/-- R729: SVN of the running vendor manifest -/
def SEC_RUN_VENDOR_SVN : Fld := ⟨0xa0, 0x10c, 0, 6, 0, 0⟩
/-- R729: entries extended since the last cold or warm reset -/
def SEC_LOG_COUNT : Fld := ⟨0xa0, 0x110, 0, 31, 0, 0⟩
/-- R729: ACC bytes 4j to 4j + 3, byte 4j in bits [7:0], j = 0–15 -/
def SEC_MEAS_ACC : Fld := ⟨0xa0, 0x140, 4, 31, 0, 0⟩
/-- R729: entry bytes 4j to 4j + 3, j = 0–31; MP only, otherwise discarded with ACC_ERR -/
def SEC_MEAS_EXT : Fld := ⟨0xa0, 0x180, 4, 31, 0, 0⟩
/-- R729: 1 = extend with SEC_MEAS_EXT under R722 within 2 µs; MP only, otherwise discarded with ACC_ERR -/
def SEC_MEAS_CMD_GO : Fld := ⟨0xa0, 0x200, 0, 0, 0, 0⟩
/-- R734: request word j, j = 0–15; writable by the sender only while STATE is IDLE, DONE, ABANDONED or WITHDRAWN; otherwise the write is discarded and AC -/
def MBX_REQ : Fld := ⟨0xb0, 0x100, 4, 31, 0, 0⟩
/-- R734: master ID stamped at GO -/
def MBX_REQ_HDR_SENDER : Fld := ⟨0xb0, 0x140, 0, 31, 28, 0⟩
/-- R734: GO count of the channel, modulo 256 -/
def MBX_REQ_HDR_SEQ : Fld := ⟨0xb0, 0x140, 0, 23, 16, 0⟩
/-- R734: sender: post the request -/
def MBX_CTRL_GO : Fld := ⟨0xb0, 0x144, 0, 31, 31, 0⟩
/-- R734: sender: the reply is consumed; STATE becomes IDLE -/
def MBX_CTRL_RELEASE : Fld := ⟨0xb0, 0x144, 0, 30, 30, 0⟩
/-- R734: MP only: take the posted request, or acknowledge WITHDRAWN -/
def MBX_CTRL_TAKE : Fld := ⟨0xb0, 0x144, 0, 1, 1, 0⟩
/-- R734: MP only: the reply is complete -/
def MBX_CTRL_DONE : Fld := ⟨0xb0, 0x144, 0, 0, 0, 0⟩
/-- R734: 0 = IDLE; 1 = POSTED; 2 = TAKEN; 3 = DONE; 4 = ABANDONED; 5 = WITHDRAWN; 6–7 reserved -/
def MBX_STATUS_STATE : Fld := ⟨0xb0, 0x148, 0, 31, 29, 0⟩
/-- R734: SEQ of the message that STATE describes -/
def MBX_STATUS_SEQ : Fld := ⟨0xb0, 0x148, 0, 23, 16, 0⟩
/-- R734: reply word j, j = 0–15; writable by the MP only while STATE is TAKEN -/
def MBX_RSP : Fld := ⟨0xb0, 0x180, 4, 31, 0, 0⟩
/-- R743: ring address [31:0]; bits [5:0] must be 0 -/
def HQ_BASE_LO : Fld := ⟨0xb0, 0x400, 32, 31, 0, 0⟩
/-- R743: ring address [63:32] -/
def HQ_BASE_HI : Fld := ⟨0xb0, 0x404, 32, 31, 0, 0⟩
/-- R743: 1 = queue active -/
def HQ_CFG_EN : Fld := ⟨0xb0, 0x408, 32, 31, 31, 0⟩
/-- R743: 6–15, giving 64–32,768 descriptors; other values reserved -/
def HQ_CFG_SIZE_LOG2 : Fld := ⟨0xb0, 0x408, 32, 19, 16, 6⟩
/-- R743: receive buffer size, 256–16,384 bytes; other values reserved; ignored for transmit -/
def HQ_CFG_BUF_BYTES : Fld := ⟨0xb0, 0x408, 32, 14, 0, 2048⟩
/-- R743: host producer index; bits [31:16] reserved -/
def HQ_TAIL : Fld := ⟨0xb0, 0x40c, 32, 15, 0, 0⟩
/-- R743: part consumer index; bits [31:16] reserved -/
def HQ_HEAD : Fld := ⟨0xb0, 0x410, 32, 15, 0, 0⟩
/-- R743: receive copies dropped; saturating -/
def HQ_DROP : Fld := ⟨0xb0, 0x414, 32, 31, 0, 0⟩
/-- R749: SEQ of the next record -/
def ALM_NEXT_SEQ : Fld := ⟨0xbd, 0x100, 0, 31, 0, 0⟩
/-- R749: 0 = boot ROM; 1 = firmware running; 2 = recovery; 3 = halted under R720 -/
def MBX_MP_STATUS_STATE : Fld := ⟨0xbd, 0x104, 0, 31, 30, 0⟩
/-- R749: MP resets since the last reset of the part; saturating -/
def MBX_MP_STATUS_RESTARTS : Fld := ⟨0xbd, 0x104, 0, 15, 0, 0⟩
/-- R773: Meridian die only; R760 -/
def CNT_USER_CFG_FUSED_OFF : Fld := ⟨0xc8, 0x100, 0, 31, 31, 0⟩
/-- R773: bit f = PF f may read BAR2; Meridian die only; R760 -/
def CNT_USER_CFG_EN : Fld := ⟨0xc8, 0x100, 0, 3, 0, 0⟩
/-- R773: port die only; R763 -/
def CNT_INVDEST_LO : Fld := ⟨0xcc, 0x110, 0, 31, 0, 0⟩
/-- R773: bits [63:32]; read under R93 -/
def CNT_INVDEST_HI : Fld := ⟨0xcc, 0x114, 0, 31, 0, 0⟩
/-- R773: 1 = counting; n = 0–63 -/
def M_CNT_CFG_EN : Fld := ⟨0xc8, 0x200, 4, 31, 31, 0⟩
/-- R773: 1 = counting; n = 0–63 -/
def CNT_CFG_EN : Fld := ⟨0xcc, 0x200, 4, 31, 31, 0⟩
/-- R773: R754 -/
def M_CNT_CFG_WRAP : Fld := ⟨0xc8, 0x200, 4, 30, 30, 0⟩
/-- R773: R754 -/
def CNT_CFG_WRAP : Fld := ⟨0xcc, 0x200, 4, 30, 30, 0⟩
/-- R773: R753 -/
def M_CNT_CFG_FILTER_EN : Fld := ⟨0xc8, 0x200, 4, 29, 29, 0⟩
/-- R773: R753 -/
def CNT_CFG_FILTER_EN : Fld := ⟨0xcc, 0x200, 4, 29, 29, 0⟩
/-- R773: instance -/
def M_CNT_CFG_FILTER : Fld := ⟨0xc8, 0x200, 4, 28, 24, 0⟩
/-- R773: instance -/
def CNT_CFG_FILTER : Fld := ⟨0xcc, 0x200, 4, 28, 24, 0⟩
/-- R773: 1 = visible on the user page -/
def M_CNT_CFG_USER : Fld := ⟨0xc8, 0x200, 4, 23, 23, 0⟩
/-- R773: 1 = visible on the user page -/
def CNT_CFG_USER : Fld := ⟨0xcc, 0x200, 4, 23, 23, 0⟩
/-- R773: R755 -/
def M_CNT_CFG_EVENT : Fld := ⟨0xc8, 0x200, 4, 15, 0, 0⟩
/-- R773: R755 -/
def CNT_CFG_EVENT : Fld := ⟨0xcc, 0x200, 4, 15, 0, 0⟩
/-- R773: count [31:0] -/
def M_CNT_VAL_LO : Fld := ⟨0xc8, 0x400, 8, 31, 0, 0⟩
/-- R773: count [31:0] -/
def CNT_VAL_LO : Fld := ⟨0xcc, 0x400, 8, 31, 0, 0⟩
/-- R773: count [63:32]; R757 -/
def M_CNT_VAL_HI : Fld := ⟨0xc8, 0x404, 8, 31, 0, 0⟩
/-- R773: count [63:32]; R757 -/
def CNT_VAL_HI : Fld := ⟨0xcc, 0x404, 8, 31, 0, 0⟩
/-- R775: stage-0 offset of collector frames -/
def TRC_CFG_ENTRY : Fld := ⟨0xd0, 0x100, 0, 22, 12, 0⟩
/-- R775: R764 -/
def TRC_CFG_SWITCH_ID : Fld := ⟨0xd0, 0x100, 0, 11, 0, 0⟩
/-- R775: records placed -/
def TRC_INSERT_CNT : Fld := ⟨0xd0, 0x110, 0, 31, 0, 0⟩
/-- R775: R768 -/
def TRC_SKIP_CNT : Fld := ⟨0xd0, 0x114, 0, 31, 0, 0⟩
/-- R775: R771 -/
def TRC_CAP_DROP_CNT : Fld := ⟨0xd0, 0x118, 0, 31, 0, 0⟩
/-- R775: collector frames injected -/
def TRC_COLL_CNT : Fld := ⟨0xd0, 0x11c, 0, 31, 0, 0⟩
/-- R89 -/
def PAG_DIE_CORNER : Fld := ⟨0x0, 0x100, 0, 8, 8, 0⟩
/-- R89 -/
def PAG_DIE_INDEX : Fld := ⟨0x0, 0x100, 0, 2, 0, 0⟩
/-- R111 -/
def LCK_LOCK_HELD : Fld := ⟨0x4, 0x100, 4, 31, 31, 0⟩
/-- R111 -/
def LCK_LOCK_OWNER : Fld := ⟨0x4, 0x100, 4, 3, 0, 0⟩
/-- R451 -/
def POL_CLR_GO : Fld := ⟨0x48, 0x100, 0, 31, 31, 0⟩
/-- R451 -/
def POL_CLR_INDEX : Fld := ⟨0x48, 0x100, 0, 13, 0, 0⟩
/-- R451 -/
def POL_CFG_DROP_REASON : Fld := ⟨0x48, 0x104, 0, 3, 0, 14⟩
/-- R622 -/
def CXL_RD_SEL_REGION : Fld := ⟨0x90, 0x100, 0, 1, 0, 0⟩
/-- R774 -/
def CNT_PSTAT_CLR_GO : Fld := ⟨0xcd, 0x100, 0, 31, 31, 0⟩
/-- R774 -/
def CNT_PSTAT_CLR_PORT : Fld := ⟨0xcd, 0x100, 0, 7, 0, 0⟩
/-- R445 -/
def STB_MAINS_TS : Fld := ⟨0x70, 0x170, 4, 31, 0, 0⟩
/-- R445 -/
def STB_PPS_TS : Fld := ⟨0x70, 0x180, 4, 31, 0, 0⟩
/-- R446 -/
def STB_ETS_TS : Fld := ⟨0x5c, 0x114, 4, 31, 0, 0⟩

end R

/-- The access types of R77. -/
inductive Acc where
  | ro
  | rw
  | w1c
  | w1s
  | wo
  | rc
  | rwd
  | fz
  deriving DecidableEq, Repr

/-- The window a row stands in; `every` is the common header of R82. -/
inductive WinKind where
  | meridian
  | port
  | every
  deriving DecidableEq, Repr

/-- One row of the register map. -/
structure RegRow where
  win : WinKind
  fld : Fld
  /-- How many consecutive pages repeat it (pipelines, octets, ports). -/
  pages : Nat
  /-- How many registers of the array. -/
  count : Nat
  acc : Acc
  /-- The field has commands of its own in the table of commands: a plain register write leaves it alone. -/
  own : Bool
  /-- The encodings that are not reserved. -/
  min : Nat
  max : Nat
  deriving DecidableEq, Repr

/-- Register rows, part 0 (R77, R82 and the block chapters). -/
def regRows0 : List RegRow := [
  ⟨.every, R.PAGE_ID_BLOCK, 1, 1, .ro, false, 0, 65535⟩,
  ⟨.every, R.PAGE_ID_WINDOW, 1, 1, .ro, false, 0, 15⟩,
  ⟨.every, R.PAGE_ID_INDEX, 1, 1, .ro, false, 0, 4095⟩,
  ⟨.every, R.PAGE_VERSION_MAJOR, 1, 1, .ro, false, 0, 255⟩,
  ⟨.every, R.PAGE_VERSION_MINOR, 1, 1, .ro, false, 0, 255⟩,
  ⟨.every, R.PAGE_CTRL_RWD_HOLD, 1, 1, .rw, false, 0, 1⟩,
  ⟨.every, R.PAGE_STATUS_ERR_MASTER, 1, 1, .ro, false, 0, 15⟩,
  ⟨.every, R.PAGE_STATUS_ERR_OFFSET, 1, 1, .ro, false, 0, 4095⟩,
  ⟨.every, R.PAGE_STATUS_BUSY, 1, 1, .ro, false, 0, 1⟩,
  ⟨.every, R.PAGE_STATUS_RWD_PENDING, 1, 1, .ro, false, 0, 1⟩,
  ⟨.every, R.PAGE_STATUS_ACC_ERR, 1, 1, .w1c, false, 0, 1⟩,
  ⟨.every, R.PAGE_STATUS_CFG_ERR, 1, 1, .w1c, false, 0, 1⟩,
  ⟨.every, R.EVT_RAW, 1, 1, .ro, false, 0, 4294967295⟩,
  ⟨.every, R.EVT_ENABLE, 1, 1, .rw, false, 0, 4294967295⟩,
  ⟨.every, R.EVT_PENDING, 1, 1, .w1c, true, 0, 4294967295⟩,
  ⟨.every, R.EVT_FORCE, 1, 1, .wo, true, 0, 4294967295⟩,
  ⟨.every, R.EVT_ROUTE_HAS_SOURCE, 1, 1, .ro, false, 0, 1⟩,
  ⟨.every, R.EVT_ROUTE_SOURCE, 1, 1, .ro, false, 0, 4095⟩,
  ⟨.every, R.EVT_ROUTE_LOG, 1, 1, .rw, false, 0, 1⟩,
  ⟨.every, R.EVT_ROUTE_VECTOR, 1, 1, .rw, false, 0, 63⟩,
  ⟨.every, R.PAGE_OWNER_VALID, 1, 1, .rw, true, 0, 1⟩,
  ⟨.every, R.PAGE_OWNER_OWNER, 1, 1, .rw, true, 0, 15⟩,
  ⟨.every, R.PAGE_CE_CFG_LEAK_MS, 1, 8, .rw, false, 1, 65535⟩,
  ⟨.every, R.PAGE_CE_CFG_DEPTH, 1, 8, .rw, false, 1, 65535⟩,
  ⟨.every, R.PAGE_CE_STAT_CLASS, 1, 8, .ro, false, 0, 15⟩,
  ⟨.every, R.PAGE_CE_STAT_LEVEL, 1, 8, .ro, false, 0, 65535⟩,
  ⟨.meridian, R.PAG_PART_PORT_DIES, 1, 1, .fz, false, 0, 255⟩,
  ⟨.meridian, R.PAG_PART_STEPPING, 1, 1, .fz, false, 0, 255⟩,
  ⟨.meridian, R.PAG_PART_FAMILY, 1, 1, .fz, false, 0, 255⟩,
  ⟨.meridian, R.PAG_DIEMAP_FENCED, 1, 1, .ro, false, 0, 255⟩,
  ⟨.meridian, R.PAG_DIEMAP_POPULATED, 1, 1, .fz, false, 0, 255⟩,
  ⟨.meridian, R.PAG_SERIAL_LO, 1, 1, .fz, false, 0, 4294967295⟩,
  ⟨.meridian, R.PAG_SERIAL_HI, 1, 1, .fz, false, 0, 4294967295⟩,
  ⟨.meridian, R.PAG_ACCESS_MAP_RIGHTS, 1, 6, .fz, false, 0, 1048575⟩,
  ⟨.meridian, R.EVT_SRC_PENDING, 1, 128, .ro, false, 0, 4294967295⟩,
  ⟨.meridian, R.EVT_VEC_CFG_EN, 1, 64, .rw, false, 0, 1⟩,
  ⟨.meridian, R.EVT_VEC_CFG_PF, 1, 64, .rw, false, 0, 3⟩,
  ⟨.meridian, R.EVT_VEC_CFG_HOLDOFF, 1, 64, .rw, false, 0, 255⟩,
  ⟨.meridian, R.EVT_VEC_ARM_LO, 1, 1, .w1s, true, 0, 4294967295⟩,
  ⟨.meridian, R.EVT_VEC_ARM_HI, 1, 1, .w1s, true, 0, 4294967295⟩,
  ⟨.meridian, R.EVT_VEC_ACTIVE_LO, 1, 1, .ro, false, 0, 4294967295⟩,
  ⟨.meridian, R.EVT_VEC_ACTIVE_HI, 1, 1, .ro, false, 0, 4294967295⟩,
  ⟨.meridian, R.LCK_HELD_LO, 1, 1, .ro, false, 0, 4294967295⟩,
  ⟨.meridian, R.LCK_HELD_HI, 1, 1, .ro, false, 0, 4294967295⟩,
  ⟨.meridian, R.LCK_BREAK_LO, 1, 1, .w1c, true, 0, 4294967295⟩,
  ⟨.meridian, R.LCK_BREAK_HI, 1, 1, .w1c, true, 0, 4294967295⟩,
  ⟨.meridian, R.LCK_CFG_HOLD_LIMIT, 1, 1, .rw, true, 1, 65535⟩,
  ⟨.port, R.SEQ_STATUS_READY, 8, 1, .ro, false, 0, 1⟩,
  ⟨.port, R.SEQ_STATUS_LOADING, 8, 1, .ro, false, 0, 1⟩,
  ⟨.port, R.SEQ_STATUS_EPOCH_EG, 8, 1, .ro, false, 0, 1⟩,
  ⟨.port, R.SEQ_STATUS_EPOCH_IN, 8, 1, .ro, false, 0, 1⟩,
  ⟨.port, R.SEQ_OLD_USE_EGRESS, 8, 1, .ro, false, 0, 65535⟩,
  ⟨.port, R.SEQ_OLD_USE_INGRESS, 8, 1, .ro, false, 0, 65535⟩,
  ⟨.port, R.SEQ_EPOCH_CMD_FLIP_EG, 8, 1, .wo, true, 0, 1⟩,
  ⟨.port, R.SEQ_EPOCH_CMD_FLIP_IN, 8, 1, .wo, true, 0, 1⟩,
  ⟨.port, R.SEQ_SWFLAG_FLAG, 8, 1, .rw, false, 0, 65535⟩,
  ⟨.port, R.SEQ_PARK_CFG_ENTRIES, 8, 1, .rw, false, 0, 1024⟩,
  ⟨.port, R.SEQ_PARK_POOL_CELLS, 8, 1, .rw, false, 0, 65536⟩,
  ⟨.port, R.SEQ_PARK_TMO_MICROSEC, 8, 1, .rw, false, 1, 1000000⟩,
  ⟨.port, R.SEQ_PARK_STAT_PEAK, 8, 1, .rc, false, 0, 2047⟩]

/-- Register rows, part 1 (R77, R82 and the block chapters). -/
def regRows1 : List RegRow := [
  ⟨.port, R.SEQ_PARK_STAT_USED, 8, 1, .ro, false, 0, 2047⟩,
  ⟨.port, R.SEQ_PARK_CELLS_USED, 8, 1, .ro, false, 0, 131071⟩,
  ⟨.port, R.SEQ_STALL_CCLK_LO, 8, 1, .ro, false, 0, 4294967295⟩,
  ⟨.port, R.SEQ_STALL_CCLK_HI, 8, 1, .ro, false, 0, 4294967295⟩,
  ⟨.port, R.SEQ_PARK_TMO_CNT, 8, 1, .ro, false, 0, 4294967295⟩,
  ⟨.port, R.SEQ_UE_DROP_CNT, 8, 1, .ro, false, 0, 4294967295⟩,
  ⟨.port, R.SEQ_UE_LOG_VALID, 8, 1, .w1c, false, 0, 1⟩,
  ⟨.port, R.SEQ_UE_LOG_STAGE, 8, 1, .ro, false, 0, 31⟩,
  ⟨.port, R.SEQ_UE_LOG_ADDR, 8, 1, .ro, false, 0, 4095⟩,
  ⟨.port, R.SEQ_ORDER_HOLD_CNT, 8, 1, .ro, false, 0, 4294967295⟩,
  ⟨.port, R.PRS_CFG_EG_START, 8, 1, .rw, false, 0, 255⟩,
  ⟨.port, R.PRS_CFG_EG_LA, 8, 1, .rw, false, 0, 63⟩,
  ⟨.port, R.PRS_CFG_IN_START, 8, 1, .rw, false, 0, 255⟩,
  ⟨.port, R.PRS_CFG_IN_LA, 8, 1, .rw, false, 0, 63⟩,
  ⟨.port, R.PRS_ERR_ENTRY_OFFSET, 8, 1, .rw, false, 0, 2047⟩,
  ⟨.port, R.PRS_ERR_CNT, 8, 6, .ro, false, 0, 4294967295⟩,
  ⟨.port, R.HVX_CFG_DEF_OPERAND, 8, 1, .rw, false, 0, 65535⟩,
  ⟨.port, R.HVX_CFG_RECIRC_MAX, 8, 1, .rw, false, 1, 7⟩,
  ⟨.port, R.HVX_CFG_DEF_KIND, 8, 1, .rw, false, 0, 15⟩,
  ⟨.port, R.HVX_QMAP_Q, 8, 1, .rw, false, 0, 4294967295⟩,
  ⟨.port, R.HVX_HV_REPLAY_CNT, 8, 1, .ro, false, 0, 4294967295⟩,
  ⟨.port, R.HVX_HV_DROP_CNT, 8, 1, .ro, false, 0, 4294967295⟩,
  ⟨.port, R.HVX_MIRROR_OVF_CNT, 8, 1, .ro, false, 0, 4294967295⟩,
  ⟨.port, R.HVX_RECIRC_DROP_CNT, 8, 1, .ro, false, 0, 4294967295⟩,
  ⟨.port, R.HVX_NODISP_CNT, 8, 1, .ro, false, 0, 4294967295⟩,
  ⟨.port, R.HVX_EDIT_FAIL_CNT, 8, 1, .ro, false, 0, 4294967295⟩,
  ⟨.port, R.HVX_MCG_EMPTY_CNT, 8, 1, .ro, false, 0, 4294967295⟩,
  ⟨.port, R.HVX_DROP_CNT, 8, 16, .ro, false, 0, 4294967295⟩,
  ⟨.port, R.HVX_MIR_A_TRUNC, 8, 16, .rw, false, 0, 255⟩,
  ⟨.port, R.HVX_MIR_A_EN, 8, 16, .rw, false, 0, 1⟩,
  ⟨.port, R.HVX_MIR_A_QUEUE, 8, 16, .rw, false, 0, 15⟩,
  ⟨.port, R.HVX_MIR_A_PORT, 8, 16, .rw, false, 0, 2047⟩,
  ⟨.port, R.HVX_MIR_B_EG_ENTRY, 8, 16, .rw, false, 0, 2047⟩,
  ⟨.port, R.LPM_OCC_UNITS, 1, 1, .ro, false, 0, 262143⟩,
  ⟨.port, R.LPM_CMD_ADDR, 1, 4, .rw, false, 0, 4294967295⟩,
  ⟨.port, R.LPM_CMD_DATA_LO, 1, 1, .rw, true, 0, 4294967295⟩,
  ⟨.port, R.LPM_CMD_DATA_HI, 1, 1, .rw, true, 0, 4294967295⟩,
  ⟨.port, R.LPM_CMD_VRF, 1, 1, .rw, false, 0, 65535⟩,
  ⟨.port, R.LPM_CMD_OP_TAG, 1, 1, .wo, true, 0, 255⟩,
  ⟨.port, R.LPM_CMD_OP_LEN, 1, 1, .wo, true, 0, 255⟩,
  ⟨.port, R.LPM_CMD_OP_V6, 1, 1, .wo, true, 0, 1⟩,
  ⟨.port, R.LPM_CMD_OP_OP, 1, 1, .wo, true, 0, 7⟩,
  ⟨.port, R.LPM_CMD_QSTAT_FREE, 1, 1, .ro, false, 0, 15⟩,
  ⟨.port, R.LPM_CMD_QSTAT_RSP, 1, 1, .ro, false, 0, 15⟩,
  ⟨.port, R.LPM_RSP_POP, 1, 1, .wo, true, 0, 1⟩,
  ⟨.port, R.LPM_RSP_HDR_TAG, 1, 1, .ro, false, 0, 255⟩,
  ⟨.port, R.LPM_RSP_HDR_STATUS, 1, 1, .ro, false, 0, 15⟩,
  ⟨.port, R.LPM_RSP_HDR_LEN, 1, 1, .ro, false, 0, 255⟩,
  ⟨.port, R.LPM_RSP_DATA_LO, 1, 1, .ro, false, 0, 4294967295⟩,
  ⟨.port, R.LPM_RSP_DATA_HI, 1, 1, .ro, false, 0, 4294967295⟩,
  ⟨.port, R.FLT_XSEL_A_SEL2, 1, 16, .rw, false, 0, 63⟩,
  ⟨.port, R.FLT_XSEL_A_SEL1, 1, 16, .rw, false, 0, 63⟩,
  ⟨.port, R.FLT_XSEL_A_SEL0, 1, 16, .rw, false, 0, 63⟩,
  ⟨.port, R.FLT_XSEL_B_SEL5, 1, 16, .rw, false, 0, 63⟩,
  ⟨.port, R.FLT_XSEL_B_SEL4, 1, 16, .rw, false, 0, 63⟩,
  ⟨.port, R.FLT_XSEL_B_SEL3, 1, 16, .rw, false, 0, 63⟩,
  ⟨.port, R.FLT_BG_CFG_EN, 1, 1, .rw, false, 0, 1⟩,
  ⟨.port, R.FLT_BG_CFG_PERIOD_US, 1, 1, .rw, false, 100, 65535⟩,
  ⟨.port, R.FLT_BG_FIX_CNT, 1, 1, .ro, false, 0, 4294967295⟩,
  ⟨.port, R.FLT_UE_CNT, 1, 1, .ro, false, 0, 4294967295⟩]

/-- Register rows, part 2 (R77, R82 and the block chapters). -/
def regRows2 : List RegRow := [
  ⟨.port, R.FLT_UE_LOG_VALID, 1, 1, .w1c, false, 0, 1⟩,
  ⟨.port, R.FLT_UE_LOG_INDEX, 1, 1, .ro, false, 0, 16383⟩,
  ⟨.port, R.FLT_STAGE_VAL, 1, 10, .rw, false, 0, 4294967295⟩,
  ⟨.port, R.FLT_STAGE_MASK, 1, 10, .rw, false, 0, 4294967295⟩,
  ⟨.port, R.FLT_READ_VAL, 1, 10, .ro, false, 0, 4294967295⟩,
  ⟨.port, R.FLT_READ_MASK, 1, 10, .ro, false, 0, 4294967295⟩,
  ⟨.port, R.CAT_CFG_HASH_SEED, 1, 1, .rw, false, 0, 65535⟩,
  ⟨.port, R.CAT_CFG_AGE_ANY, 1, 1, .rw, false, 0, 1⟩,
  ⟨.port, R.CAT_CFG_LRN_EN, 1, 1, .rw, false, 0, 1⟩,
  ⟨.port, R.CAT_LRN_RATE_LIMIT, 1, 1, .rw, false, 1, 50⟩,
  ⟨.port, R.CAT_SWEEP_CFG_EN, 1, 1, .rw, false, 0, 1⟩,
  ⟨.port, R.CAT_SWEEP_CFG_PERIOD_MS, 1, 1, .rw, false, 1, 1000000⟩,
  ⟨.port, R.CAT_OCC_SLOTS, 1, 1, .ro, false, 0, 524287⟩,
  ⟨.port, R.CAT_STATUS_SWEEP_PAUSED, 1, 1, .ro, false, 0, 1⟩,
  ⟨.port, R.CAT_STATUS_UPDATE_BUSY, 1, 1, .ro, false, 0, 1⟩,
  ⟨.port, R.CAT_LRN_CNT, 1, 1, .ro, false, 0, 4294967295⟩,
  ⟨.port, R.CAT_LRN_DUP_CNT, 1, 1, .ro, false, 0, 4294967295⟩,
  ⟨.port, R.CAT_LRN_DROP_CNT, 1, 1, .ro, false, 0, 4294967295⟩,
  ⟨.port, R.CAT_LRN_FULL_CNT, 1, 1, .ro, false, 0, 4294967295⟩,
  ⟨.port, R.CAT_MOVE_CNT, 1, 1, .ro, false, 0, 4294967295⟩,
  ⟨.port, R.CAT_CONFLICT_CNT, 1, 1, .ro, false, 0, 4294967295⟩,
  ⟨.port, R.CAT_STATIC_VIOL_CNT, 1, 1, .ro, false, 0, 4294967295⟩,
  ⟨.port, R.CAT_STALE_DEL_CNT, 1, 1, .ro, false, 0, 4294967295⟩,
  ⟨.port, R.CAT_AGE_DEL_CNT, 1, 1, .ro, false, 0, 4294967295⟩,
  ⟨.port, R.CAT_TOUCH_DROP_CNT, 1, 1, .ro, false, 0, 4294967295⟩,
  ⟨.port, R.CAT_REC_EVICT_CNT, 1, 1, .ro, false, 0, 4294967295⟩,
  ⟨.port, R.CAT_RELOC_CNT, 1, 1, .ro, false, 0, 4294967295⟩,
  ⟨.port, R.CAT_LRN_CFG_EN, 1, 8, .rw, false, 0, 1⟩,
  ⟨.port, R.CAT_LRN_CFG_STAGE, 1, 8, .rw, false, 0, 11⟩,
  ⟨.port, R.CAT_LRN_CFG_DATA_HI, 1, 8, .rw, false, 0, 63⟩,
  ⟨.port, R.CAT_LRN_CFG_DATA_LO, 1, 8, .rw, false, 0, 63⟩,
  ⟨.port, R.CAT_LRN_MASK, 1, 8, .rw, false, 0, 4294967295⟩,
  ⟨.port, R.CAT_CMD_KEY, 1, 8, .rw, false, 0, 4294967295⟩,
  ⟨.port, R.CAT_CMD_KMASK, 1, 8, .rw, false, 0, 4294967295⟩,
  ⟨.port, R.CAT_CMD_DATA_LO, 1, 1, .rw, true, 0, 4294967295⟩,
  ⟨.port, R.CAT_CMD_DATA_HI, 1, 1, .rw, true, 0, 4294967295⟩,
  ⟨.port, R.CAT_CMD_DMASK_LO, 1, 1, .rw, true, 0, 4294967295⟩,
  ⟨.port, R.CAT_CMD_DMASK_HI, 1, 1, .rw, true, 0, 4294967295⟩,
  ⟨.port, R.CAT_CMD_CURSOR, 1, 1, .rw, false, 0, 524287⟩,
  ⟨.port, R.CAT_CMD_OP_TAG, 1, 1, .wo, true, 0, 255⟩,
  ⟨.port, R.CAT_CMD_OP_DEEP, 1, 1, .wo, true, 0, 1⟩,
  ⟨.port, R.CAT_CMD_OP_KEY256, 1, 1, .wo, true, 0, 1⟩,
  ⟨.port, R.CAT_CMD_OP_STATIC, 1, 1, .wo, true, 0, 1⟩,
  ⟨.port, R.CAT_CMD_OP_NO_REPLACE, 1, 1, .wo, true, 0, 1⟩,
  ⟨.port, R.CAT_CMD_OP_INCL_STATIC, 1, 1, .wo, true, 0, 1⟩,
  ⟨.port, R.CAT_CMD_OP_OPCODE, 1, 1, .wo, true, 0, 15⟩,
  ⟨.port, R.CAT_CMD_STAT_FREE, 1, 1, .ro, false, 0, 31⟩,
  ⟨.port, R.CAT_CMD_STAT_OVF_CNT, 1, 1, .ro, false, 0, 255⟩,
  ⟨.port, R.CAT_CMD_STAT_RSP, 1, 1, .ro, false, 0, 31⟩,
  ⟨.port, R.CAT_RSP_POP, 1, 1, .wo, true, 0, 1⟩,
  ⟨.port, R.CAT_RSP_HDR_TAG, 1, 1, .ro, false, 0, 255⟩,
  ⟨.port, R.CAT_RSP_HDR_STATUS, 1, 1, .ro, false, 0, 15⟩,
  ⟨.port, R.CAT_RSP_HDR_HOME, 1, 1, .ro, false, 0, 7⟩,
  ⟨.port, R.CAT_RSP_HDR_STATIC, 1, 1, .ro, false, 0, 1⟩,
  ⟨.port, R.CAT_RSP_HDR_KEY256, 1, 1, .ro, false, 0, 1⟩,
  ⟨.port, R.CAT_RSP_HDR_HIT, 1, 1, .ro, false, 0, 1⟩,
  ⟨.port, R.CAT_RSP_KEY, 1, 8, .ro, false, 0, 4294967295⟩,
  ⟨.port, R.CAT_RSP_DATA_LO, 1, 1, .ro, false, 0, 4294967295⟩,
  ⟨.port, R.CAT_RSP_DATA_HI, 1, 1, .ro, false, 0, 4294967295⟩,
  ⟨.port, R.CAT_RSP_CURSOR, 1, 1, .ro, false, 0, 524287⟩]

/-- Register rows, part 3 (R77, R82 and the block chapters). -/
def regRows3 : List RegRow := [
  ⟨.port, R.CAT_RSP_REMOVED, 1, 1, .ro, false, 0, 4294967295⟩,
  ⟨.port, R.CAT_DEEP_CFG_EN, 1, 1, .rw, true, 0, 1⟩,
  ⟨.port, R.CAT_DEEP_CFG_SEED, 1, 1, .rw, true, 0, 65535⟩,
  ⟨.port, R.CAT_DEEP_CFG_SIZE_LOG2, 1, 1, .rw, true, 10, 24⟩,
  ⟨.port, R.CAT_DEEP_OUT, 1, 1, .ro, false, 0, 511⟩,
  ⟨.port, R.CAT_DEEP_LOOKUP_CNT, 1, 1, .ro, false, 0, 4294967295⟩,
  ⟨.port, R.CAT_DEEP_HIT_CNT, 1, 1, .ro, false, 0, 4294967295⟩,
  ⟨.port, R.CAT_DEEP_ERR_CNT, 1, 1, .ro, false, 0, 4294967295⟩,
  ⟨.port, R.CAT_DEEP_POISON_CNT, 1, 1, .ro, false, 0, 4294967295⟩,
  ⟨.port, R.BUF_POOL_HDRM_CELLS, 1, 1, .rw, false, 0, 1048575⟩,
  ⟨.port, R.BUF_POOL_SHARED_CELLS, 1, 1, .ro, false, 0, 1048575⟩,
  ⟨.port, R.BUF_POOL_FREE_CELLS, 1, 1, .ro, false, 0, 1048575⟩,
  ⟨.port, R.BUF_POOL_HDRM_USED_CELLS, 1, 1, .ro, false, 0, 1048575⟩,
  ⟨.port, R.BUF_VOQ_CAP_CELLS, 1, 1, .rw, false, 256, 262144⟩,
  ⟨.port, R.BUF_STOP_CFG_HYST, 1, 1, .rw, false, 0, 65535⟩,
  ⟨.port, R.BUF_SPILL_CFG_EN, 1, 1, .rw, false, 0, 1⟩,
  ⟨.port, R.BUF_SPILL_CFG_TC, 1, 1, .rw, false, 0, 7⟩,
  ⟨.port, R.BUF_SPILL_CFG_START_FREE, 1, 1, .rw, false, 0, 1048575⟩,
  ⟨.port, R.BUF_SPILL_RSV_FETCH_CELLS, 1, 1, .rw, false, 1024, 65536⟩,
  ⟨.port, R.BUF_WDOG_CFG_EN, 1, 1, .rw, false, 0, 1⟩,
  ⟨.port, R.BUF_WDOG_CFG_MS, 1, 1, .rw, false, 1, 65535⟩,
  ⟨.port, R.BUF_SPILL_CELLS_LO, 1, 1, .ro, false, 0, 4294967295⟩,
  ⟨.port, R.BUF_SPILL_CELLS_HI, 1, 1, .ro, false, 0, 4294967295⟩,
  ⟨.port, R.BUF_MARK_CFG_V6_HDR, 1, 1, .rw, false, 0, 31⟩,
  ⟨.port, R.BUF_MARK_CFG_V4_HDR, 1, 1, .rw, false, 0, 31⟩,
  ⟨.port, R.BUF_LAND_USED_CELLS, 1, 1, .ro, false, 0, 16383⟩,
  ⟨.port, R.BUF_HDRM_OVF_CNT, 1, 1, .ro, false, 0, 4294967295⟩,
  ⟨.port, R.BUF_VOQ_CAP_DROP_CNT, 1, 1, .ro, false, 0, 4294967295⟩,
  ⟨.port, R.BUF_WDOG_CNT, 1, 1, .ro, false, 0, 4294967295⟩,
  ⟨.port, R.BUF_CELL_PAR_DROP_CNT, 1, 1, .ro, false, 0, 4294967295⟩,
  ⟨.meridian, R.MER_CFG_EXP_TC, 1, 1, .rw, false, 0, 255⟩,
  ⟨.meridian, R.MER_CFG_REPLAY_MAX, 1, 1, .rw, false, 1, 15⟩,
  ⟨.meridian, R.MER_CFG_ACK_TMO_NS, 1, 1, .rw, false, 500, 65535⟩,
  ⟨.meridian, R.MER_ACTIVE_PORTS, 1, 1, .ro, false, 0, 127⟩,
  ⟨.meridian, R.MER_PTIME_LO, 1, 1, .ro, false, 0, 4294967295⟩,
  ⟨.meridian, R.MER_PTIME_HI, 1, 1, .ro, false, 0, 4294967295⟩,
  ⟨.meridian, R.STB_CFG_TOD_SRC, 1, 1, .rw, true, 0, 2⟩,
  ⟨.meridian, R.STB_CFG_CYC_SRC, 1, 1, .rw, true, 0, 1⟩,
  ⟨.meridian, R.STB_CFG_RELOCK, 1, 1, .rw, false, 0, 1⟩,
  ⟨.meridian, R.STB_CFG_DPLL_BW, 1, 1, .rw, false, 0, 2⟩,
  ⟨.meridian, R.STB_CFG_SLEW_PPM, 1, 1, .rw, false, 1, 10000⟩,
  ⟨.meridian, R.STB_CYC_LEN_LEN_NS, 1, 1, .rwd, false, 1000, 1000000000⟩,
  ⟨.meridian, R.STB_CYC_DIV_D, 1, 1, .rwd, false, 1, 65536⟩,
  ⟨.meridian, R.STB_CYC_OFS, 1, 1, .rwd, false, 0, 4294967295⟩,
  ⟨.meridian, R.STB_LOCK_CFG_CYC_LOCK_US, 1, 1, .rw, false, 1, 65535⟩,
  ⟨.meridian, R.STB_LOCK_CFG_TOD_LOCK_NS, 1, 1, .rw, false, 1, 65535⟩,
  ⟨.meridian, R.STB_SERVO_INTERVAL_MS, 1, 1, .rw, false, 1, 65535⟩,
  ⟨.meridian, R.STB_PPS_COMP, 1, 1, .rw, false, 0, 4294967295⟩,
  ⟨.meridian, R.STB_STATUS_TOD_STATE, 1, 1, .ro, false, 0, 3⟩,
  ⟨.meridian, R.STB_STATUS_CYC_STATE, 1, 1, .ro, false, 0, 3⟩,
  ⟨.meridian, R.STB_STATUS_STEP_PENDING, 1, 1, .ro, false, 0, 1⟩,
  ⟨.meridian, R.STB_MAINS_FREQ_MHZ, 1, 1, .ro, false, 0, 131071⟩,
  ⟨.meridian, R.STB_PHASE_ERR, 1, 1, .ro, false, 0, 4294967295⟩,
  ⟨.meridian, R.STB_CYC_PHASE_ERR, 1, 1, .ro, false, 0, 4294967295⟩,
  ⟨.meridian, R.STB_HOLD_CNT, 1, 1, .ro, false, 0, 4294967295⟩,
  ⟨.meridian, R.STB_CYCLE_LO, 1, 1, .ro, false, 0, 4294967295⟩,
  ⟨.meridian, R.STB_CYCLE_HI, 1, 1, .ro, false, 0, 4294967295⟩,
  ⟨.meridian, R.STB_CYC_PHASE, 1, 1, .ro, false, 0, 4294967295⟩,
  ⟨.meridian, R.STB_TOD_SUBNS, 1, 1, .ro, false, 0, 65535⟩,
  ⟨.meridian, R.STB_TOD_NS, 1, 1, .ro, false, 0, 4294967295⟩]

/-- Register rows, part 4 (R77, R82 and the block chapters). -/
def regRows4 : List RegRow := [
  ⟨.meridian, R.STB_TOD_SEC_LO, 1, 1, .ro, false, 0, 4294967295⟩,
  ⟨.meridian, R.STB_TOD_SEC_HI, 1, 1, .ro, false, 0, 65535⟩,
  ⟨.meridian, R.STB_FREQ_ADJ, 1, 1, .rw, true, 0, 4294967295⟩,
  ⟨.meridian, R.STB_STEP_NS, 1, 1, .rw, false, 0, 4294967295⟩,
  ⟨.meridian, R.STB_STEP_SEC, 1, 1, .rw, false, 0, 4294967295⟩,
  ⟨.meridian, R.STB_STEP_CMD_GO, 1, 1, .wo, true, 0, 1⟩,
  ⟨.port, R.STB_FOL_STATUS_SYNC, 1, 1, .ro, false, 0, 1⟩,
  ⟨.port, R.STB_ETS_CFG_EN, 1, 1, .rw, false, 0, 1⟩,
  ⟨.port, R.STB_ETS_CFG_FLAG, 1, 1, .rw, false, 0, 7⟩,
  ⟨.port, R.STB_ETS_STAT_OVF_CNT, 1, 1, .ro, false, 0, 65535⟩,
  ⟨.port, R.STB_ETS_STAT_COUNT, 1, 1, .ro, false, 0, 511⟩,
  ⟨.port, R.STB_ETS_POP, 1, 1, .wo, true, 0, 1⟩,
  ⟨.port, R.STB_ETS_HDR_PORT, 1, 1, .ro, false, 0, 2047⟩,
  ⟨.port, R.STB_ETS_HDR_TAG, 1, 1, .ro, false, 0, 65535⟩,
  ⟨.port, R.EPH_SWAP_SEL_PORT, 8, 1, .rw, false, 0, 31⟩,
  ⟨.port, R.EPH_SWAP_AT, 8, 1, .rw, false, 0, 4294967295⟩,
  ⟨.port, R.EPH_SWAP_CMD_GO, 8, 1, .wo, true, 0, 1⟩,
  ⟨.port, R.EPH_SWAP_CMD_COUNT, 8, 1, .wo, true, 0, 511⟩,
  ⟨.port, R.EPH_SWAP_STAT_STATE, 8, 1, .ro, false, 0, 3⟩,
  ⟨.port, R.EPH_SWAP_STAT_REASON, 8, 1, .ro, false, 0, 255⟩,
  ⟨.port, R.EPH_SWAP_STAT_DETAIL, 8, 1, .ro, false, 0, 65535⟩,
  ⟨.port, R.FOC_CFG_UDP_PORT, 1, 1, .rw, false, 0, 65535⟩,
  ⟨.port, R.FOC_CFG_EN, 1, 1, .rw, false, 0, 1⟩,
  ⟨.port, R.FOC_CFG_HDR_SLOT, 1, 1, .rw, false, 0, 3⟩,
  ⟨.port, R.FOC_CFG_PARTIAL_TC, 1, 1, .rw, false, 0, 7⟩,
  ⟨.port, R.FOC_CFG_RES_RES_ENTRY, 1, 1, .rw, false, 0, 2047⟩,
  ⟨.port, R.FOC_PART_CFG_ACK_TMO_US, 1, 1, .rw, false, 1, 65535⟩,
  ⟨.port, R.FOC_PART_CFG_RETRY, 1, 1, .rw, false, 1, 15⟩,
  ⟨.port, R.FOC_ACC_STAT_FREE_LINES, 1, 1, .ro, false, 0, 1048575⟩,
  ⟨.port, R.FOC_CMD_CTX_CTX, 1, 1, .rw, false, 0, 4095⟩,
  ⟨.port, R.FOC_CMD_TAG, 1, 1, .wo, true, 0, 255⟩,
  ⟨.port, R.FOC_CMD_OP, 1, 1, .wo, true, 0, 3⟩,
  ⟨.port, R.FOC_CMD_STAT_BUSY, 1, 1, .ro, false, 0, 1⟩,
  ⟨.port, R.FOC_CMD_STAT_TAG, 1, 1, .ro, false, 0, 255⟩,
  ⟨.port, R.FOC_CMD_STAT_STATUS, 1, 1, .ro, false, 0, 15⟩,
  ⟨.port, R.FOC_CMD_STAT_REASON, 1, 1, .ro, false, 0, 255⟩,
  ⟨.port, R.FOC_BAD_HDR_CNT, 1, 1, .ro, false, 0, 4294967295⟩,
  ⟨.port, R.FOC_NOCTX_CNT, 1, 1, .ro, false, 0, 4294967295⟩,
  ⟨.port, R.FOC_NOTMEMBER_CNT, 1, 1, .ro, false, 0, 4294967295⟩,
  ⟨.port, R.FOC_AHEAD_DROP_CNT, 1, 1, .ro, false, 0, 4294967295⟩,
  ⟨.port, R.FOC_PARK_DROP_CNT, 1, 1, .ro, false, 0, 4294967295⟩,
  ⟨.port, R.FOC_PART_REPLAY_CNT, 1, 1, .ro, false, 0, 4294967295⟩,
  ⟨.port, R.FOC_RES_CNT, 1, 1, .ro, false, 0, 4294967295⟩,
  ⟨.port, R.FOC_ERR_CNT, 1, 1, .ro, false, 0, 4294967295⟩,
  ⟨.port, R.FOC_EVT_LOG_VALID, 1, 1, .w1c, false, 0, 1⟩,
  ⟨.port, R.FOC_EVT_LOG_CODE, 1, 1, .ro, false, 0, 15⟩,
  ⟨.port, R.FOC_EVT_LOG_CTX, 1, 1, .ro, false, 0, 4095⟩,
  ⟨.port, R.FOC_SEQ_MC_VERSION, 1, 1, .ro, false, 0, 65535⟩,
  ⟨.port, R.FOC_SEQ_READY, 1, 1, .ro, false, 0, 1⟩,
  ⟨.port, R.LAN_OCT_STATUS_MC_READY, 32, 1, .ro, false, 0, 1⟩,
  ⟨.port, R.LAN_OCT_STATUS_PLL_LOCK, 32, 1, .ro, false, 0, 1⟩,
  ⟨.port, R.LAN_BG_CFG_EN, 32, 1, .rw, false, 0, 1⟩,
  ⟨.port, R.LAN_BG_CFG_SCAN_S, 32, 1, .rw, false, 1, 65535⟩,
  ⟨.port, R.LAN_LANE_CFG_TX_INV, 32, 8, .rw, false, 0, 1⟩,
  ⟨.port, R.LAN_LANE_CFG_RX_INV, 32, 8, .rw, false, 0, 1⟩,
  ⟨.port, R.LAN_LANE_CFG_PRECODE_TX, 32, 8, .rw, false, 0, 2⟩,
  ⟨.port, R.LAN_LANE_CFG_PRECODE_RX, 32, 8, .rw, false, 0, 2⟩,
  ⟨.port, R.LAN_LANE_CFG_TXEQ_MAN, 32, 8, .rw, false, 0, 1⟩,
  ⟨.port, R.LAN_TXEQ_PRE2, 32, 8, .rw, false, 0, 255⟩,
  ⟨.port, R.LAN_TXEQ_PRE1, 32, 8, .rw, false, 0, 255⟩]

/-- Register rows, part 5 (R77, R82 and the block chapters). -/
def regRows5 : List RegRow := [
  ⟨.port, R.LAN_TXEQ_MAIN, 32, 8, .rw, false, 0, 63⟩,
  ⟨.port, R.LAN_TXEQ_POST1, 32, 8, .rw, false, 0, 255⟩,
  ⟨.port, R.LAN_LANE_STAT_SIGNAL, 32, 8, .ro, false, 0, 1⟩,
  ⟨.port, R.LAN_LANE_STAT_CDR_LOCK, 32, 8, .ro, false, 0, 1⟩,
  ⟨.port, R.LAN_LANE_STAT_ADAPTED, 32, 8, .ro, false, 0, 1⟩,
  ⟨.port, R.LAN_LANE_STAT_PRE_TX_ACT, 32, 8, .ro, false, 0, 1⟩,
  ⟨.port, R.LAN_LANE_STAT_PRE_RX_ACT, 32, 8, .ro, false, 0, 1⟩,
  ⟨.port, R.LAN_LANE_STAT_DEGRADED, 32, 8, .ro, false, 0, 1⟩,
  ⟨.port, R.LAN_LANE_STAT_SLICE, 32, 8, .ro, false, 0, 511⟩,
  ⟨.port, R.LAN_RTC_CMD_GO, 32, 1, .wo, true, 0, 1⟩,
  ⟨.port, R.LAN_RTC_CMD_ABORT, 32, 1, .wo, true, 0, 1⟩,
  ⟨.port, R.LAN_RTC_CMD_LANE, 32, 1, .rw, true, 0, 7⟩,
  ⟨.port, R.LAN_RTC_CMD_DWELL, 32, 1, .rw, true, 10, 30⟩,
  ⟨.port, R.LAN_RTC_CMD_FULL, 32, 1, .rw, true, 0, 1⟩,
  ⟨.port, R.LAN_RTC_STAT_STATE, 32, 1, .ro, false, 0, 3⟩,
  ⟨.port, R.LAN_RTC_STAT_SW, 32, 1, .ro, false, 0, 1⟩,
  ⟨.port, R.LAN_RTC_STAT_LANE, 32, 1, .ro, false, 0, 7⟩,
  ⟨.port, R.LAN_RTC_STAT_POINTS, 32, 1, .ro, false, 0, 8191⟩,
  ⟨.port, R.LAN_RTC_EYE_H_H2, 32, 1, .ro, false, 0, 1023⟩,
  ⟨.port, R.LAN_RTC_EYE_H_H1, 32, 1, .ro, false, 0, 1023⟩,
  ⟨.port, R.LAN_RTC_EYE_H_H0, 32, 1, .ro, false, 0, 1023⟩,
  ⟨.port, R.LAN_RTC_EYE_W_W2, 32, 1, .ro, false, 0, 255⟩,
  ⟨.port, R.LAN_RTC_EYE_W_W1, 32, 1, .ro, false, 0, 255⟩,
  ⟨.port, R.LAN_RTC_EYE_W_W0, 32, 1, .ro, false, 0, 255⟩,
  ⟨.port, R.LAN_CAL_CMD_GO, 32, 1, .wo, true, 0, 1⟩,
  ⟨.port, R.LAN_CAL_CMD_SCOPE, 32, 1, .rw, false, 0, 1⟩,
  ⟨.port, R.LAN_CAL_CMD_LANE, 32, 1, .rw, false, 0, 7⟩,
  ⟨.port, R.LAN_CAL_STAT_STATE, 32, 1, .ro, false, 0, 3⟩,
  ⟨.port, R.LAN_CAL_STAT_CODE, 32, 1, .ro, false, 0, 15⟩,
  ⟨.port, R.LAN_SPARE_CMD_GO, 32, 1, .wo, true, 0, 1⟩,
  ⟨.port, R.LAN_SPARE_CMD_LANE, 32, 1, .rw, true, 0, 7⟩,
  ⟨.port, R.LAN_SPARE_CMD_SPARE, 32, 1, .rw, true, 0, 7⟩,
  ⟨.port, R.LAN_SPARE_STAT_STATE, 32, 1, .ro, false, 0, 3⟩,
  ⟨.port, R.LAN_SPARE_STAT_CODE, 32, 1, .ro, false, 0, 15⟩,
  ⟨.port, R.LAN_SPARE_STAT_POOL_FREE, 32, 1, .ro, false, 0, 255⟩,
  ⟨.port, R.PRT_OCT_CFG_MEDIA, 32, 1, .rw, true, 0, 1⟩,
  ⟨.port, R.PRT_OCT_CFG_FEC25, 32, 1, .rw, true, 0, 3⟩,
  ⟨.port, R.PRT_OCT_CFG_MODE, 32, 1, .rw, true, 0, 3⟩,
  ⟨.port, R.PRT_OCT_CFG_RATE, 32, 1, .rw, true, 0, 3⟩,
  ⟨.port, R.PRT_LINK_CFG_ATTEMPT_MS, 32, 1, .rw, false, 100, 65535⟩,
  ⟨.port, R.PRT_BACKOFF_MAX_MS, 32, 1, .rw, false, 1, 65535⟩,
  ⟨.port, R.PRT_BACKOFF_BASE_MS, 32, 1, .rw, false, 1, 65535⟩,
  ⟨.port, R.PRT_FEC_SYM, 32, 8, .ro, false, 0, 4294967295⟩,
  ⟨.meridian, R.M_RAS_CE_CNT, 1, 16, .ro, false, 0, 4294967295⟩,
  ⟨.port, R.RAS_CE_CNT, 1, 16, .ro, false, 0, 4294967295⟩,
  ⟨.meridian, R.M_RAS_UE_CNT, 1, 16, .ro, false, 0, 4294967295⟩,
  ⟨.port, R.RAS_UE_CNT, 1, 16, .ro, false, 0, 4294967295⟩,
  ⟨.meridian, R.M_RAS_REPAIR_CNT, 1, 1, .ro, false, 0, 4294967295⟩,
  ⟨.port, R.RAS_REPAIR_CNT, 1, 1, .ro, false, 0, 4294967295⟩,
  ⟨.meridian, R.M_RAS_UNREPAIRED_CNT, 1, 1, .ro, false, 0, 4294967295⟩,
  ⟨.port, R.RAS_UNREPAIRED_CNT, 1, 1, .ro, false, 0, 4294967295⟩,
  ⟨.meridian, R.M_RAS_XPORT_DROP_CNT, 1, 1, .ro, false, 0, 4294967295⟩,
  ⟨.port, R.RAS_XPORT_DROP_CNT, 1, 1, .ro, false, 0, 4294967295⟩,
  ⟨.meridian, R.M_RAS_UE_DROP_CNT, 1, 1, .ro, false, 0, 4294967295⟩,
  ⟨.port, R.RAS_UE_DROP_CNT, 1, 1, .ro, false, 0, 4294967295⟩,
  ⟨.meridian, R.M_RAS_FUSE_STAT_REPAIRS, 1, 1, .fz, false, 0, 65535⟩,
  ⟨.port, R.RAS_FUSE_STAT_REPAIRS, 1, 1, .fz, false, 0, 65535⟩,
  ⟨.meridian, R.M_RAS_SOFT_STAT_DIGEST_BAD, 1, 1, .ro, false, 0, 1⟩,
  ⟨.port, R.RAS_SOFT_STAT_DIGEST_BAD, 1, 1, .ro, false, 0, 1⟩,
  ⟨.meridian, R.M_RAS_SOFT_STAT_APPLIED, 1, 1, .ro, false, 0, 8191⟩]

/-- Register rows, part 6 (R77, R82 and the block chapters). -/
def regRows6 : List RegRow := [
  ⟨.port, R.RAS_SOFT_STAT_APPLIED, 1, 1, .ro, false, 0, 8191⟩,
  ⟨.meridian, R.M_RAS_SOFT_STAT_SKIPPED, 1, 1, .ro, false, 0, 8191⟩,
  ⟨.port, R.RAS_SOFT_STAT_SKIPPED, 1, 1, .ro, false, 0, 8191⟩,
  ⟨.meridian, R.M_RAS_SCRUB_CFG_CLASS, 1, 1, .rw, false, 0, 15⟩,
  ⟨.port, R.RAS_SCRUB_CFG_CLASS, 1, 1, .rw, false, 0, 15⟩,
  ⟨.meridian, R.M_RAS_SCRUB_CFG_INST, 1, 1, .rw, false, 0, 31⟩,
  ⟨.port, R.RAS_SCRUB_CFG_INST, 1, 1, .rw, false, 0, 31⟩,
  ⟨.meridian, R.M_RAS_SCRUB_CFG_MODE, 1, 1, .rw, false, 0, 2⟩,
  ⟨.port, R.RAS_SCRUB_CFG_MODE, 1, 1, .rw, false, 0, 2⟩,
  ⟨.meridian, R.M_RAS_SCRUB_START, 1, 1, .rw, false, 0, 16777215⟩,
  ⟨.port, R.RAS_SCRUB_START, 1, 1, .rw, false, 0, 16777215⟩,
  ⟨.meridian, R.M_RAS_SCRUB_END, 1, 1, .rw, false, 0, 16777215⟩,
  ⟨.port, R.RAS_SCRUB_END, 1, 1, .rw, false, 0, 16777215⟩,
  ⟨.meridian, R.M_RAS_SCRUB_CMD_GO, 1, 1, .wo, true, 0, 1⟩,
  ⟨.port, R.RAS_SCRUB_CMD_GO, 1, 1, .wo, true, 0, 1⟩,
  ⟨.meridian, R.M_RAS_SCRUB_CMD_ABORT, 1, 1, .wo, true, 0, 1⟩,
  ⟨.port, R.RAS_SCRUB_CMD_ABORT, 1, 1, .wo, true, 0, 1⟩,
  ⟨.meridian, R.M_RAS_SCRUB_STAT_STATE, 1, 1, .ro, false, 0, 3⟩,
  ⟨.port, R.RAS_SCRUB_STAT_STATE, 1, 1, .ro, false, 0, 3⟩,
  ⟨.meridian, R.M_RAS_SCRUB_STAT_REASON, 1, 1, .ro, false, 0, 7⟩,
  ⟨.port, R.RAS_SCRUB_STAT_REASON, 1, 1, .ro, false, 0, 7⟩,
  ⟨.meridian, R.M_RAS_SCRUB_STAT_CURSOR, 1, 1, .ro, false, 0, 16777215⟩,
  ⟨.port, R.RAS_SCRUB_STAT_CURSOR, 1, 1, .ro, false, 0, 16777215⟩,
  ⟨.meridian, R.M_RAS_SCRUB_READ, 1, 1, .ro, false, 0, 4294967295⟩,
  ⟨.port, R.RAS_SCRUB_READ, 1, 1, .ro, false, 0, 4294967295⟩,
  ⟨.meridian, R.M_RAS_SCRUB_CORRECTED, 1, 1, .ro, false, 0, 4294967295⟩,
  ⟨.port, R.RAS_SCRUB_CORRECTED, 1, 1, .ro, false, 0, 4294967295⟩,
  ⟨.meridian, R.M_RAS_SCRUB_UNCORR, 1, 1, .ro, false, 0, 4294967295⟩,
  ⟨.port, R.RAS_SCRUB_UNCORR, 1, 1, .ro, false, 0, 4294967295⟩,
  ⟨.meridian, R.M_RAS_SCRUB_REPAIRED, 1, 1, .ro, false, 0, 4294967295⟩,
  ⟨.port, R.RAS_SCRUB_REPAIRED, 1, 1, .ro, false, 0, 4294967295⟩,
  ⟨.meridian, R.M_RAS_SCRUB_FIRST_UE_VALID, 1, 1, .ro, false, 0, 1⟩,
  ⟨.port, R.RAS_SCRUB_FIRST_UE_VALID, 1, 1, .ro, false, 0, 1⟩,
  ⟨.meridian, R.M_RAS_SCRUB_FIRST_UE_INDEX, 1, 1, .ro, false, 0, 16777215⟩,
  ⟨.port, R.RAS_SCRUB_FIRST_UE_INDEX, 1, 1, .ro, false, 0, 16777215⟩,
  ⟨.meridian, R.M_RAS_SCRUB_LAST_UE, 1, 1, .ro, false, 0, 4294967295⟩,
  ⟨.port, R.RAS_SCRUB_LAST_UE, 1, 1, .ro, false, 0, 4294967295⟩,
  ⟨.meridian, R.M_RAS_SCRUB_UE_LOC_MACRO, 1, 1, .ro, false, 0, 65535⟩,
  ⟨.port, R.RAS_SCRUB_UE_LOC_MACRO, 1, 1, .ro, false, 0, 65535⟩,
  ⟨.meridian, R.M_RAS_SCRUB_UE_LOC_ROW, 1, 1, .ro, false, 0, 65535⟩,
  ⟨.port, R.RAS_SCRUB_UE_LOC_ROW, 1, 1, .ro, false, 0, 65535⟩,
  ⟨.meridian, R.M_RAS_BIST_CMD_GO, 1, 1, .wo, true, 0, 1⟩,
  ⟨.port, R.RAS_BIST_CMD_GO, 1, 1, .wo, true, 0, 1⟩,
  ⟨.meridian, R.M_RAS_BIST_CMD_CLASS, 1, 1, .rw, true, 0, 15⟩,
  ⟨.port, R.RAS_BIST_CMD_CLASS, 1, 1, .rw, true, 0, 15⟩,
  ⟨.meridian, R.M_RAS_BIST_CMD_INST, 1, 1, .rw, true, 0, 31⟩,
  ⟨.port, R.RAS_BIST_CMD_INST, 1, 1, .rw, true, 0, 31⟩,
  ⟨.meridian, R.M_RAS_BIST_STAT_STATE, 1, 1, .ro, false, 0, 3⟩,
  ⟨.port, R.RAS_BIST_STAT_STATE, 1, 1, .ro, false, 0, 3⟩,
  ⟨.meridian, R.M_RAS_BIST_STAT_CODE, 1, 1, .ro, false, 0, 15⟩,
  ⟨.port, R.RAS_BIST_STAT_CODE, 1, 1, .ro, false, 0, 15⟩,
  ⟨.meridian, R.M_RAS_BIST_STAT_FAILS, 1, 1, .ro, false, 0, 65535⟩,
  ⟨.port, R.RAS_BIST_STAT_FAILS, 1, 1, .ro, false, 0, 65535⟩,
  ⟨.meridian, R.M_RAS_BIST_LOC_MACRO, 1, 1, .ro, false, 0, 65535⟩,
  ⟨.port, R.RAS_BIST_LOC_MACRO, 1, 1, .ro, false, 0, 65535⟩,
  ⟨.meridian, R.M_RAS_BIST_LOC_ROW, 1, 1, .ro, false, 0, 65535⟩,
  ⟨.port, R.RAS_BIST_LOC_ROW, 1, 1, .ro, false, 0, 65535⟩,
  ⟨.meridian, R.M_RAS_BIST_LOC_COL, 1, 1, .ro, false, 0, 65535⟩,
  ⟨.port, R.RAS_BIST_LOC_COL, 1, 1, .ro, false, 0, 65535⟩,
  ⟨.meridian, R.M_SHN_CFG_RETRY_MAX, 68, 1, .rw, false, 1, 15⟩]

/-- Register rows, part 7 (R77, R82 and the block chapters). -/
def regRows7 : List RegRow := [
  ⟨.port, R.SHN_CFG_RETRY_MAX, 8, 1, .rw, false, 1, 15⟩,
  ⟨.meridian, R.M_SHN_STATUS_STATE, 68, 1, .ro, false, 0, 3⟩,
  ⟨.port, R.SHN_STATUS_STATE, 8, 1, .ro, false, 0, 3⟩,
  ⟨.meridian, R.M_SHN_RETRY_CNT, 68, 1, .ro, false, 0, 4294967295⟩,
  ⟨.port, R.SHN_RETRY_CNT, 8, 1, .ro, false, 0, 4294967295⟩,
  ⟨.meridian, R.M_SHN_RETRAIN_CNT, 68, 1, .ro, false, 0, 4294967295⟩,
  ⟨.port, R.SHN_RETRAIN_CNT, 8, 1, .ro, false, 0, 4294967295⟩,
  ⟨.meridian, R.M_SHN_SPARE_CMD_GO, 68, 1, .wo, true, 0, 1⟩,
  ⟨.port, R.SHN_SPARE_CMD_GO, 8, 1, .wo, true, 0, 1⟩,
  ⟨.meridian, R.M_SHN_SPARE_CMD_BUNDLE, 68, 1, .rw, true, 0, 4⟩,
  ⟨.port, R.SHN_SPARE_CMD_BUNDLE, 8, 1, .rw, true, 0, 4⟩,
  ⟨.meridian, R.M_SHN_SPARE_CMD_WIRE, 68, 1, .rw, true, 0, 63⟩,
  ⟨.port, R.SHN_SPARE_CMD_WIRE, 8, 1, .rw, true, 0, 63⟩,
  ⟨.meridian, R.M_SHN_SPARE_CMD_SPARE, 68, 1, .rw, true, 0, 3⟩,
  ⟨.port, R.SHN_SPARE_CMD_SPARE, 8, 1, .rw, true, 0, 3⟩,
  ⟨.meridian, R.M_SHN_SPARE_STAT_STATE, 68, 1, .ro, false, 0, 3⟩,
  ⟨.port, R.SHN_SPARE_STAT_STATE, 8, 1, .ro, false, 0, 3⟩,
  ⟨.meridian, R.M_SHN_SPARE_STAT_CODE, 68, 1, .ro, false, 0, 15⟩,
  ⟨.port, R.SHN_SPARE_STAT_CODE, 8, 1, .ro, false, 0, 15⟩,
  ⟨.meridian, R.M_SHN_SPARE_STAT_FREE, 68, 1, .ro, false, 0, 1048575⟩,
  ⟨.port, R.SHN_SPARE_STAT_FREE, 8, 1, .ro, false, 0, 1048575⟩,
  ⟨.meridian, R.CXL_PORT_STATUS_STATE, 2, 1, .ro, false, 0, 7⟩,
  ⟨.meridian, R.CXL_PORT_STATUS_SPEED, 2, 1, .ro, false, 0, 1⟩,
  ⟨.meridian, R.CXL_PORT_STATUS_WIDTH, 2, 1, .ro, false, 0, 31⟩,
  ⟨.meridian, R.CXL_PORT_CAP_UNITS, 2, 1, .ro, false, 0, 8191⟩,
  ⟨.meridian, R.CXL_PORT_CFG_LOSS_TMO, 2, 1, .rw, false, 1, 255⟩,
  ⟨.meridian, R.CXL_PORT_CFG_CPL_TMO_US, 2, 1, .rw, false, 10, 65535⟩,
  ⟨.meridian, R.CXL_PORT_CMD_RESTART, 2, 1, .wo, true, 0, 1⟩,
  ⟨.meridian, R.CXL_PORT_LAT_MAX_NS, 2, 1, .rc, false, 0, 65535⟩,
  ⟨.meridian, R.CXL_PORT_LAT_MEAN_NS, 2, 1, .ro, false, 0, 65535⟩,
  ⟨.meridian, R.CXL_PORT_CPL_TMO_CNT, 2, 1, .ro, false, 0, 4294967295⟩,
  ⟨.meridian, R.CXL_PORT_LOSS_CNT, 2, 1, .ro, false, 0, 4294967295⟩,
  ⟨.meridian, R.CXL_PORT_RD_POISON_CNT, 2, 1, .ro, false, 0, 4294967295⟩,
  ⟨.meridian, R.CXL_PORT_RD_BYTES_LO, 2, 1, .ro, false, 0, 4294967295⟩,
  ⟨.meridian, R.CXL_PORT_RD_BYTES_HI, 2, 1, .ro, false, 0, 4294967295⟩,
  ⟨.meridian, R.CXL_PORT_WR_BYTES_LO, 2, 1, .ro, false, 0, 4294967295⟩,
  ⟨.meridian, R.CXL_PORT_WR_BYTES_HI, 2, 1, .ro, false, 0, 4294967295⟩,
  ⟨.meridian, R.CXL_REG_EN, 1, 4, .rw, true, 0, 1⟩,
  ⟨.meridian, R.CXL_REG_COMMITTED, 1, 4, .ro, false, 0, 1⟩,
  ⟨.meridian, R.CXL_REG_STATE, 1, 4, .ro, false, 0, 3⟩,
  ⟨.meridian, R.CXL_REG_MIRROR, 1, 4, .ro, false, 0, 1⟩,
  ⟨.meridian, R.CXL_REG_PORT, 1, 4, .rw, true, 0, 1⟩,
  ⟨.meridian, R.CXL_REG_BUDGET_GBPS, 1, 4, .rw, true, 0, 2047⟩,
  ⟨.meridian, R.CXL_REG_DPA_BASE, 1, 4, .rw, false, 0, 4095⟩,
  ⟨.meridian, R.CXL_REG_SIZE, 1, 4, .rw, false, 0, 8191⟩,
  ⟨.meridian, R.CXL_PLATE_CFG_STOP, 1, 1, .rw, false, 0, 1⟩,
  ⟨.meridian, R.CXL_PLATE_WP, 1, 1, .ro, false, 0, 4294967295⟩,
  ⟨.meridian, R.CXL_PLATE_RP, 1, 1, .rw, false, 0, 4294967295⟩,
  ⟨.meridian, R.CXL_PLATE_DROP_CNT, 1, 1, .ro, false, 0, 4294967295⟩,
  ⟨.meridian, R.CXL_SPILL_POISON_CNT, 1, 1, .ro, false, 0, 4294967295⟩,
  ⟨.meridian, R.PMU_GOV_CFG_LOCKSTEP_EN, 1, 1, .rw, false, 0, 1⟩,
  ⟨.meridian, R.PMU_GOV_CFG_FIXED, 1, 1, .rw, false, 0, 1⟩,
  ⟨.meridian, R.PMU_GOV_CFG_EXT_S, 1, 1, .rw, false, 0, 48⟩,
  ⟨.meridian, R.PMU_CAP_SUST_WINDOW_MS, 1, 1, .rw, false, 10, 10000⟩,
  ⟨.meridian, R.PMU_CAP_SUST_WATTS, 1, 1, .rw, false, 0, 8191⟩,
  ⟨.meridian, R.PMU_CAP_FAST_WATTS, 1, 1, .rw, false, 0, 8191⟩,
  ⟨.meridian, R.PMU_PKG_PWR_FAST_W, 1, 1, .ro, false, 0, 65535⟩,
  ⟨.meridian, R.PMU_PKG_PWR_SUST_W, 1, 1, .ro, false, 0, 65535⟩,
  ⟨.meridian, R.PMU_GOV_STATUS_EXT, 1, 1, .ro, false, 0, 1⟩,
  ⟨.meridian, R.PMU_GOV_STATUS_SUST_BIND, 1, 1, .ro, false, 0, 1⟩]

/-- Register rows, part 8 (R77, R82 and the block chapters). -/
def regRows8 : List RegRow := [
  ⟨.meridian, R.PMU_GOV_STATUS_FAST_BIND, 1, 1, .ro, false, 0, 1⟩,
  ⟨.meridian, R.PMU_GOV_STATUS_LOCK_DIES, 1, 1, .ro, false, 0, 255⟩,
  ⟨.meridian, R.PMU_DIE_WEIGHT, 1, 8, .rw, false, 1, 255⟩,
  ⟨.meridian, R.PMU_DIE_ALLOW, 1, 8, .ro, false, 0, 8191⟩,
  ⟨.meridian, R.M_PMU_CFG_BOOST_EN, 1, 1, .rw, false, 0, 1⟩,
  ⟨.port, R.PMU_CFG_BOOST_EN, 1, 1, .rw, false, 0, 1⟩,
  ⟨.meridian, R.M_PMU_CFG_DROOP_MV, 1, 1, .rw, false, 10, 100⟩,
  ⟨.port, R.PMU_CFG_DROOP_MV, 1, 1, .rw, false, 10, 100⟩,
  ⟨.meridian, R.M_PMU_STATUS_S, 1, 1, .ro, false, 0, 63⟩,
  ⟨.port, R.PMU_STATUS_S, 1, 1, .ro, false, 0, 63⟩,
  ⟨.meridian, R.M_PMU_STATUS_B, 1, 1, .ro, false, 0, 7⟩,
  ⟨.port, R.PMU_STATUS_B, 1, 1, .ro, false, 0, 7⟩,
  ⟨.meridian, R.M_PMU_STATUS_REASONS, 1, 1, .ro, false, 0, 255⟩,
  ⟨.port, R.PMU_STATUS_REASONS, 1, 1, .ro, false, 0, 255⟩,
  ⟨.meridian, R.M_PMU_STATUS_TJ_MAX, 1, 1, .ro, false, 0, 255⟩,
  ⟨.port, R.PMU_STATUS_TJ_MAX, 1, 1, .ro, false, 0, 255⟩,
  ⟨.meridian, R.M_PMU_FREQ_MHZ, 1, 1, .ro, false, 0, 65535⟩,
  ⟨.port, R.PMU_FREQ_MHZ, 1, 1, .ro, false, 0, 65535⟩,
  ⟨.meridian, R.M_PMU_ILIM_SRAM_A, 1, 1, .rw, false, 10, 1000⟩,
  ⟨.port, R.PMU_ILIM_SRAM_A, 1, 1, .rw, false, 10, 1000⟩,
  ⟨.meridian, R.M_PMU_ILIM_CORE_A, 1, 1, .rw, false, 10, 1000⟩,
  ⟨.port, R.PMU_ILIM_CORE_A, 1, 1, .rw, false, 10, 1000⟩,
  ⟨.meridian, R.M_PMU_ILIM_SERDES_A, 1, 1, .rw, false, 10, 1000⟩,
  ⟨.port, R.PMU_ILIM_SERDES_A, 1, 1, .rw, false, 10, 1000⟩,
  ⟨.meridian, R.M_PMU_POWER_MEAS_DW, 1, 1, .ro, false, 0, 65535⟩,
  ⟨.port, R.PMU_POWER_MEAS_DW, 1, 1, .ro, false, 0, 65535⟩,
  ⟨.meridian, R.M_PMU_POWER_EST_DW, 1, 1, .ro, false, 0, 65535⟩,
  ⟨.port, R.PMU_POWER_EST_DW, 1, 1, .ro, false, 0, 65535⟩,
  ⟨.meridian, R.M_PMU_EST_STAT_DISAGREE, 1, 1, .ro, false, 0, 1⟩,
  ⟨.port, R.PMU_EST_STAT_DISAGREE, 1, 1, .ro, false, 0, 1⟩,
  ⟨.meridian, R.M_PMU_EST_STAT_IMPLAUSIBLE, 1, 1, .ro, false, 0, 1⟩,
  ⟨.port, R.PMU_EST_STAT_IMPLAUSIBLE, 1, 1, .ro, false, 0, 1⟩,
  ⟨.meridian, R.M_PMU_EST_STAT_DISAGREE_CNT, 1, 1, .ro, false, 0, 65535⟩,
  ⟨.port, R.PMU_EST_STAT_DISAGREE_CNT, 1, 1, .ro, false, 0, 65535⟩,
  ⟨.meridian, R.M_PMU_VOLT_CORE_MV, 1, 1, .ro, false, 0, 65535⟩,
  ⟨.port, R.PMU_VOLT_CORE_MV, 1, 1, .ro, false, 0, 65535⟩,
  ⟨.meridian, R.M_PMU_VOLT_TRIM_MV, 1, 1, .ro, false, 0, 65535⟩,
  ⟨.port, R.PMU_VOLT_TRIM_MV, 1, 1, .ro, false, 0, 65535⟩,
  ⟨.meridian, R.M_PMU_THR_US_LO, 1, 8, .ro, false, 0, 4294967295⟩,
  ⟨.port, R.PMU_THR_US_LO, 1, 8, .ro, false, 0, 4294967295⟩,
  ⟨.meridian, R.M_PMU_THR_US_HI, 1, 8, .ro, false, 0, 4294967295⟩,
  ⟨.port, R.PMU_THR_US_HI, 1, 8, .ro, false, 0, 4294967295⟩,
  ⟨.meridian, R.M_PMU_AGE_CEIL_US_LO, 1, 1, .ro, false, 0, 4294967295⟩,
  ⟨.port, R.PMU_AGE_CEIL_US_LO, 1, 1, .ro, false, 0, 4294967295⟩,
  ⟨.meridian, R.M_PMU_AGE_CEIL_US_HI, 1, 1, .ro, false, 0, 4294967295⟩,
  ⟨.port, R.PMU_AGE_CEIL_US_HI, 1, 1, .ro, false, 0, 4294967295⟩,
  ⟨.meridian, R.M_PMU_AGE_STAT_MARGIN_MV, 1, 1, .ro, false, 0, 65535⟩,
  ⟨.port, R.PMU_AGE_STAT_MARGIN_MV, 1, 1, .ro, false, 0, 65535⟩,
  ⟨.meridian, R.M_PMU_AGE_STAT_QUARTERS, 1, 1, .ro, false, 0, 65535⟩,
  ⟨.port, R.PMU_AGE_STAT_QUARTERS, 1, 1, .ro, false, 0, 65535⟩,
  ⟨.meridian, R.M_PMU_AGE_LAST, 1, 1, .ro, false, 0, 4294967295⟩,
  ⟨.port, R.PMU_AGE_LAST, 1, 1, .ro, false, 0, 4294967295⟩,
  ⟨.meridian, R.M_PMU_AGE_CMD, 1, 1, .rw, true, 0, 1⟩,
  ⟨.port, R.PMU_AGE_CMD, 1, 1, .rw, true, 0, 1⟩,
  ⟨.meridian, R.M_PMU_LIFE_HOURS, 1, 1, .ro, false, 0, 4294967295⟩,
  ⟨.port, R.PMU_LIFE_HOURS, 1, 1, .ro, false, 0, 4294967295⟩,
  ⟨.meridian, R.M_PMU_LIFE_TJ_PEAK_EXCEEDED, 1, 1, .ro, false, 0, 1⟩,
  ⟨.port, R.PMU_LIFE_TJ_PEAK_EXCEEDED, 1, 1, .ro, false, 0, 1⟩,
  ⟨.meridian, R.M_PMU_LIFE_TJ_MAX_DC, 1, 1, .ro, false, 0, 4095⟩,
  ⟨.port, R.PMU_LIFE_TJ_MAX_DC, 1, 1, .ro, false, 0, 4095⟩]

/-- Register rows, part 9 (R77, R82 and the block chapters). -/
def regRows9 : List RegRow := [
  ⟨.meridian, R.M_PMU_LIFE_TJ_AVG_DC, 1, 1, .ro, false, 0, 4095⟩,
  ⟨.port, R.PMU_LIFE_TJ_AVG_DC, 1, 1, .ro, false, 0, 4095⟩,
  ⟨.meridian, R.PAG_RESET_KEY, 1, 1, .wo, true, 0, 65535⟩,
  ⟨.meridian, R.PAG_RESET_MP, 1, 1, .wo, true, 0, 1⟩,
  ⟨.meridian, R.PAG_RESET_PART, 1, 1, .wo, true, 0, 1⟩,
  ⟨.meridian, R.PAG_BOOT_PROG_STEP, 1, 1, .ro, false, 0, 255⟩,
  ⟨.meridian, R.PAG_BOOT_PROG_FAIL_STEP, 1, 1, .ro, false, 0, 255⟩,
  ⟨.meridian, R.PAG_BOOT_PROG_RELEASED, 1, 1, .ro, false, 0, 255⟩,
  ⟨.meridian, R.PAG_BOOT_PROG_IMAGE, 1, 1, .ro, false, 0, 1⟩,
  ⟨.meridian, R.PAG_PINS_FATAL, 1, 1, .ro, false, 0, 1⟩,
  ⟨.meridian, R.PAG_PINS_TRIP, 1, 1, .ro, false, 0, 1⟩,
  ⟨.meridian, R.PAG_PINS_EXT_THROT, 1, 1, .ro, false, 0, 1⟩,
  ⟨.meridian, R.PAG_PINS_PERST, 1, 1, .ro, false, 0, 1⟩,
  ⟨.meridian, R.PAG_PINS_MAINS, 1, 1, .ro, false, 0, 1⟩,
  ⟨.meridian, R.PAG_PINS_PPS, 1, 1, .ro, false, 0, 1⟩,
  ⟨.meridian, R.PAG_RESET_CAUSE_CAUSE, 1, 1, .ro, false, 0, 255⟩,
  ⟨.meridian, R.SEC_FUSE_DEBUG_OFF, 1, 1, .fz, false, 0, 1⟩,
  ⟨.meridian, R.SEC_FUSE_MATRIX_LOCK, 1, 1, .fz, false, 0, 1⟩,
  ⟨.meridian, R.SEC_FUSE_OWNER_REVOKED, 1, 1, .fz, false, 0, 15⟩,
  ⟨.meridian, R.SEC_FUSE_OWNER_VALID, 1, 1, .fz, false, 0, 15⟩,
  ⟨.meridian, R.SEC_FUSE_VENDOR_REVOKED, 1, 1, .fz, false, 0, 15⟩,
  ⟨.meridian, R.SEC_FUSE_VENDOR_VALID, 1, 1, .fz, false, 0, 15⟩,
  ⟨.meridian, R.SEC_RB_OWNER_SVN, 1, 1, .fz, false, 0, 127⟩,
  ⟨.meridian, R.SEC_RB_VENDOR_SVN, 1, 1, .fz, false, 0, 127⟩,
  ⟨.meridian, R.SEC_STATUS_DEBUG_ACTIVE, 1, 1, .ro, false, 0, 1⟩,
  ⟨.meridian, R.SEC_STATUS_TRIAL, 1, 1, .ro, false, 0, 1⟩,
  ⟨.meridian, R.SEC_STATUS_LOG_TRUNC, 1, 1, .ro, false, 0, 1⟩,
  ⟨.meridian, R.SEC_STATUS_ID_READY, 1, 1, .ro, false, 0, 1⟩,
  ⟨.meridian, R.SEC_STATUS_VENDOR_SLOT, 1, 1, .ro, false, 0, 3⟩,
  ⟨.meridian, R.SEC_STATUS_OWNER_SLOT, 1, 1, .ro, false, 0, 3⟩,
  ⟨.meridian, R.SEC_STATUS_OWNER_STATE, 1, 1, .ro, false, 0, 15⟩,
  ⟨.meridian, R.SEC_STATUS_OWNER_REASON, 1, 1, .ro, false, 0, 15⟩,
  ⟨.meridian, R.SEC_RUN_OWNER_SVN, 1, 1, .ro, false, 0, 127⟩,
  ⟨.meridian, R.SEC_RUN_VENDOR_SVN, 1, 1, .ro, false, 0, 127⟩,
  ⟨.meridian, R.SEC_LOG_COUNT, 1, 1, .ro, false, 0, 4294967295⟩,
  ⟨.meridian, R.SEC_MEAS_ACC, 1, 16, .ro, false, 0, 4294967295⟩,
  ⟨.meridian, R.SEC_MEAS_EXT, 1, 32, .wo, false, 0, 4294967295⟩,
  ⟨.meridian, R.SEC_MEAS_CMD_GO, 1, 1, .wo, true, 0, 1⟩,
  ⟨.meridian, R.MBX_REQ, 13, 16, .rw, false, 0, 4294967295⟩,
  ⟨.meridian, R.MBX_REQ_HDR_SENDER, 13, 1, .ro, false, 0, 15⟩,
  ⟨.meridian, R.MBX_REQ_HDR_SEQ, 13, 1, .ro, false, 0, 255⟩,
  ⟨.meridian, R.MBX_CTRL_GO, 13, 1, .wo, true, 0, 1⟩,
  ⟨.meridian, R.MBX_CTRL_RELEASE, 13, 1, .wo, true, 0, 1⟩,
  ⟨.meridian, R.MBX_CTRL_TAKE, 13, 1, .wo, true, 0, 1⟩,
  ⟨.meridian, R.MBX_CTRL_DONE, 13, 1, .wo, true, 0, 1⟩,
  ⟨.meridian, R.MBX_STATUS_STATE, 13, 1, .ro, false, 0, 7⟩,
  ⟨.meridian, R.MBX_STATUS_SEQ, 13, 1, .ro, false, 0, 255⟩,
  ⟨.meridian, R.MBX_RSP, 13, 16, .ro, false, 0, 4294967295⟩,
  ⟨.meridian, R.HQ_BASE_LO, 4, 20, .rw, true, 0, 4294967295⟩,
  ⟨.meridian, R.HQ_BASE_HI, 4, 20, .rw, true, 0, 4294967295⟩,
  ⟨.meridian, R.HQ_CFG_EN, 4, 20, .rw, false, 0, 1⟩,
  ⟨.meridian, R.HQ_CFG_SIZE_LOG2, 4, 20, .rw, false, 6, 15⟩,
  ⟨.meridian, R.HQ_CFG_BUF_BYTES, 4, 20, .rw, false, 256, 16384⟩,
  ⟨.meridian, R.HQ_TAIL, 4, 20, .rw, true, 0, 65535⟩,
  ⟨.meridian, R.HQ_HEAD, 4, 20, .ro, false, 0, 65535⟩,
  ⟨.meridian, R.HQ_DROP, 4, 20, .ro, false, 0, 4294967295⟩,
  ⟨.meridian, R.ALM_NEXT_SEQ, 1, 1, .ro, false, 0, 4294967295⟩,
  ⟨.meridian, R.MBX_MP_STATUS_STATE, 1, 1, .ro, false, 0, 3⟩,
  ⟨.meridian, R.MBX_MP_STATUS_RESTARTS, 1, 1, .ro, false, 0, 65535⟩,
  ⟨.meridian, R.CNT_USER_CFG_FUSED_OFF, 1, 1, .fz, false, 0, 1⟩]

/-- Register rows, part 10 (R77, R82 and the block chapters). -/
def regRows10 : List RegRow := [
  ⟨.meridian, R.CNT_USER_CFG_EN, 1, 1, .rw, false, 0, 15⟩,
  ⟨.port, R.CNT_INVDEST_LO, 1, 1, .ro, false, 0, 4294967295⟩,
  ⟨.port, R.CNT_INVDEST_HI, 1, 1, .ro, false, 0, 4294967295⟩,
  ⟨.meridian, R.M_CNT_CFG_EN, 1, 64, .rw, false, 0, 1⟩,
  ⟨.port, R.CNT_CFG_EN, 1, 64, .rw, false, 0, 1⟩,
  ⟨.meridian, R.M_CNT_CFG_WRAP, 1, 64, .w1c, false, 0, 1⟩,
  ⟨.port, R.CNT_CFG_WRAP, 1, 64, .w1c, false, 0, 1⟩,
  ⟨.meridian, R.M_CNT_CFG_FILTER_EN, 1, 64, .rw, false, 0, 1⟩,
  ⟨.port, R.CNT_CFG_FILTER_EN, 1, 64, .rw, false, 0, 1⟩,
  ⟨.meridian, R.M_CNT_CFG_FILTER, 1, 64, .rw, false, 0, 31⟩,
  ⟨.port, R.CNT_CFG_FILTER, 1, 64, .rw, false, 0, 31⟩,
  ⟨.meridian, R.M_CNT_CFG_USER, 1, 64, .rw, false, 0, 1⟩,
  ⟨.port, R.CNT_CFG_USER, 1, 64, .rw, false, 0, 1⟩,
  ⟨.meridian, R.M_CNT_CFG_EVENT, 1, 64, .rw, false, 0, 65535⟩,
  ⟨.port, R.CNT_CFG_EVENT, 1, 64, .rw, false, 0, 65535⟩,
  ⟨.meridian, R.M_CNT_VAL_LO, 1, 64, .rw, true, 0, 4294967295⟩,
  ⟨.port, R.CNT_VAL_LO, 1, 64, .rw, true, 0, 4294967295⟩,
  ⟨.meridian, R.M_CNT_VAL_HI, 1, 64, .rw, true, 0, 4294967295⟩,
  ⟨.port, R.CNT_VAL_HI, 1, 64, .rw, true, 0, 4294967295⟩,
  ⟨.port, R.TRC_CFG_ENTRY, 1, 1, .rw, false, 0, 2047⟩,
  ⟨.port, R.TRC_CFG_SWITCH_ID, 1, 1, .rw, false, 0, 4095⟩,
  ⟨.port, R.TRC_INSERT_CNT, 1, 1, .ro, false, 0, 4294967295⟩,
  ⟨.port, R.TRC_SKIP_CNT, 1, 1, .ro, false, 0, 4294967295⟩,
  ⟨.port, R.TRC_CAP_DROP_CNT, 1, 1, .ro, false, 0, 4294967295⟩,
  ⟨.port, R.TRC_COLL_CNT, 1, 1, .ro, false, 0, 4294967295⟩,
  ⟨.port, R.PAG_DIE_CORNER, 1, 1, .fz, false, 0, 1⟩,
  ⟨.port, R.PAG_DIE_INDEX, 1, 1, .fz, false, 0, 7⟩,
  ⟨.meridian, R.LCK_LOCK_HELD, 1, 64, .ro, true, 0, 1⟩,
  ⟨.meridian, R.LCK_LOCK_OWNER, 1, 64, .ro, true, 0, 15⟩,
  ⟨.port, R.POL_CLR_GO, 1, 1, .wo, true, 0, 1⟩,
  ⟨.port, R.POL_CLR_INDEX, 1, 1, .rw, true, 0, 16383⟩,
  ⟨.port, R.POL_CFG_DROP_REASON, 1, 1, .rw, false, 0, 15⟩,
  ⟨.meridian, R.CXL_RD_SEL_REGION, 1, 1, .rw, false, 0, 3⟩,
  ⟨.port, R.CNT_PSTAT_CLR_GO, 1, 1, .wo, true, 0, 1⟩,
  ⟨.port, R.CNT_PSTAT_CLR_PORT, 1, 1, .rw, true, 0, 255⟩,
  ⟨.meridian, R.STB_MAINS_TS, 1, 4, .ro, false, 0, 4294967295⟩,
  ⟨.meridian, R.STB_PPS_TS, 1, 4, .ro, false, 0, 4294967295⟩,
  ⟨.port, R.STB_ETS_TS, 1, 4, .ro, false, 0, 4294967295⟩]

/-- Every register row. -/
def regRows : List RegRow :=
  regRows0 ++ regRows1 ++ regRows2 ++ regRows3 ++ regRows4 ++ regRows5 ++ regRows6 ++ regRows7 ++ regRows8 ++ regRows9 ++ regRows10

end Sys2Proof
end

