-- ==== Sys2Proof/Machine/TabMap.lean ====
section
/-!
DEFINITION. The indirect-window entries: every field of every entry the spec lays out (namespace T), the table numbers
(namespace Tab), the windows with their pages, offsets and index ranges, and the writable bits with the values that are
not reserved.
-/
namespace Sys2Proof
namespace Tab

/-- The window SEQ_IND. -/
def SEQ_IND : Nat := 0
/-- The window PRS_TCAM. -/
def PRS_TCAM : Nat := 1
/-- The window HVX_MCG. -/
def HVX_MCG : Nat := 2
/-- The window HVX_TPL. -/
def HVX_TPL : Nat := 3
/-- The window CAT_IND. -/
def CAT_IND : Nat := 4
/-- The window FLT_IND. -/
def FLT_IND : Nat := 5
/-- The window BUF_CLS. -/
def BUF_CLS : Nat := 6
/-- The window BUF_PORT. -/
def BUF_PORT : Nat := 7
/-- The window BUF_PG. -/
def BUF_PG : Nat := 8
/-- The window BUF_Q. -/
def BUF_Q : Nat := 9
/-- The window BUF_PFCRX. -/
def BUF_PFCRX : Nat := 10
/-- The window BUF_PSTAT. -/
def BUF_PSTAT : Nat := 11
/-- The window BUF_VOQ. -/
def BUF_VOQ : Nat := 12
/-- The window BUF_STOP. -/
def BUF_STOP : Nat := 13
/-- The window MER_PORT. -/
def MER_PORT : Nat := 14
/-- The window STB_COMP. -/
def STB_COMP : Nat := 15
/-- The window EPH_PORT. -/
def EPH_PORT : Nat := 16
/-- The window EPH_LIST. -/
def EPH_LIST : Nat := 17
/-- The window SCH_PORT. -/
def SCH_PORT : Nat := 18
/-- The window SCH_QCFG. -/
def SCH_QCFG : Nat := 19
/-- The window SHP_Q. -/
def SHP_Q : Nat := 20
/-- The window SHP_PORT. -/
def SHP_PORT : Nat := 21
/-- The window RMP_GRP. -/
def RMP_GRP : Nat := 22
/-- The window POL_CTX. -/
def POL_CTX : Nat := 23
/-- The window FOC_CTX. -/
def FOC_CTX : Nat := 24
/-- The window FOC_MBR. -/
def FOC_MBR : Nat := 25
/-- The window FOC_CSTAT. -/
def FOC_CSTAT : Nat := 26
/-- The window FOC_TPL. -/
def FOC_TPL : Nat := 27
/-- The window LAN_RTC_GRID. -/
def LAN_RTC_GRID : Nat := 28
/-- The window PRT_PORT. -/
def PRT_PORT : Nat := 29
/-- The window SHN_WIRE. -/
def SHN_WIRE : Nat := 30
/-- The window M_SHN_WIRE. -/
def M_SHN_WIRE : Nat := 31
/-- The window CXL_RD. -/
def CXL_RD : Nat := 32
/-- The window PMU_MON. -/
def PMU_MON : Nat := 33
/-- The window M_PMU_MON. -/
def M_PMU_MON : Nat := 34
/-- The window SEC_KEYHASH. -/
def SEC_KEYHASH : Nat := 35
/-- The window SEC_LOG. -/
def SEC_LOG : Nat := 36
/-- The window SEC_IDKEY. -/
def SEC_IDKEY : Nat := 37
/-- The window ALM. -/
def ALM : Nat := 38
/-- The window CNT_PSTAT. -/
def CNT_PSTAT : Nat := 39
/-- The window TRC_PROF. -/
def TRC_PROF : Nat := 40
/-- The window TRC_TPL. -/
def TRC_TPL : Nat := 41

end Tab

namespace T

/-- R382: as R320 -/
def BUF_CLS_MODE : TFld := ⟨6, 8, 2, 1⟩
/-- R382: default PG -/
def BUF_CLS_DEF_PG : TFld := ⟨6, 4, 3, 0⟩
/-- R382: default TC -/
def BUF_CLS_DEF_TC : TFld := ⟨6, 0, 3, 0⟩
/-- R383: 1 = cut-through allowed -/
def BUF_PORT_CT_EN : TFld := ⟨7, 31, 1, 1⟩
/-- R383: 1 = send PFC frames -/
def BUF_PORT_PFC_TX_EN : TFld := ⟨7, 30, 1, 1⟩
/-- R383: 1 = honour received PFC -/
def BUF_PORT_PFC_RX_EN : TFld := ⟨7, 29, 1, 1⟩
/-- R383: classifier profile -/
def BUF_PORT_PROFILE : TFld := ⟨7, 24, 4, 0⟩
/-- R383: bit g = PG g is lossless -/
def BUF_PORT_LOSSLESS : TFld := ⟨7, 16, 8, 255⟩
/-- R383: bit q = queue q is a marking queue; R337 -/
def BUF_PORT_MARKQ : TFld := ⟨7, 0, 16, 0⟩
/-- R383: time sent with XOFF, 1–65,535 quanta; 0 is reserved -/
def BUF_PORT_PFC_QUANTA : TFld := ⟨7, 48, 16, 65535⟩
/-- R383: 0–10,000 µs; larger values are reserved -/
def BUF_PORT_DOWN_HOLD_US : TFld := ⟨7, 32, 14, 1000⟩
/-- R383: link state seen by the buffer -/
def BUF_PORT_LINK_UP : TFld := ⟨7, 95, 1, 0⟩
/-- R383: 1 = down-hold running -/
def BUF_PORT_HOLDING : TFld := ⟨7, 94, 1, 0⟩
/-- R383: bit p = priority p paused -/
def BUF_PORT_PAUSED_RX : TFld := ⟨7, 80, 8, 0⟩
/-- R383: bit g = PG g in XOFF -/
def BUF_PORT_XOFF_TX : TFld := ⟨7, 64, 8, 0⟩
/-- R383: bit q = queue q in watchdog discard -/
def BUF_PORT_WDOG_DISCARD : TFld := ⟨7, 96, 16, 0⟩
/-- R384: α, as R323 -/
def BUF_PG_ALPHA : TFld := ⟨8, 28, 4, 5⟩
/-- R384: ingress minimum in cells -/
def BUF_PG_MIN : TFld := ⟨8, 0, 20, 64⟩
/-- R384: cells, 0–4,095 -/
def BUF_PG_XON_OFS : TFld := ⟨8, 52, 12, 32⟩
/-- R384: headroom in cells; R318 -/
def BUF_PG_HDRM : TFld := ⟨8, 32, 20, 32⟩
/-- R384: A -/
def BUF_PG_USED : TFld := ⟨8, 64, 20, 0⟩
/-- R384: H -/
def BUF_PG_HDRM_USED : TFld := ⟨8, 96, 20, 0⟩
/-- R384: β, as R323 -/
def BUF_Q_BETA : TFld := ⟨9, 28, 4, 5⟩
/-- R384: egress minimum in cells -/
def BUF_Q_MIN : TFld := ⟨9, 0, 20, 32⟩
/-- R384: marking depth K in cells -/
def BUF_Q_MARK_K : TFld := ⟨9, 32, 20, 1024⟩
/-- R384: stop asserted -/
def BUF_Q_STOPPED : TFld := ⟨9, 95, 1, 0⟩
/-- R384: R374 -/
def BUF_Q_SPILLING : TFld := ⟨9, 94, 1, 0⟩
/-- R384: R334 -/
def BUF_Q_PAUSED : TFld := ⟨9, 93, 1, 0⟩
/-- R384: E, cells on the die -/
def BUF_Q_DEPTH : TFld := ⟨9, 64, 20, 0⟩
/-- R384: cells of the queue in the spill region -/
def BUF_Q_SPILLED : TFld := ⟨9, 96, 32, 0⟩
/-- R449: 1 = shaper active -/
def SHP_Q_EN : TFld := ⟨20, 31, 1, 0⟩
/-- R449: 1 = shaper active -/
def SHP_PORT_EN : TFld := ⟨21, 31, 1, 0⟩
/-- R449: 0 = native bucket; 1 = compatibility wake -/
def SHP_Q_MODE : TFld := ⟨20, 30, 1, 0⟩
/-- R449: 0 = native bucket; 1 = compatibility wake -/
def SHP_PORT_MODE : TFld := ⟨21, 30, 1, 0⟩
/-- R449: 1 = queue belongs to group RGRP -/
def SHP_Q_RGRP_EN : TFld := ⟨20, 29, 1, 0⟩
/-- R449: ramp group 0–63 -/
def SHP_Q_RGRP : TFld := ⟨20, 22, 6, 0⟩
/-- R449: signed overhead bytes, −128 to 127 -/
def SHP_Q_OVH : TFld := ⟨20, 0, 8, 20⟩
/-- R449: signed overhead bytes, −128 to 127 -/
def SHP_PORT_OVH : TFld := ⟨21, 0, 8, 20⟩
/-- R449: kb/s, 1–1,600,000,000; other values reserved -/
def SHP_Q_RATE : TFld := ⟨20, 32, 31, 1600000000⟩
/-- R449: kb/s, 1–1,600,000,000; other values reserved -/
def SHP_PORT_RATE : TFld := ⟨21, 32, 31, 1600000000⟩
/-- R449: bytes, 64–16,777,216; other values reserved -/
def SHP_Q_BURST : TFld := ⟨20, 64, 25, 65536⟩
/-- R449: bytes, 64–16,777,216; other values reserved -/
def SHP_PORT_BURST : TFld := ⟨21, 64, 25, 65536⟩
/-- R449: signed bucket level, whole bytes -/
def SHP_Q_LEVEL : TFld := ⟨20, 96, 32, 0⟩
/-- R449: signed bucket level, whole bytes -/
def SHP_PORT_LEVEL : TFld := ⟨21, 96, 32, 0⟩
/-- R450: 1 = group active; 0 = group always allows a start -/
def RMP_GRP_EN : TFld := ⟨22, 31, 1, 0⟩
/-- R450: steps per cycle minus 1, giving 1–256 -/
def RMP_GRP_STEPS : TFld := ⟨22, 16, 8, 0⟩
/-- R450: 1–65,535; 0 is reserved -/
def RMP_GRP_RAMP_CYCLES : TFld := ⟨22, 0, 16, 50⟩
/-- R450: kb/s; bit 31 reserved -/
def RMP_GRP_FLOOR : TFld := ⟨22, 32, 31, 100000000⟩
/-- R450: kb/s; bit 31 reserved -/
def RMP_GRP_CEIL : TFld := ⟨22, 64, 31, 1600000000⟩
/-- R450: 1–16,000,000 µs; bits [31:24] reserved -/
def RMP_GRP_IDLE_RESET_US : TFld := ⟨22, 96, 24, 10000⟩
/-- R450: bytes, 64–16,777,216; bits [31:25] reserved -/
def RMP_GRP_BURST : TFld := ⟨22, 128, 25, 1048576⟩
/-- R450: 0 = disabled; 1 = RESET; 2 = RAMPING; 3 = FULL -/
def RMP_GRP_STATE : TFld := ⟨22, 190, 2, 0⟩
/-- R450: n, saturating -/
def RMP_GRP_STEP_N : TFld := ⟨22, 160, 24, 0⟩
/-- R450: current limit, kb/s -/
def RMP_GRP_LIMIT : TFld := ⟨22, 192, 31, 0⟩
/-- R450: signed bucket level, bytes -/
def RMP_GRP_LEVEL : TFld := ⟨22, 224, 32, 0⟩
/-- R451: 1 = context active -/
def POL_CTX_EN : TFld := ⟨23, 31, 1, 0⟩
/-- R451: 1 = colour-aware -/
def POL_CTX_AWARE : TFld := ⟨23, 30, 1, 0⟩
/-- R451: R437 -/
def POL_CTX_Y_ACT : TFld := ⟨23, 28, 2, 0⟩
/-- R451: R437 -/
def POL_CTX_R_ACT : TFld := ⟨23, 26, 2, 2⟩
/-- R451: 0 = PCP; 1 = DEI; 2 = DSCP; 3 = reserved -/
def POL_CTX_RMK_KIND : TFld := ⟨23, 24, 2, 0⟩
/-- R451: 1 = sequence check -/
def POL_CTX_SEQ_EN : TFld := ⟨23, 23, 1, 0⟩
/-- R451: R441 -/
def POL_CTX_POISON : TFld := ⟨23, 22, 1, 0⟩
/-- R451: yellow remark value -/
def POL_CTX_Y_RMK : TFld := ⟨23, 16, 6, 0⟩
/-- R451: R439 -/
def POL_CTX_SEQ_SEEN : TFld := ⟨23, 14, 1, 0⟩
/-- R451: red remark value -/
def POL_CTX_R_RMK : TFld := ⟨23, 8, 6, 0⟩
/-- R451: signed bytes -/
def POL_CTX_OVH : TFld := ⟨23, 0, 8, 0⟩
/-- R451: kb/s -/
def POL_CTX_CIR : TFld := ⟨23, 32, 31, 0⟩
/-- R451: kb/s -/
def POL_CTX_PIR : TFld := ⟨23, 64, 31, 0⟩
/-- R451: bytes, up to 16,777,216 -/
def POL_CTX_CBS : TFld := ⟨23, 96, 25, 0⟩
/-- R451: bytes, up to 16,777,216 -/
def POL_CTX_PBS : TFld := ⟨23, 128, 25, 0⟩
/-- R451: L -/
def POL_CTX_LAST_SEQ : TFld := ⟨23, 160, 32, 0⟩
/-- R451: saturating -/
def POL_CTX_DUP_CNT : TFld := ⟨23, 496, 16, 0⟩
/-- R451: saturating -/
def POL_CTX_GAP_CNT : TFld := ⟨23, 480, 16, 0⟩
/-- R497: 0 = IDLE; 1 = ACTIVE; 2 = FAILED; 3 = POISONED -/
def FOC_CTX_STATE : TFld := ⟨24, 29, 2, 0⟩
/-- R497: generation -/
def FOC_CTX_GEN : TFld := ⟨24, 25, 4, 0⟩
/-- R497: op of R457 -/
def FOC_CTX_OP : TFld := ⟨24, 21, 4, 0⟩
/-- R497: type of R457 -/
def FOC_CTX_TYPE : TFld := ⟨24, 17, 4, 0⟩
/-- R497: W = 2^W_LOG2 -/
def FOC_CTX_W_LOG2 : TFld := ⟨24, 14, 3, 0⟩
/-- R497: R471 -/
def FOC_CTX_FP8_SAT : TFld := ⟨24, 13, 1, 0⟩
/-- R497: bit d = die d in the set -/
def FOC_CTX_DIESET : TFld := ⟨24, 56, 8, 0⟩
/-- R497: root die -/
def FOC_CTX_ROOT : TFld := ⟨24, 53, 3, 0⟩
/-- R497: pipeline of R475 and R482 -/
def FOC_CTX_PIPE : TFld := ⟨24, 50, 3, 0⟩
/-- R497: PG charged by injection -/
def FOC_CTX_RES_PG : TFld := ⟨24, 47, 3, 0⟩
/-- R497: TC of injected frames -/
def FOC_CTX_RES_TC : TFld := ⟨24, 44, 3, 0⟩
/-- R497: largest element count − 1 -/
def FOC_CTX_MAXE_M1 : TFld := ⟨24, 32, 12, 0⟩
/-- R497: 2–2,048 -/
def FOC_CTX_MEMBERS : TFld := ⟨24, 80, 12, 0⟩
/-- R497: multicast group, returned by TABLE 0x06 -/
def FOC_CTX_MCG : TFld := ⟨24, 64, 14, 0⟩
/-- R497: chunk timeout, 1–4,000,000 µs -/
def FOC_CTX_TIMEOUT_US : TFld := ⟨24, 96, 22, 0⟩
/-- R497: first member entry on this die -/
def FOC_CTX_MBR_BASE : TFld := ⟨24, 144, 15, 0⟩
/-- R497: local members, 0–2,048 -/
def FOC_CTX_MBR_COUNT : TFld := ⟨24, 128, 12, 0⟩
/-- R497: 1 = template holds IPv6 -/
def FOC_CTX_TPL_V6 : TFld := ⟨24, 191, 1, 0⟩
/-- R497: template bytes, 42–64 -/
def FOC_CTX_TPL_LEN : TFld := ⟨24, 184, 7, 0⟩
/-- R497: IP header offset in the template -/
def FOC_CTX_IP_OFS : TFld := ⟨24, 176, 6, 0⟩
/-- R497: ingress port of injected frames -/
def FOC_CTX_RES_SRC_PORT : TFld := ⟨24, 160, 11, 0⟩
/-- R497: window base -/
def FOC_CTX_BASE : TFld := ⟨24, 192, 20, 0⟩
/-- R497: lines reserved on this die -/
def FOC_CTX_RES_LINES : TFld := ⟨24, 224, 20, 0⟩
/-- R566: 1 = port enabled; R541, R545 -/
def PRT_PORT_EN : TFld := ⟨29, 31, 1, 0⟩
/-- R566: 1 = auto-negotiation; R539 -/
def PRT_PORT_AN_EN : TFld := ⟨29, 30, 1, 1⟩
/-- R566: 1 = link training; R540 -/
def PRT_PORT_TRAIN_EN : TFld := ⟨29, 29, 1, 1⟩
/-- R566: lane state while EN is 0: 0 = L0; 1 = L1; 2 = L2; 3 = reserved; R559 -/
def PRT_PORT_LSTATE_REQ : TFld := ⟨29, 27, 2, 2⟩
/-- R566: bytes, 1,518–16,352; other values reserved -/
def PRT_PORT_MTU : TFld := ⟨29, 0, 14, 9216⟩
/-- R566: source MAC address [31:0] -/
def PRT_PORT_MAC_LO : TFld := ⟨29, 32, 32, 0⟩
/-- R566: source MAC address [47:32] -/
def PRT_PORT_MAC_HI : TFld := ⟨29, 64, 16, 0⟩
/-- R566: 0 = disabled, lanes in L0; 1 = negotiating, while Clause 73 runs; 2 = training or awaiting link-up: from the end of nego -/
def PRT_PORT_LINK_STATE : TFld := ⟨29, 125, 3, 6⟩
/-- R566: local fault received -/
def PRT_PORT_LOCAL_FAULT : TFld := ⟨29, 124, 1, 0⟩
/-- R566: remote fault received -/
def PRT_PORT_REMOTE_FAULT : TFld := ⟨29, 123, 1, 0⟩
/-- R566: R539 -/
def PRT_PORT_AN_MISMATCH : TFld := ⟨29, 122, 1, 0⟩
/-- R566: R542–R545; saturates at 255 -/
def PRT_PORT_ATTEMPT : TFld := ⟨29, 112, 8, 0⟩
/-- R566: corrected codewords; saturating -/
def PRT_PORT_CORR_CW : TFld := ⟨29, 128, 32, 0⟩
/-- R566: uncorrectable codewords; saturating -/
def PRT_PORT_UNCORR_CW : TFld := ⟨29, 160, 32, 0⟩
/-- R566: link-downs under R544; saturating -/
def PRT_PORT_LINK_DOWN_CNT : TFld := ⟨29, 192, 32, 0⟩
/-- R208: the whole entry -/
def PRS_TCAM_ENTRY : TFld := ⟨1, 0, 256, 0⟩
/-- R230 -/
def HVX_MCG_PIPES : TFld := ⟨2, 0, 64, 0⟩
/-- R230 -/
def HVX_MCG_MEMBERS : TFld := ⟨2, 64, 32, 0⟩
/-- R248: template bytes, or length and fields -/
def HVX_TPL_ENTRY : TFld := ⟨3, 0, 512, 0⟩
/-- R382: PCP map -/
def BUF_CLS_PCP : TFld := ⟨6, 32, 48, 280836711457344⟩
/-- R382: DSCP map -/
def BUF_CLS_DSCP : TFld := ⟨6, 96, 384, 39402006196394459214558127798249259079857978708069756720893864162712968222054459930004234876501267238496062532485120⟩
/-- R385 -/
def BUF_PFCRX_QMASK0 : TFld := ⟨10, 0, 16, 257⟩
/-- R385 -/
def BUF_PFCRX_QMASK1 : TFld := ⟨10, 16, 16, 514⟩
/-- R385 -/
def BUF_PFCRX_QMASK2 : TFld := ⟨10, 32, 16, 1028⟩
/-- R385 -/
def BUF_PFCRX_QMASK3 : TFld := ⟨10, 48, 16, 2056⟩
/-- R385 -/
def BUF_PFCRX_QMASK4 : TFld := ⟨10, 64, 16, 4112⟩
/-- R385 -/
def BUF_PFCRX_QMASK5 : TFld := ⟨10, 80, 16, 8224⟩
/-- R385 -/
def BUF_PFCRX_QMASK6 : TFld := ⟨10, 96, 16, 16448⟩
/-- R385 -/
def BUF_PFCRX_QMASK7 : TFld := ⟨10, 112, 16, 32896⟩
/-- R386 -/
def BUF_PSTAT_IN_DROP_LOSSY : TFld := ⟨11, 0, 32, 0⟩
/-- R386 -/
def BUF_PSTAT_IN_DROP_HDRM : TFld := ⟨11, 32, 32, 0⟩
/-- R386 -/
def BUF_PSTAT_EG_DROP_LIMIT : TFld := ⟨11, 64, 32, 0⟩
/-- R386 -/
def BUF_PSTAT_CE_MARKED : TFld := ⟨11, 96, 32, 0⟩
/-- R386 -/
def BUF_PSTAT_FLUSH_DROP : TFld := ⟨11, 128, 32, 0⟩
/-- R386 -/
def BUF_PSTAT_DOWN_DROP : TFld := ⟨11, 160, 32, 0⟩
/-- R386 -/
def BUF_PSTAT_PFC_TX_FRAMES : TFld := ⟨11, 192, 32, 0⟩
/-- R386 -/
def BUF_PSTAT_PFC_RX_FRAMES : TFld := ⟨11, 224, 32, 0⟩
/-- R387 -/
def BUF_VOQ_DEPTH : TFld := ⟨12, 0, 20, 0⟩
/-- R387 -/
def BUF_STOP_STOPS : TFld := ⟨13, 0, 16, 0⟩
/-- R389 -/
def MER_PORT_PARCELS_TX : TFld := ⟨14, 0, 32, 0⟩
/-- R389 -/
def MER_PORT_CELLS_TX : TFld := ⟨14, 32, 32, 0⟩
/-- R389 -/
def MER_PORT_PARCELS_RX : TFld := ⟨14, 64, 32, 0⟩
/-- R389 -/
def MER_PORT_NACKS_TX : TFld := ⟨14, 96, 32, 0⟩
/-- R389 -/
def MER_PORT_NACKS_RX : TFld := ⟨14, 128, 32, 0⟩
/-- R389 -/
def MER_PORT_REPLAYS : TFld := ⟨14, 160, 32, 0⟩
/-- R389 -/
def MER_PORT_ACK_TMOS : TFld := ⟨14, 192, 32, 0⟩
/-- R389 -/
def MER_PORT_ROTATION_MATCHES : TFld := ⟨14, 224, 32, 0⟩
/-- R389 -/
def MER_PORT_FAULT : TFld := ⟨14, 287, 1, 0⟩
/-- R389 -/
def MER_PORT_IN_USE : TFld := ⟨14, 286, 1, 0⟩
/-- R446 -/
def STB_COMP_RX_COMP : TFld := ⟨15, 0, 32, 0⟩
/-- R446 -/
def STB_COMP_TX_COMP : TFld := ⟨15, 32, 32, 0⟩
/-- R447 -/
def EPH_PORT_EN : TFld := ⟨16, 31, 1, 0⟩
/-- R447 -/
def EPH_PORT_ACTIVE : TFld := ⟨16, 30, 1, 0⟩
/-- R447 -/
def EPH_PORT_SWAP_STATE : TFld := ⟨16, 28, 2, 0⟩
/-- R447 -/
def EPH_PORT_COUNT : TFld := ⟨16, 0, 9, 0⟩
/-- R447 -/
def EPH_LIST_START : TFld := ⟨17, 0, 32, 0⟩
/-- R447 -/
def EPH_LIST_MASK : TFld := ⟨17, 32, 16, 0⟩
/-- R448 -/
def SCH_PORT_NSTRICT : TFld := ⟨18, 0, 3, 0⟩
/-- R448 -/
def SCH_QCFG_QUANTUM : TFld := ⟨19, 0, 12, 160⟩
/-- R448 -/
def SCH_QCFG_DEFICIT : TFld := ⟨19, 32, 24, 0⟩
/-- R448 -/
def SCH_QCFG_EFF_QUANTUM : TFld := ⟨19, 64, 12, 160⟩
/-- R451 -/
def POL_CTX_GREEN_BYTES : TFld := ⟨23, 192, 64, 0⟩
/-- R451 -/
def POL_CTX_GREEN_PKTS : TFld := ⟨23, 384, 32, 0⟩
/-- R451 -/
def POL_CTX_YELLOW_BYTES : TFld := ⟨23, 256, 64, 0⟩
/-- R451 -/
def POL_CTX_YELLOW_PKTS : TFld := ⟨23, 416, 32, 0⟩
/-- R451 -/
def POL_CTX_RED_BYTES : TFld := ⟨23, 320, 64, 0⟩
/-- R451 -/
def POL_CTX_RED_PKTS : TFld := ⟨23, 448, 32, 0⟩
/-- R498 -/
def FOC_MBR_VALID : TFld := ⟨25, 31, 1, 0⟩
/-- R498 -/
def FOC_MBR_MEMBER : TFld := ⟨25, 16, 12, 0⟩
/-- R498 -/
def FOC_MBR_PORT : TFld := ⟨25, 0, 11, 0⟩
/-- R498 -/
def FOC_CSTAT_CONTRIB : TFld := ⟨26, 0, 32, 0⟩
/-- R498 -/
def FOC_CSTAT_DUP : TFld := ⟨26, 32, 32, 0⟩
/-- R498 -/
def FOC_CSTAT_LATE : TFld := ⟨26, 64, 32, 0⟩
/-- R498 -/
def FOC_CSTAT_SHAPE : TFld := ⟨26, 96, 32, 0⟩
/-- R498 -/
def FOC_CSTAT_FAILDROP : TFld := ⟨26, 128, 32, 0⟩
/-- R498 -/
def FOC_CSTAT_TIMEOUT : TFld := ⟨26, 160, 32, 0⟩
/-- R498 -/
def FOC_CSTAT_RESULT : TFld := ⟨26, 192, 32, 0⟩
/-- R498 -/
def FOC_TPL_BYTES : TFld := ⟨27, 0, 512, 0⟩
/-- R564 -/
def LAN_RTC_GRID_DISAGREE : TFld := ⟨28, 0, 32, 0⟩
/-- R604 -/
def SHN_WIRE_ERRORS : TFld := ⟨30, 0, 32, 0⟩
/-- R604 -/
def SHN_WIRE_SPARED : TFld := ⟨30, 63, 1, 0⟩
/-- R604 -/
def SHN_WIRE_SPARE : TFld := ⟨30, 56, 2, 0⟩
/-- R604 -/
def SHN_WIRE_MARGIN : TFld := ⟨30, 32, 16, 0⟩
/-- R604 -/
def M_SHN_WIRE_ERRORS : TFld := ⟨31, 0, 32, 0⟩
/-- R604 -/
def M_SHN_WIRE_SPARED : TFld := ⟨31, 63, 1, 0⟩
/-- R604 -/
def M_SHN_WIRE_SPARE : TFld := ⟨31, 56, 2, 0⟩
/-- R604 -/
def M_SHN_WIRE_MARGIN : TFld := ⟨31, 32, 16, 0⟩
/-- R659 -/
def PMU_MON_VALUE : TFld := ⟨33, 0, 16, 0⟩
/-- R659 -/
def M_PMU_MON_VALUE : TFld := ⟨34, 0, 16, 0⟩
/-- R774 -/
def CNT_PSTAT_VALUE : TFld := ⟨39, 0, 64, 0⟩
/-- R775 -/
def TRC_PROF_TAG : TFld := ⟨40, 16, 16, 0⟩
/-- R775 -/
def TRC_PROF_UDP_HDR : TFld := ⟨40, 8, 5, 2⟩
/-- R775 -/
def TRC_PROF_COLL_TC : TFld := ⟨40, 4, 3, 0⟩
/-- R775 -/
def TRC_PROF_SAMPLE : TFld := ⟨40, 0, 4, 0⟩
/-- R775 -/
def TRC_PROF_COLL_SRC_PORT : TFld := ⟨40, 48, 11, 0⟩
/-- R775 -/
def TRC_PROF_SNAP : TFld := ⟨40, 32, 3, 2⟩
/-- R775 -/
def TRC_PROF_V6 : TFld := ⟨40, 95, 1, 0⟩
/-- R775 -/
def TRC_PROF_TPL_LEN : TFld := ⟨40, 88, 7, 42⟩
/-- R775 -/
def TRC_PROF_IP_OFS : TFld := ⟨40, 80, 6, 14⟩
/-- R775 -/
def TRC_TPL_BYTES : TFld := ⟨41, 0, 512, 0⟩

end T

/-- One row of an entry layout. -/
structure TabRow where
  fld : TFld
  acc : Acc
  min : Nat
  max : Nat
  deriving DecidableEq, Repr

/-- How a window behaves: plain entries, read only (R387), the stage stores (R187), the filter table (R304), region
contents (R620). -/
inductive WinBehaviour where
  | rw
  | ro
  | store
  | filter
  | cxl
  deriving DecidableEq, Repr

/-- An indirect window (R95). -/
structure IndWin where
  tab : Nat
  port : Bool
  page : Nat
  pages : Nat
  base : Nat
  count : Nat
  kind : WinBehaviour
  deriving DecidableEq, Repr

/-- Entry-layout rows, part 0. -/
def tabRows0 : List TabRow := [
  ⟨T.BUF_CLS_MODE, .rw, 0, 3⟩,
  ⟨T.BUF_CLS_DEF_PG, .rw, 0, 7⟩,
  ⟨T.BUF_CLS_DEF_TC, .rw, 0, 7⟩,
  ⟨T.BUF_PORT_CT_EN, .rw, 0, 1⟩,
  ⟨T.BUF_PORT_PFC_TX_EN, .rw, 0, 1⟩,
  ⟨T.BUF_PORT_PFC_RX_EN, .rw, 0, 1⟩,
  ⟨T.BUF_PORT_PROFILE, .rw, 0, 15⟩,
  ⟨T.BUF_PORT_LOSSLESS, .rw, 0, 255⟩,
  ⟨T.BUF_PORT_MARKQ, .rw, 0, 65535⟩,
  ⟨T.BUF_PORT_PFC_QUANTA, .rw, 1, 65535⟩,
  ⟨T.BUF_PORT_DOWN_HOLD_US, .rw, 0, 10000⟩,
  ⟨T.BUF_PORT_LINK_UP, .ro, 0, 1⟩,
  ⟨T.BUF_PORT_HOLDING, .ro, 0, 1⟩,
  ⟨T.BUF_PORT_PAUSED_RX, .ro, 0, 255⟩,
  ⟨T.BUF_PORT_XOFF_TX, .ro, 0, 255⟩,
  ⟨T.BUF_PORT_WDOG_DISCARD, .ro, 0, 65535⟩,
  ⟨T.BUF_PG_ALPHA, .rw, 0, 9⟩,
  ⟨T.BUF_PG_MIN, .rw, 0, 1048575⟩,
  ⟨T.BUF_PG_XON_OFS, .rw, 0, 4095⟩,
  ⟨T.BUF_PG_HDRM, .rw, 0, 1048575⟩,
  ⟨T.BUF_PG_USED, .ro, 0, 1048575⟩,
  ⟨T.BUF_PG_HDRM_USED, .ro, 0, 1048575⟩,
  ⟨T.BUF_Q_BETA, .rw, 0, 9⟩,
  ⟨T.BUF_Q_MIN, .rw, 0, 1048575⟩,
  ⟨T.BUF_Q_MARK_K, .rw, 0, 1048575⟩,
  ⟨T.BUF_Q_STOPPED, .ro, 0, 1⟩,
  ⟨T.BUF_Q_SPILLING, .ro, 0, 1⟩,
  ⟨T.BUF_Q_PAUSED, .ro, 0, 1⟩,
  ⟨T.BUF_Q_DEPTH, .ro, 0, 1048575⟩,
  ⟨T.BUF_Q_SPILLED, .ro, 0, 4294967295⟩,
  ⟨T.SHP_Q_EN, .rw, 0, 1⟩,
  ⟨T.SHP_PORT_EN, .rw, 0, 1⟩,
  ⟨T.SHP_Q_MODE, .rw, 0, 1⟩,
  ⟨T.SHP_PORT_MODE, .rw, 0, 1⟩,
  ⟨T.SHP_Q_RGRP_EN, .rw, 0, 1⟩,
  ⟨T.SHP_Q_RGRP, .rw, 0, 63⟩,
  ⟨T.SHP_Q_OVH, .rw, 0, 255⟩,
  ⟨T.SHP_PORT_OVH, .rw, 0, 255⟩,
  ⟨T.SHP_Q_RATE, .rw, 1, 1600000000⟩,
  ⟨T.SHP_PORT_RATE, .rw, 1, 1600000000⟩,
  ⟨T.SHP_Q_BURST, .rw, 64, 16777216⟩,
  ⟨T.SHP_PORT_BURST, .rw, 64, 16777216⟩,
  ⟨T.SHP_Q_LEVEL, .ro, 0, 4294967295⟩,
  ⟨T.SHP_PORT_LEVEL, .ro, 0, 4294967295⟩,
  ⟨T.RMP_GRP_EN, .rw, 0, 1⟩,
  ⟨T.RMP_GRP_STEPS, .rw, 0, 255⟩,
  ⟨T.RMP_GRP_RAMP_CYCLES, .rw, 1, 65535⟩,
  ⟨T.RMP_GRP_FLOOR, .rw, 0, 2147483647⟩,
  ⟨T.RMP_GRP_CEIL, .rw, 0, 2147483647⟩,
  ⟨T.RMP_GRP_IDLE_RESET_US, .rw, 1, 16000000⟩,
  ⟨T.RMP_GRP_BURST, .rw, 64, 16777216⟩,
  ⟨T.RMP_GRP_STATE, .ro, 0, 3⟩,
  ⟨T.RMP_GRP_STEP_N, .ro, 0, 16777215⟩,
  ⟨T.RMP_GRP_LIMIT, .ro, 0, 2147483647⟩,
  ⟨T.RMP_GRP_LEVEL, .ro, 0, 4294967295⟩,
  ⟨T.POL_CTX_EN, .rw, 0, 1⟩,
  ⟨T.POL_CTX_AWARE, .rw, 0, 1⟩,
  ⟨T.POL_CTX_Y_ACT, .rw, 0, 3⟩,
  ⟨T.POL_CTX_R_ACT, .rw, 0, 3⟩,
  ⟨T.POL_CTX_RMK_KIND, .rw, 0, 3⟩]

/-- Entry-layout rows, part 1. -/
def tabRows1 : List TabRow := [
  ⟨T.POL_CTX_SEQ_EN, .rw, 0, 1⟩,
  ⟨T.POL_CTX_POISON, .ro, 0, 1⟩,
  ⟨T.POL_CTX_Y_RMK, .rw, 0, 63⟩,
  ⟨T.POL_CTX_SEQ_SEEN, .ro, 0, 1⟩,
  ⟨T.POL_CTX_R_RMK, .rw, 0, 63⟩,
  ⟨T.POL_CTX_OVH, .rw, 0, 255⟩,
  ⟨T.POL_CTX_CIR, .rw, 0, 2147483647⟩,
  ⟨T.POL_CTX_PIR, .rw, 0, 2147483647⟩,
  ⟨T.POL_CTX_CBS, .rw, 0, 33554431⟩,
  ⟨T.POL_CTX_PBS, .rw, 0, 33554431⟩,
  ⟨T.POL_CTX_LAST_SEQ, .ro, 0, 4294967295⟩,
  ⟨T.POL_CTX_DUP_CNT, .ro, 0, 65535⟩,
  ⟨T.POL_CTX_GAP_CNT, .ro, 0, 65535⟩,
  ⟨T.FOC_CTX_STATE, .ro, 0, 3⟩,
  ⟨T.FOC_CTX_GEN, .ro, 0, 15⟩,
  ⟨T.FOC_CTX_OP, .rw, 0, 15⟩,
  ⟨T.FOC_CTX_TYPE, .rw, 0, 15⟩,
  ⟨T.FOC_CTX_W_LOG2, .rw, 0, 7⟩,
  ⟨T.FOC_CTX_FP8_SAT, .rw, 0, 1⟩,
  ⟨T.FOC_CTX_DIESET, .rw, 0, 255⟩,
  ⟨T.FOC_CTX_ROOT, .rw, 0, 7⟩,
  ⟨T.FOC_CTX_PIPE, .rw, 0, 7⟩,
  ⟨T.FOC_CTX_RES_PG, .rw, 0, 7⟩,
  ⟨T.FOC_CTX_RES_TC, .rw, 0, 7⟩,
  ⟨T.FOC_CTX_MAXE_M1, .rw, 0, 4095⟩,
  ⟨T.FOC_CTX_MEMBERS, .rw, 0, 4095⟩,
  ⟨T.FOC_CTX_MCG, .rw, 0, 16383⟩,
  ⟨T.FOC_CTX_TIMEOUT_US, .rw, 0, 4194303⟩,
  ⟨T.FOC_CTX_MBR_BASE, .rw, 0, 32767⟩,
  ⟨T.FOC_CTX_MBR_COUNT, .rw, 0, 4095⟩,
  ⟨T.FOC_CTX_TPL_V6, .rw, 0, 1⟩,
  ⟨T.FOC_CTX_TPL_LEN, .rw, 0, 127⟩,
  ⟨T.FOC_CTX_IP_OFS, .rw, 0, 63⟩,
  ⟨T.FOC_CTX_RES_SRC_PORT, .rw, 0, 2047⟩,
  ⟨T.FOC_CTX_BASE, .ro, 0, 1048575⟩,
  ⟨T.FOC_CTX_RES_LINES, .ro, 0, 1048575⟩,
  ⟨T.PRT_PORT_EN, .rw, 0, 1⟩,
  ⟨T.PRT_PORT_AN_EN, .rw, 0, 1⟩,
  ⟨T.PRT_PORT_TRAIN_EN, .rw, 0, 1⟩,
  ⟨T.PRT_PORT_LSTATE_REQ, .rw, 0, 2⟩,
  ⟨T.PRT_PORT_MTU, .rw, 1518, 16352⟩,
  ⟨T.PRT_PORT_MAC_LO, .rw, 0, 4294967295⟩,
  ⟨T.PRT_PORT_MAC_HI, .rw, 0, 65535⟩,
  ⟨T.PRT_PORT_LINK_STATE, .ro, 0, 7⟩,
  ⟨T.PRT_PORT_LOCAL_FAULT, .ro, 0, 1⟩,
  ⟨T.PRT_PORT_REMOTE_FAULT, .ro, 0, 1⟩,
  ⟨T.PRT_PORT_AN_MISMATCH, .ro, 0, 1⟩,
  ⟨T.PRT_PORT_ATTEMPT, .ro, 0, 255⟩,
  ⟨T.PRT_PORT_CORR_CW, .ro, 0, 4294967295⟩,
  ⟨T.PRT_PORT_UNCORR_CW, .ro, 0, 4294967295⟩,
  ⟨T.PRT_PORT_LINK_DOWN_CNT, .ro, 0, 4294967295⟩,
  ⟨T.PRS_TCAM_ENTRY, .rw, 0, 115792089237316195423570985008687907853269984665640564039457584007913129639935⟩,
  ⟨T.HVX_MCG_PIPES, .rw, 0, 18446744073709551615⟩,
  ⟨T.HVX_MCG_MEMBERS, .rw, 0, 4294967295⟩,
  ⟨T.HVX_TPL_ENTRY, .rw, 0, 13407807929942597099574024998205846127479365820592393377723561443721764030073546976801874298166903427690031858186486050853753882811946569946433649006084095⟩,
  ⟨T.BUF_CLS_PCP, .rw, 0, 281474976710655⟩,
  ⟨T.BUF_CLS_DSCP, .rw, 0, 39402006196394479212279040100143613805079739270465446667948293404245721771497210611414266254884915640806627990306815⟩,
  ⟨T.BUF_PFCRX_QMASK0, .rw, 0, 65535⟩,
  ⟨T.BUF_PFCRX_QMASK1, .rw, 0, 65535⟩,
  ⟨T.BUF_PFCRX_QMASK2, .rw, 0, 65535⟩]

/-- Entry-layout rows, part 2. -/
def tabRows2 : List TabRow := [
  ⟨T.BUF_PFCRX_QMASK3, .rw, 0, 65535⟩,
  ⟨T.BUF_PFCRX_QMASK4, .rw, 0, 65535⟩,
  ⟨T.BUF_PFCRX_QMASK5, .rw, 0, 65535⟩,
  ⟨T.BUF_PFCRX_QMASK6, .rw, 0, 65535⟩,
  ⟨T.BUF_PFCRX_QMASK7, .rw, 0, 65535⟩,
  ⟨T.BUF_PSTAT_IN_DROP_LOSSY, .ro, 0, 4294967295⟩,
  ⟨T.BUF_PSTAT_IN_DROP_HDRM, .ro, 0, 4294967295⟩,
  ⟨T.BUF_PSTAT_EG_DROP_LIMIT, .ro, 0, 4294967295⟩,
  ⟨T.BUF_PSTAT_CE_MARKED, .ro, 0, 4294967295⟩,
  ⟨T.BUF_PSTAT_FLUSH_DROP, .ro, 0, 4294967295⟩,
  ⟨T.BUF_PSTAT_DOWN_DROP, .ro, 0, 4294967295⟩,
  ⟨T.BUF_PSTAT_PFC_TX_FRAMES, .ro, 0, 4294967295⟩,
  ⟨T.BUF_PSTAT_PFC_RX_FRAMES, .ro, 0, 4294967295⟩,
  ⟨T.BUF_VOQ_DEPTH, .ro, 0, 1048575⟩,
  ⟨T.BUF_STOP_STOPS, .ro, 0, 65535⟩,
  ⟨T.MER_PORT_PARCELS_TX, .ro, 0, 4294967295⟩,
  ⟨T.MER_PORT_CELLS_TX, .ro, 0, 4294967295⟩,
  ⟨T.MER_PORT_PARCELS_RX, .ro, 0, 4294967295⟩,
  ⟨T.MER_PORT_NACKS_TX, .ro, 0, 4294967295⟩,
  ⟨T.MER_PORT_NACKS_RX, .ro, 0, 4294967295⟩,
  ⟨T.MER_PORT_REPLAYS, .ro, 0, 4294967295⟩,
  ⟨T.MER_PORT_ACK_TMOS, .ro, 0, 4294967295⟩,
  ⟨T.MER_PORT_ROTATION_MATCHES, .ro, 0, 4294967295⟩,
  ⟨T.MER_PORT_FAULT, .ro, 0, 1⟩,
  ⟨T.MER_PORT_IN_USE, .ro, 0, 1⟩,
  ⟨T.STB_COMP_RX_COMP, .rw, 0, 4294967295⟩,
  ⟨T.STB_COMP_TX_COMP, .rw, 0, 4294967295⟩,
  ⟨T.EPH_PORT_EN, .rw, 0, 1⟩,
  ⟨T.EPH_PORT_ACTIVE, .ro, 0, 1⟩,
  ⟨T.EPH_PORT_SWAP_STATE, .ro, 0, 3⟩,
  ⟨T.EPH_PORT_COUNT, .ro, 0, 511⟩,
  ⟨T.EPH_LIST_START, .rw, 0, 4294967295⟩,
  ⟨T.EPH_LIST_MASK, .rw, 0, 65535⟩,
  ⟨T.SCH_PORT_NSTRICT, .rw, 0, 4⟩,
  ⟨T.SCH_QCFG_QUANTUM, .rw, 1, 4095⟩,
  ⟨T.SCH_QCFG_DEFICIT, .ro, 0, 16777215⟩,
  ⟨T.SCH_QCFG_EFF_QUANTUM, .ro, 0, 4095⟩,
  ⟨T.POL_CTX_GREEN_BYTES, .ro, 0, 18446744073709551615⟩,
  ⟨T.POL_CTX_GREEN_PKTS, .ro, 0, 4294967295⟩,
  ⟨T.POL_CTX_YELLOW_BYTES, .ro, 0, 18446744073709551615⟩,
  ⟨T.POL_CTX_YELLOW_PKTS, .ro, 0, 4294967295⟩,
  ⟨T.POL_CTX_RED_BYTES, .ro, 0, 18446744073709551615⟩,
  ⟨T.POL_CTX_RED_PKTS, .ro, 0, 4294967295⟩,
  ⟨T.FOC_MBR_VALID, .rw, 0, 1⟩,
  ⟨T.FOC_MBR_MEMBER, .rw, 0, 4095⟩,
  ⟨T.FOC_MBR_PORT, .rw, 0, 2047⟩,
  ⟨T.FOC_CSTAT_CONTRIB, .ro, 0, 4294967295⟩,
  ⟨T.FOC_CSTAT_DUP, .ro, 0, 4294967295⟩,
  ⟨T.FOC_CSTAT_LATE, .ro, 0, 4294967295⟩,
  ⟨T.FOC_CSTAT_SHAPE, .ro, 0, 4294967295⟩,
  ⟨T.FOC_CSTAT_FAILDROP, .ro, 0, 4294967295⟩,
  ⟨T.FOC_CSTAT_TIMEOUT, .ro, 0, 4294967295⟩,
  ⟨T.FOC_CSTAT_RESULT, .ro, 0, 4294967295⟩,
  ⟨T.FOC_TPL_BYTES, .rw, 0, 13407807929942597099574024998205846127479365820592393377723561443721764030073546976801874298166903427690031858186486050853753882811946569946433649006084095⟩,
  ⟨T.LAN_RTC_GRID_DISAGREE, .ro, 0, 4294967295⟩,
  ⟨T.SHN_WIRE_ERRORS, .ro, 0, 4294967295⟩,
  ⟨T.SHN_WIRE_SPARED, .ro, 0, 1⟩,
  ⟨T.SHN_WIRE_SPARE, .ro, 0, 3⟩,
  ⟨T.SHN_WIRE_MARGIN, .ro, 0, 65535⟩,
  ⟨T.M_SHN_WIRE_ERRORS, .ro, 0, 4294967295⟩]

/-- Entry-layout rows, part 3. -/
def tabRows3 : List TabRow := [
  ⟨T.M_SHN_WIRE_SPARED, .ro, 0, 1⟩,
  ⟨T.M_SHN_WIRE_SPARE, .ro, 0, 3⟩,
  ⟨T.M_SHN_WIRE_MARGIN, .ro, 0, 65535⟩,
  ⟨T.PMU_MON_VALUE, .ro, 0, 65535⟩,
  ⟨T.M_PMU_MON_VALUE, .ro, 0, 65535⟩,
  ⟨T.CNT_PSTAT_VALUE, .ro, 0, 18446744073709551615⟩,
  ⟨T.TRC_PROF_TAG, .rw, 0, 65535⟩,
  ⟨T.TRC_PROF_UDP_HDR, .rw, 0, 31⟩,
  ⟨T.TRC_PROF_COLL_TC, .rw, 0, 7⟩,
  ⟨T.TRC_PROF_SAMPLE, .rw, 0, 15⟩,
  ⟨T.TRC_PROF_COLL_SRC_PORT, .rw, 0, 2047⟩,
  ⟨T.TRC_PROF_SNAP, .rw, 1, 4⟩,
  ⟨T.TRC_PROF_V6, .rw, 0, 1⟩,
  ⟨T.TRC_PROF_TPL_LEN, .rw, 42, 64⟩,
  ⟨T.TRC_PROF_IP_OFS, .rw, 0, 63⟩,
  ⟨T.TRC_TPL_BYTES, .rw, 0, 13407807929942597099574024998205846127479365820592393377723561443721764030073546976801874298166903427690031858186486050853753882811946569946433649006084095⟩]

/-- Every entry-layout row. -/
def tabRows : List TabRow := tabRows0 ++ tabRows1 ++ tabRows2 ++ tabRows3

/-- Every indirect window. -/
def indWins : List IndWin := [
  ⟨0, true, 0x8, 8, 0x200, 73728, .store⟩,
  ⟨1, true, 0x10, 8, 0x200, 256, .rw⟩,
  ⟨2, true, 0x18, 8, 0x200, 16384, .rw⟩,
  ⟨3, true, 0x18, 8, 0x300, 512, .rw⟩,
  ⟨4, true, 0x22, 1, 0x200, 262176, .ro⟩,
  ⟨5, true, 0x27, 1, 0x200, 16384, .filter⟩,
  ⟨6, true, 0x29, 1, 0x200, 16, .rw⟩,
  ⟨7, true, 0x2a, 1, 0x200, 256, .rw⟩,
  ⟨8, true, 0x2b, 1, 0x200, 2048, .rw⟩,
  ⟨9, true, 0x2c, 1, 0x200, 4096, .rw⟩,
  ⟨10, true, 0x2d, 1, 0x200, 256, .rw⟩,
  ⟨11, true, 0x2e, 1, 0x200, 256, .ro⟩,
  ⟨12, true, 0x2f, 1, 0x200, 4096, .ro⟩,
  ⟨13, true, 0x2f, 1, 0x400, 2048, .ro⟩,
  ⟨14, false, 0x11, 1, 0x200, 68, .ro⟩,
  ⟨15, true, 0x5d, 1, 0x200, 256, .rw⟩,
  ⟨16, true, 0x50, 8, 0x200, 32, .rw⟩,
  ⟨17, true, 0x50, 8, 0x400, 16384, .rw⟩,
  ⟨18, true, 0x38, 8, 0x200, 32, .rw⟩,
  ⟨19, true, 0x38, 8, 0x400, 512, .rw⟩,
  ⟨20, true, 0x40, 8, 0x200, 512, .rw⟩,
  ⟨21, true, 0x40, 8, 0x400, 32, .rw⟩,
  ⟨22, true, 0x58, 1, 0x200, 64, .rw⟩,
  ⟨23, true, 0x49, 1, 0x200, 16384, .rw⟩,
  ⟨24, true, 0x61, 1, 0x200, 512, .rw⟩,
  ⟨25, true, 0x62, 1, 0x200, 32768, .rw⟩,
  ⟨26, true, 0x63, 1, 0x200, 512, .ro⟩,
  ⟨27, true, 0x64, 1, 0x200, 512, .rw⟩,
  ⟨28, true, 0x80, 32, 0x200, 4096, .ro⟩,
  ⟨29, true, 0xa0, 32, 0x200, 8, .rw⟩,
  ⟨30, true, 0x30, 8, 0x200, 340, .ro⟩,
  ⟨31, false, 0x20, 68, 0x200, 340, .ro⟩,
  ⟨32, false, 0x90, 1, 0x200, 0, .cxl⟩,
  ⟨33, true, 0xc9, 1, 0x200, 96, .ro⟩,
  ⟨34, false, 0x82, 1, 0x200, 96, .ro⟩,
  ⟨35, false, 0xa1, 1, 0x200, 8, .ro⟩,
  ⟨36, false, 0xa2, 1, 0x200, 4096, .ro⟩,
  ⟨37, false, 0xa3, 1, 0x200, 31, .ro⟩,
  ⟨38, false, 0xbd, 1, 0x200, 0, .ro⟩,
  ⟨39, true, 0xcd, 1, 0x200, 16384, .ro⟩,
  ⟨40, true, 0xd1, 1, 0x200, 16, .rw⟩,
  ⟨41, true, 0xd2, 1, 0x200, 16, .rw⟩]

end Sys2Proof
end

