-- ==== Sys2Proof/Machine/State.lean ====
section
/-!
DEFINITION. The state of the part, as plain data: the register store, the pipelines and their packets, the buffers and
the crossbar, the tables, time, the engines, the boot, fuse and security state, and the queue of commands that wait.
Also the reasons a command can stop for, and the state right after reset.
-/
namespace Sys2Proof.Machine

/-- Why a command would fault. No command of this part does: the type is empty, so that no meaning can. -/
inductive Fault : Type
  deriving DecidableEq, Repr

/-- Why a command is refused. -/
inductive Refusal where
  /-- Raised by an arm of the dispatch for a command that has no meaning yet; safe: nothing is claimed of it. -/
  | notModelled (mnemonic : String)
  deriving DecidableEq, Repr

/-- What the part hands to the outside, newest first in `Core.out`. -/
inductive Out where
  /-- A read completed: master ID, BAR0 offset (a BAR2 offset plus 2^28), value. -/
  | readData (master addr value : Nat)
  /-- An MSI-X message: function and table entry (R107). -/
  | msix (pf entry : Nat)
  /-- A frame left a port: global port, bytes. -/
  | frame (port : Nat) (bytes : List Byte)
  /-- A PFC frame left a port (R329). -/
  | pfc (port : Nat) (frame : List Byte)
  /-- The symbols that carried a frame on each lane of a port, first in time first (R528 to R533). -/
  | line (port : Nat) (lanes : List (List Nat))
  /-- A set of alignment markers went out on a port ahead of a frame's codewords (R533). -/
  | markers (port : Nat) (bits : List Bool)
  /-- A port begins to send the remote-fault ordered set (R536). -/
  | remoteFault (port : Nat)
  /-- A port begins to send its Clause 73 pages: RATE and MODE of the one interface advertised, whether its RS FEC is asked
  for, and whether PAUSE is, which never is (R539). -/
  | abilities (port rate mode : Nat) (fec pause : Bool)
  /-- Bytes written to host memory by a function. -/
  | dma (pf addr : Nat) (bytes : List Byte)
  /-- An event the spec names but gives no EVT_RAW bit: fatal-die (die) of R66, traffic-ready of R688. -/
  | notice (name : String) (n : Nat)
  /-- A pin driven: FATAL_N or THERM_TRIP_N asserted (true) or released. -/
  | pin (name : String) (asserted : Bool)
  deriving DecidableEq, Repr

/-- What the fuses of the package say of the part (R1, R88, R89). -/
structure Part where
  /-- Port dies populated: 2, 4 or 8. -/
  dies : Nat
  stepping : Nat
  serialLo : Nat
  serialHi : Nat
  deriving DecidableEq, Repr

/-- A write to an RWD field that waits for its boundary (R78); `held` while the page's RWD_HOLD keeps it. -/
structure RwdWrite where
  win : Nat
  page : Nat
  key : Nat
  width : Nat
  rst : Nat
  value : Nat
  held : Bool
  deriving DecidableEq, Repr

/-- An indirect operation in progress (R95): the window's table, its place, and what it does. -/
structure IndOp where
  tab : Nat
  win : Nat
  page : Nat
  base : Nat
  write : Bool
  /-- The operation is refused and will only set FAIL. -/
  refused : Bool
  /-- The master that started it (CXL_RD and SEQ_IND look at it). -/
  master : Nat
  /-- When it was started, by the model's clock (R615). -/
  since : Nat
  deriving DecidableEq, Repr

/-- An Almanac record (R747). -/
structure AlmRec where
  seq : Nat
  sec : Nat
  ns : Nat
  source : Nat
  kind : Nat
  merged : Bool
  gap : Bool
  bits : Nat
  data : List Nat
  /-- Time of the model's clock, for the merge rule of R748. -/
  stamp : Nat
  deriving DecidableEq, Repr

/-- The register space and what belongs to accessing it. -/
structure Io where
  /-- Register fields, by `Fld.key`, as their difference from reset. -/
  regs : SMap
  /-- Indirect-window entry fields, by `TFld.key`, as their difference from reset. -/
  ents : SMap
  /-- High halves latched by a low-half read, plus 1, by master × 2^29 + address of the high half (R93). -/
  latch : SMap
  /-- Low halves held by a write, plus 1, by master × 2^29 + address of the low half (R94). -/
  hold : SMap
  rwd : List RwdWrite
  /-- W1C writes of port-die EVT_PENDING that the tree does not show yet: master ID, window, page (R108). -/
  w1c : List (Nat × Nat × Nat)
  ind : List IndOp
  /-- Start of each lock's holding plus 1, and the holdings that raised their event (R115). -/
  lockSince : SMap
  lockRaised : List Nat
  /-- When each vector last sent its message, plus 1 (R107). -/
  vecLast : SMap
  /-- MSI-X messages held in the pending-bit arrays while masked: function and entry (R107). -/
  pba : List (Nat × Nat)
  /-- The Almanac's records, newest first, at most 8,192 (R747). -/
  almanac : List AlmRec
  /-- A record was lost since the last one was put in (GAP of R747). -/
  almLost : Bool
  deriving DecidableEq, Repr

/-- The fields a copy carries out of the ingress half (R200): containers 54, 55, 56, 60, 61, 62 and the packet flags. -/
structure Bridged where
  c54 : Word
  c55 : Word
  c56 : Word
  c60 : Word
  c61 : Word
  c62 : Word
  flags : Nat
  deriving DecidableEq, Repr

/-- What kind of copy waits or is queued (R348 KIND). -/
inductive CopyKind where
  | unicast
  | multicast
  | mirror
  deriving DecidableEq, Repr

/-- One copy of a frame, in a VOQ, in an egress queue, in the egress half, spilled or in flight between dies. -/
structure Copy where
  /-- The copy's own number; rising numbers are arrival order. -/
  id : Nat
  /-- The group of physical cells that holds its bytes (R316). -/
  grp : Nat
  /-- The die the copy is on, and its pipeline there (the source pipeline in a VOQ, else the destination pipeline). -/
  die : Nat
  pipe : Nat
  /-- The destination pipeline, 8d + k. -/
  dp : Nat
  kind : CopyKind
  /-- Destination global port and egress queue (unicast, mirror, and replicas of a multicast). -/
  port : Nat
  queue : Nat
  /-- Multicast group, and its "no copy to the ingress port" bit. -/
  group : Nat
  noIngress : Bool
  tc : Nat
  /-- The ingress global port and whether its PG is lossless. -/
  inPort : Nat
  lossless : Bool
  /-- The frame's bytes, FCS included, as received (or as rebuilt, for an egress mirror copy). -/
  frame : List Byte
  carried : Bridged
  /-- Stage-12 entry offset. -/
  entry : Nat
  /-- Made by multicast replication (container 63 bit 17). -/
  replica : Bool
  hostInjected : Bool
  /-- Found bad (R365). -/
  bad : Bool
  /-- Cut through (R363, container 63 bit 18). -/
  cut : Bool
  /-- Marked for ECN CE (R339). -/
  marked : Bool
  /-- Cells of the copy already sent across the crossbar. -/
  sent : Nat
  /-- Requests an egress timestamp with this tag (a host frame's descriptor, R409). -/
  tsTag : Option Nat
  /-- What the trace record's FLAGS report (R765): a die was throttled, the copy was replayed, spilled. -/
  throttled : Bool
  replayed : Bool
  spilled : Bool
  /-- Its place in its egress queue: numbers rise in the order of enqueueing, and it goes after the copies of the queue with lower
  ones, those in the spill region among them (R375). -/
  turn : Nat
  /-- When its fetch from the spill region was asked for, by the model's clock (R615). -/
  asked : Nat
  /-- Cells charged to the egress queue when the copy was enqueued, the copy left out (R764). -/
  qdepth : Nat
  /-- The packet was recirculated; its last park ended by timeout (COND 0x30 and 0x1F of the egress half, R149). -/
  recirculated : Bool
  timedOut : Bool
  /-- The frame was cut short: its last bytes are no FCS (R365, R366). -/
  short : Bool
  /-- Found bad with no data left to cross: an empty last cell with ERR is all that crosses yet (R367). -/
  aborted : Bool
  deriving DecidableEq, Repr

/-- What carries a cell of a group (R779): a pool that the group's charges name (ingress, parking, landing, reserve), the
shared pool, or the minimum of an egress account (lane × 16 + queue). -/
inductive Carrier where
  | pool
  | shared
  /-- The shared pool, for an egress mirror copy that no account holds yet. -/
  | mirror
  | minimum (acc : Nat)
  deriving DecidableEq, Repr

/-- A group of physical cells of one die (R316) with the accounts that hold it and what carries it (R779). -/
structure Grp where
  id : Nat
  die : Nat
  cells : Nat
  /-- Charged to the ingress account (global port, PG): the port is on this die, but for an injected Focus frame (R482). -/
  ingress : Option (Nat × Nat)
  /-- Charged to the parking pool of this pipeline, in place of the ingress account it returns to. -/
  parked : Option Nat
  /-- Charged to the landing pool of this crossbar port. -/
  landing : Option Nat
  /-- Charged to the spill fetch reserve. -/
  reserve : Bool
  /-- Egress accounts (lane × 16 + queue) that hold a copy of the group, each with the copy's cells, one entry per copy. -/
  egress : List (Nat × Nat)
  /-- Copies that still wait in VOQs, in flight or unacknowledged: the ingress charge stands while above 0. -/
  waiting : Nat
  /-- What carries each cell once only egress accounts hold the group, first cell first; empty before. -/
  carriers : List Carrier
  deriving DecidableEq, Repr

/-- A recorded edit of the egress half (R218 opcodes 0x4 to 0x7). -/
inductive EditRec where
  | remove (hdr : Nat)
  | insert (tpl anchor : Nat) (before : Bool) (setBit : Option Nat)
  | fieldSet (cont hdr off width : Nat)
  | fixup (hdr kind : Nat)
  deriving DecidableEq, Repr

/-- Where a packet is. -/
inductive Place where
  /-- Its cells are in the buffer and it waits for the parser (R44). -/
  | arrived
  /-- It is to execute its stage. -/
  | stage
  /-- It keeps its issue slot because it cannot park (R160); `hold` when it waits to be held (R167). -/
  | stalled (hold : Bool)
  /-- Parked on a wait condition since a time (R159). -/
  | parked (wsel since tmo : Nat)
  /-- Its slot is inserted since an instant: it re-enters its WAIT stage, where it parked on a condition (R161, R162). -/
  | woken (wsel at' : Nat)
  /-- Held behind an earlier packet of its port (R167). -/
  | held
  deriving DecidableEq, Repr

/-- What has become of a packet's deep lookup (R292, R293). -/
inductive DeepState where
  | idle
  /-- Outstanding since an instant (R615). -/
  | issued (key : List Word) (since : Nat)
  /-- Behind the 256 lookups a die keeps outstanding (R292). -/
  | queued (key : List Word)
  | returned
  deriving DecidableEq, Repr

/-- A packet in a pipeline: in its ingress half, or (with `copy`) a copy in its egress half. -/
structure Pkt where
  id : Nat
  die : Nat
  pipe : Nat
  /-- Ingress first lane and PG, and the port's die, which is this one but for an injected Focus frame (R482). -/
  lane : Nat
  srcDie : Nat
  pg : Nat
  lossless : Bool
  grp : Nat
  frame : List Byte
  /-- Found bad at ingress (R365). -/
  bad : Bool
  /-- The frame was cut short: its last bytes are no FCS. -/
  short : Bool
  tc : Nat
  hostInjected : Bool
  /-- Ingress timestamp (R407). -/
  tsNs : Word
  tsSec : Word
  place : Place
  stage : Nat
  /-- The 12-bit micro-address, epoch half in bit 11 (R119). -/
  addr : Nat
  /-- Has reached END in this half (R148). -/
  ended : Bool
  vec : List Word
  /-- Bindings of R202: (container, (byte offset, bytes)). -/
  binds : List (Nat × Nat × Nat)
  /-- Containers the egress half has written (R204). -/
  written : List Nat
  /-- The header table of R201: (header bit, (start, length)). -/
  hdrs : List (Nat × Nat × Nat)
  flags : Nat
  /-- Lookup result words and status bits hit, poisoned, error (R128, R135). -/
  res : List Word
  resHit : Bool
  resPoison : Bool
  resErr : Bool
  deep : DeepState
  disp : Option (Nat × Word)
  mirrors : List Nat
  edits : List EditRec
  /-- Telemetry requests of the half: last nonzero placement and capture with their profiles (R140, R766). -/
  tPlace : Nat × Nat
  tCapt : Nat × Nat
  /-- The last park ended by timeout (COND 0x1F). -/
  timedOut : Bool
  /-- The word runs again on re-entry (R163). -/
  reentry : Bool
  /-- The number of its last park: packets that become ready together re-enter oldest parked first (R162). -/
  parkSeq : Nat
  /-- A software flag it was parked on has read 1 since (R195). -/
  flagSeen : Bool
  /-- The key of its WAIT word as formed at stage entry, and whether it is 256 bits wide (R132, R158). -/
  waitKey : Bool × Nat
  /-- Has parked (other than with WAITSEL 0x02) or been replayed in this pass: later packets of its port wait for it
  (R167). -/
  detained : Bool
  /-- Rebuilt by replay (COND 0x31). -/
  replayed : Bool
  recirculated : Bool
  /-- Its present disposition is the Focus one of a timed-out word, which became a drop (R165). -/
  focusTmo : Bool
  /-- The ingress die was throttled at the parse (R765). -/
  throttled : Bool
  /-- Came from the host with this egress-timestamp tag (R409, R744). -/
  tsTag : Option Nat
  /-- The mirror sessions its egress half uses (R249): EN, TRUNC, PORT, QUEUE and EG_ENTRY of each. -/
  mirs : List (List Nat)
  /-- The copy whose egress half this is. -/
  copy : Option Copy
  deriving DecidableEq, Repr

/-- The pipelines of all port dies: stage stores, the packets in them, and the flips under way. -/
structure Pipes where
  /-- Stage-store words: key ((die × 8 + pipeline) × 18 + stage) × 4096 + address; the all-zero word is unlisted. -/
  store : SMap
  /-- Words with an uncorrectable error, by the same key. -/
  storeUe : List Nat
  /-- Firmware's retained image of both halves, by stage × 4096 + address (R190). -/
  image : SMap
  pkts : List Pkt
  /-- The next packet or copy number. -/
  nextId : Nat
  /-- Flips written and not yet effective: (die × 8 + pipeline, egress half, second half of a program change, R175). -/
  flips : List (Nat × Bool × Bool)
  /-- Since when a pipeline (die × 8 + pipeline) has a stalled stage, plus 1 (R160). -/
  stallSince : SMap
  /-- Since when cclk has run at its present rate in that stall, plus 1, and what the stall lasted before, 12,288,000 parts to a
  cclk (R16). -/
  stallFrom : SMap
  stallParts : SMap
  deriving DecidableEq, Repr

/-- The shared buffers of all port dies. -/
structure Buf where
  groups : List Grp
  /-- Cells the shared pool carries, by die (R779). -/
  carried : SMap
  /-- Copies in VOQs, oldest first. -/
  voq : List Copy
  /-- The list each VOQ served last, plus 1, by VOQ (R343). -/
  voqTurn : SMap
  /-- Copies in egress queues, oldest first. -/
  eq : List Copy
  /-- End of each received pause plus 1, by (die × 256 + lane) × 8 + priority (R333). -/
  pauseEnd : SMap
  /-- Since when a paused queue that holds copies has sent nothing, plus 1, by (die × 256 + lane) × 16 + queue. -/
  stuckSince : SMap
  /-- When a priority of the queue was last paused, plus 1, by the same key (exit of R335). -/
  lastPaused : SMap
  /-- End of each running down-hold plus 1, by die × 256 + lane (R368). -/
  holdEnd : SMap
  /-- PFC frames due: (die × 256 + lane, PGs that have just left XOFF) (R329). -/
  pfcDue : List (Nat × Nat)
  /-- When each port last sent a PFC frame, plus 1 (R332). -/
  pfcLast : SMap
  /-- The multicast stops each die sees: (die × 64 + destination pipeline) × 8 + TC (R344). -/
  mcStop : SMap
  /-- Copies in the spill region, in order, and copies being fetched back (R374). -/
  spilled : List Copy
  fetching : List Copy
  /-- The local transfer's place in its rotation, by destination pipeline (R347). -/
  localTurn : SMap
  /-- The place in its order of TCs from which a source pipeline goes on, by destination pipeline × 8 + source (R347). -/
  localTc : SMap
  /-- Ports whose down-hold expired with the link still down, 1 by die × 256 + lane: new copies are dropped (R370). -/
  dropping : SMap
  deriving DecidableEq, Repr

/-- What a crossbar cell carries: a piece of a copy, or of a Focus partial (R348, R476). -/
inductive CellBody where
  | copy (c : Copy)
  /-- Context, chunk, generation, source die and TC of a partial, its element count and this cell's 256 bytes of accumulator
  words. DESIGN CHOICE (log 146): the count, which R476's header does not hold and R487 compares, travels beside the cell. -/
  | partial' (ctx chunk gen src tc count : Nat) (words : List Byte)
  deriving DecidableEq, Repr

/-- One cell of a parcel (R348 to R350, R476). -/
structure PCell where
  body : CellBody
  idx : Nat
  last : Bool
  err : Bool
  /-- An extension cell (XCELL = 1): it carries no frame data. -/
  ext : Bool
  deriving DecidableEq, Repr

/-- A parcel the source retains until it is acknowledged (R359). -/
structure Parcel where
  src : Nat
  dst : Nat
  seq : Nat
  cells : List PCell
  /-- Times sent without an acknowledgement (R362), and when last. -/
  sends : Nat
  sentAt : Nat
  deriving DecidableEq, Repr

/-- A message of the crossbar's control channel on its way (R359 to R361). -/
structure XMsg where
  src : Nat
  dst : Nat
  seq : Nat
  nack : Bool
  deriving DecidableEq, Repr

/-- The Meridian crossbar. -/
structure Xbar where
  /-- Landing credit taken (1,024 less the count), by destination Meridian port (R353). -/
  creditUsed : SMap
  grantPtr : SMap
  acceptPtr : SMap
  /-- TC pointer of each pair src × 64 + dst (R357). -/
  tcPtr : SMap
  /-- Matches of the next parcel time: (source, destination). -/
  matched : List (Nat × Nat)
  retained : List Parcel
  /-- Parcels on the wire, oldest first. -/
  flight : List Parcel
  /-- Next sequence number to send and next expected, by pair. -/
  seqNext : SMap
  seqWant : SMap
  /-- First sequence number of a pending replay plus 1, by pair (R361). -/
  replay : SMap
  /-- Destination discards the pair's parcels until the named one arrives: 1 while so (R360). -/
  gap : SMap
  msgs : List XMsg
  /-- Copies landing, oldest first: destination Meridian port, copy, and the cells so far. -/
  landing : List (Nat × Copy × Nat)
  /-- Copies whose landing cells were discarded while cells of theirs were still to come, which are discarded as they
  arrive: source and destination Meridian port, and the copy's number (R370). -/
  doomed : List (Nat × Nat × Nat)
  /-- Parcel slots so far, skipped ones included (R636). -/
  slot : Nat
  /-- When each Meridian port last had a crossbar-port fault, plus 1 (R578). -/
  faultAt : SMap
  /-- Retrains under way, by port × 2 + direction (0 toward the die, 1 toward the Meridian die): start plus 1 (R576). -/
  retrain : SMap
  /-- Ports whose send counts start again when their retrains complete (R577). -/
  faulty : List Nat
  deriving DecidableEq, Repr
/-- An entry of a die's Catalogue (R254, R255). A 256-bit entry stands at its lower slot's index and takes the next one
too. -/
structure CatEnt where
  die : Nat
  idx : Nat
  wide : Bool
  key : Nat
  data : Nat
  static : Bool
  learned : Bool
  home : Nat
  hit : Bool
  mark : Bool
  deriving DecidableEq, Repr

/-- A recent-learn record (R281). -/
structure CatRec where
  die : Nat
  wide : Bool
  key : Nat
  home : Nat
  software : Bool
  time : Nat
  at' : Nat
  deriving DecidableEq, Repr

/-- A learn that waits for the update engine (R274, R276): it holds the learn lock on its key. -/
structure CatLearn where
  die : Nat
  wide : Bool
  key : Nat
  data : Nat
  time : Nat
  deriving DecidableEq, Repr

/-- The kinds of message between dies (R277, R284, R286). -/
inductive CatMsgKind where
  | learn
  | touch
  | delete
  | reject
  deriving DecidableEq, Repr

/-- A Catalogue message: from its sender's control channel to the dies named in `to` (R279). -/
structure CatMsg where
  kind : CatMsgKind
  /-- The die that sent it; for learn, touch and delete also the home it speaks for. -/
  src : Nat
  wide : Bool
  key : Nat
  data : Nat
  static : Bool
  software : Bool
  time : Nat
  /-- Still on the way to the Meridian die. -/
  atSender : Bool
  /-- The die it is for once forwarded (a touch and a reject name it from the start). -/
  dst : Option Nat
  deriving DecidableEq, Repr

/-- A Catalogue command in the queue of a die (R265, R267), with what the staging registers held. -/
structure CatCmd where
  die : Nat
  op : Nat
  tag : Nat
  deep : Bool
  wide : Bool
  static : Bool
  noReplace : Bool
  inclStatic : Bool
  key : Nat
  kmask : Nat
  data : Nat
  dmask : Nat
  cursor : Nat
  /-- It has run on its own die and waits for the dies listed (R269). -/
  started : Bool
  waiting : List Nat
  rejected : Bool
  removed : Nat
  /-- The entry it reads is uncorrectable (R270 status 7). -/
  ue : Bool
  /-- Correctable errors it meets: page and CE slot (R573). -/
  ces : List (Fin 4096 × Fin 8)
  /-- Which of the two lines that a deep command reads are poisoned, bit 0 the first (R616). -/
  poisoned : Nat
  /-- Die and slot whose hit bit is set in the removal cycle of the pass it starts (R314). -/
  prevail : List (Fin 8 × Fin 262176)
  deriving DecidableEq, Repr

/-- A response of the Catalogue command engine (R270, R311). -/
structure CatRsp where
  die : Nat
  tag : Nat
  status : Nat
  home : Nat
  static : Bool
  wide : Bool
  hit : Bool
  key : Nat
  data : Nat
  cursor : Nat
  removed : Nat
  deriving DecidableEq, Repr

/-- A prefix of a die's prefix table (R296). -/
structure LpmEnt where
  die : Nat
  v6 : Bool
  vrf : Nat
  addr : Nat
  len : Nat
  data : Nat
  /-- Read uncorrectable and not yet repaired (R597). -/
  ue : Bool
  deriving DecidableEq, Repr

/-- An LPM command in a die's queue (R298, R299). -/
structure LpmCmd where
  die : Nat
  op : Nat
  tag : Nat
  v6 : Bool
  len : Nat
  vrf : Nat
  addr : Nat
  data : Nat
  /-- Written through the broadcast window. -/
  broadcast : Bool
  /-- When it was queued, by the model's clock (R299). -/
  since : Nat
  deriving DecidableEq, Repr

/-- An LPM response (R300). -/
structure LpmRsp where
  die : Nat
  tag : Nat
  status : Nat
  len : Nat
  data : Nat
  deriving DecidableEq, Repr

/-- A filter entry of a die: the shadow (value, mask, action, VALID) and the TCAM row compared by lookups (R301, R305). -/
structure FltEnt where
  die : Nat
  idx : Nat
  value : Nat
  mask : Nat
  action : Nat
  valid : Bool
  rowValue : Nat
  rowMask : Nat
  deriving DecidableEq, Repr

/-- What a die asks its peer to repair (R264, R595): the lost slot, with its key when it is known. -/
structure CatRepair where
  die : Nat
  /-- The first of the entry's slots, and how many it has. -/
  idx : Nat
  slots : Nat
  key : Option (Bool × Nat)
  /-- A scrub pass asked for it (R598). -/
  pass : Bool
  /-- When it was asked for: a lookup of the same slot in the same instant has its own outcome (R605). -/
  since : Nat
  deriving DecidableEq, Repr

/-- A prefix whose store word awaits repair from the peer (R597, R598). -/
structure PrefixRepair where
  die : Nat
  v6 : Bool
  vrf : Nat
  addr : Nat
  len : Nat
  /-- A scrub pass asked for it. -/
  pass : Bool
  deriving DecidableEq, Repr

/-- The tables of all port dies. -/
structure Tables where
  ents : List CatEnt
  recs : List CatRec
  learns : List CatLearn
  /-- Touches queued on each die: (die, entry's home, wide, key). -/
  touches : List (Nat × Nat × Bool × Nat)
  msgs : List CatMsg
  cmds : List CatCmd
  rsps : List CatRsp
  repairs : List CatRepair
  /-- Learns of the current microsecond by die: microsecond × 64 + count (R276). -/
  lrnRate : SMap
  lpm : List LpmEnt
  prefixAsks : List PrefixRepair
  lpmCmds : List LpmCmd
  lpmRsps : List LpmRsp
  flt : List FltEnt
  deriving DecidableEq, Repr

/-- A capture record on its way to the Plate archive: its die and its 64-byte lines (R617, R618). -/
structure PlateRec where
  die : Nat
  lines : List Nat
  /-- When it was queued, by the model's clock (R615). -/
  since : Nat
  deriving DecidableEq, Repr

/-- The CXL memory tier. -/
structure Cxl where
  /-- Bytes taken from each region's bucket of 65,536 (R610). -/
  taken : SMap
  /-- The budget in force of each region, in Gb/s (R612). -/
  budget : SMap
  /-- 64-byte lines of the two devices: key port × 2^36 + device line; a line of zeros is unlisted. -/
  lines : SMap
  /-- Poisoned lines, by the same key. -/
  poison : List Nat
  /-- Consecutive requests that ended by timeout, by port (R615). -/
  timeouts : SMap
  /-- Regions whose decoders are being committed (R611). -/
  committing : List Nat
  /-- Ports being restarted (R615). -/
  restarting : List Nat
  /-- Capture records queued by the dies (R617). -/
  plate : List PlateRec
  plateFull : Bool
  /-- Dies whose deep catalogue stayed enabled while region 1 came back too small for it (R295). -/
  deepStuck : List Nat
  /-- Reads answered in the last 1 ms: port, instant and latency in ns (R623). -/
  answers : List (Nat × Nat × Nat)
  deriving DecidableEq, Repr


/-- A time source, of day or of the cycle (R400). Its state is STB_STATUS; here is what the rules count. -/
structure TimeSrc where
  /-- Consecutive missing edges, and consecutive qualified ones. -/
  missed : Nat
  good : Nat
  /-- The windows for an edge that have gone by without one since the last edge (R398). -/
  gone : Nat
  /-- No edge since the selection changed: the first edge realigns at once (R403). -/
  fresh : Bool
  /-- The model's clock at the previous qualified edge or update, plus 1; 0 before the first. -/
  last : Nat
  /-- The source left HOLDOVER with RELOCK 1 and waits for the realignment of the next boundary (R403). -/
  relock : Bool
  /-- Time of day: the DPLL's frequency correction in 2^-16 ppb. Cycle: the tracked mains period in 2^-16 ns. -/
  rate : Int
  /-- Those values over the last 10 s of lock, newest first, with their instants (R401). -/
  hist : List (Nat × Int)
  /-- Phase error that remains to be slewed away, in 2^-16 ns (R406). -/
  slew : Int
  /-- Fraction of a slew step carried, in 10^-6 of 2^-16 ns. -/
  slewRem : Int
  deriving DecidableEq, Repr

/-- The sidereal time base (R392 to R406). -/
structure Time where
  /-- Whole nanoseconds of follower time that have elapsed since the cold reset, at the corrected rate and slewing included:
  the model's clock, which steps and realignments leave alone (R425). -/
  now : Nat
  /-- Time of day since second 0, in 2^-16 ns (R392, R393). -/
  tod : Nat
  /-- Fraction of a frequency correction carried, in 10^-9 of 2^-16 ns. -/
  todRem : Int
  /-- The same in 2^-16 ns. -/
  flow : Nat
  /-- Time since the tracked rising edge of MAINS_REF, in 2^-16 ns, less whole tracked periods: the fraction of θ (R395). -/
  theta : Nat
  /-- What the next boundary adds to time of day to realign it to PPS, in 2^-16 ns (R403). -/
  jump : Int
  /-- The cycle number (R394). -/
  cycle : Nat
  /-- The time since the last boundary and the length of the cycle, in 2^-16 ns: the phase is their ratio. Past the length,
  the boundary is due and the phase waits for it. -/
  elapsed : Nat
  span : Nat
  /-- What the division of the mains period into D cycles has left over so far, below D: the next cycle takes it (R395, R402). -/
  carry : Nat
  todSrc : TimeSrc
  cycSrc : TimeSrc
  /-- A step that waits for the boundary, in ns (R405). -/
  step : Option Int
  /-- The next boundary re-forms the cycle (R403, R405). -/
  reform : Bool
  /-- OFS as the last boundary applied it. -/
  ofs : Nat
  /-- Accepted mains periods since the last missing edge, newest first, at most 10 (R404). -/
  periods : List Nat
  /-- The instants of the last edges seen on MAINS_REF and PPS_IN, plus 1, whatever they are used for (R693). -/
  mainsEdge : Nat
  ppsEdge : Nat
  /-- Free values drawn so far: the model's own field, for what the spec leaves open. -/
  draws : Nat
  deriving DecidableEq, Repr

/-- A requested swap of an ephemeris bank (R416): not yet validated, or pending for a cycle. -/
structure EphSwap where
  die : Nat
  pipe : Nat
  /-- First lane of the port within the pipeline. -/
  l : Nat
  count : Nat
  /-- EPH_SWAP_AT as it stood at GO (request); the cycle it takes effect in (pending). -/
  at' : Nat
  /-- The number of the command on its page, from 1. -/
  seq : Nat
  deriving DecidableEq, Repr

/-- A copy that has left the egress half and is being sent. -/
structure Sending where
  copy : Copy
  /-- The rebuilt frame with its FCS. -/
  frame : List Byte
  /-- The flags and the tag its egress timestamp goes by (R409). -/
  flags : Nat
  tag : Nat
  /-- Time of day at its start, in 2^-16 ns (R407). -/
  start : Nat
  deriving DecidableEq, Repr

/-- An entry of a die's egress-timestamp FIFO (R409). -/
structure Ets where
  die : Nat
  port : Nat
  tag : Nat
  /-- Time in 2^-16 ns. -/
  time : Nat
  deriving DecidableEq, Repr

/-- Egress service: gates, deficit round robin, shapers, ramp groups, stream contexts. -/
structure Egr where
  /-- Swaps asked for and not yet validated, oldest first; swaps that wait for their boundary. -/
  swapReq : List EphSwap
  swapPend : List EphSwap
  /-- The number of each EPH page's last command, by die × 8 + pipeline: EPH_SWAP_STAT is its state (R447). -/
  swapLast : SMap
  /-- Gates in force, 1 for EN, by die × 256 + lane (R413). -/
  gated : SMap
  /-- Current DRR queue, by die × 256 + lane, and the visited marks, by (die × 256 + lane) × 16 + queue (R422). -/
  drrCur : SMap
  visited : SMap
  /-- Shaper and context entries written since the last refill: (table, window, page, entry) (R428, R442). -/
  dirty : List (Nat × Nat × Nat × Nat)
  /-- Fractions of a byte carried by shaper buckets, in 10^-6 bytes, by the key of their LEVEL field (R425). -/
  frac : SMap
  /-- The buckets Tc and Tp of the stream contexts in 10^-6 bytes, by die × 16384 + context (R436). -/
  tc : SMap
  tp : SMap
  /-- Since when a ramp group is idle, plus 1, by die × 64 + group (R431). -/
  idleSince : SMap
  /-- Refills served, by die (R425); the last step phase a ramp group took, as cycle × 2^32 + phase, by die × 64 + group
  (R430). -/
  refills : SMap
  rampAt : SMap
  /-- Copies that have left the egress half and are being sent, oldest first. -/
  sending : List Sending
  ets : List Ets
  deriving DecidableEq, Repr

/-- One element's accumulator (R469): its value and, for SUM, the flags NAN 1, PINF 2, NINF 4, ALLNZ 8. -/
structure Acc where
  val : Int
  flags : Nat
  deriving DecidableEq, Repr

/-- An open chunk of a context on a die (R464, R466). -/
structure Chunk where
  die : Nat
  slot : Nat
  seq : Nat
  /-- Its element count, once a contribution or a partial has named one. -/
  count : Nat
  acc : List Acc
  /-- Local members whose contributions it holds. -/
  members : List Nat
  /-- Complete locally (R474). -/
  local' : Bool
  /-- At the root: the done-die set (R477). -/
  doneDies : Nat
  /-- At the root: when its timer started, plus 1 (R480). -/
  timer : Nat
  /-- At the root: complete, its RESULT not yet injected (R479, R482); and rounded, its RESULT waiting for room (R492). -/
  complete : Bool
  rounded : Bool
  deriving DecidableEq, Repr

/-- A partial a source die retains until it is acknowledged (R478). -/
structure Partial where
  src : Nat
  ctx : Nat
  seq : Nat
  gen : Nat
  /-- Its cells, and the next to send. -/
  cells : Nat
  next : Nat
  /-- Times sent in full, and when last. -/
  sends : Nat
  sentAt : Nat
  acked : Bool
  deriving DecidableEq, Repr

/-- The kinds of message of the Focus engines on the control channel (R477 to R480, R488). -/
inductive FocMsgKind where
  | openNotice
  | ack
  | nack
  | close
  | ask
  deriving DecidableEq, Repr

/-- A Focus message. -/
structure FocMsg where
  kind : FocMsgKind
  src : Nat
  dst : Nat
  ctx : Nat
  seq : Nat
  gen : Nat
  deriving DecidableEq, Repr

/-- A contribution in a die's input queue (R463): what the engine needs of the packet. -/
structure Contribution where
  die : Nat
  /-- The context the disposition named. -/
  ctx : Nat
  /-- Ingress global port. -/
  port : Nat
  /-- Byte offset of the Focus header in the frame. -/
  at' : Nat
  frame : List Byte
  bad : Bool
  grp : Nat
  deriving DecidableEq, Repr

/-- What building and injecting a frame of a context takes from its entry (R481, R482). -/
structure FocInj where
  ty : Nat
  tpl : List Byte
  v6 : Bool
  ipOfs : Nat
  pipe : Nat
  pg : Nat
  tc : Nat
  port : Nat
  deriving DecidableEq, Repr

/-- An ERROR that waits to be injected (R487, R488). -/
structure FocErr where
  root : Nat
  ctx : Nat
  gen : Nat
  seq : Nat
  code : Nat
  /-- Bit m: member m is not confirmed, or down. -/
  bitmap : Nat
  /-- Dies asked for their bitmaps that have not answered, and when they were asked. -/
  waiting : List Nat
  askedAt : Nat
  inj : FocInj
  deriving DecidableEq, Repr

/-- The cells of a partial that its root holds so far (R477). -/
structure Gather where
  root : Nat
  src : Nat
  ctx : Nat
  seq : Nat
  /-- The cell index expected next; the cells before it hold landing credit of this Meridian port. -/
  next : Nat
  port : Nat
  /-- Its cells are discarded until it begins again. -/
  bad : Bool
  words : List Byte
  deriving DecidableEq, Repr

/-- A DESTROY that waits for a RESULT to be injected (R499). -/
structure Destroy where
  die : Nat
  ctx : Nat
  tag : Nat
  deriving DecidableEq, Repr

/-- The Focus engines of all port dies. -/
structure Foc where
  inq : List Contribution
  chunks : List Chunk
  /-- Chunks closed ahead of their window's base: (die, slot, chunk). -/
  closed : List (Nat × Nat × Nat)
  partials : List Partial
  /-- Partial cells that have landed, oldest first: (root die, Meridian port whose credit they hold, cell). -/
  landed : List (Nat × Nat × PCell)
  gather : List Gather
  msgs : List FocMsg
  errors : List FocErr
  /-- Members whose port's down-hold expired: (root context, member) (R370, R487). -/
  down : List (Nat × Nat)
  /-- Contexts that fail with code 2 after the RESULT that was due (R499). -/
  failLater : List Nat
  destroys : List Destroy
  deriving DecidableEq, Repr

/-- A collector frame that waits for its slot (R771). -/
structure Collector where
  die : Nat
  pipe : Nat
  port : Nat
  tc : Nat
  entry : Nat
  frame : List Byte
  deriving DecidableEq, Repr

/-- Telemetry: collector queues and the capture sequences of the dies (R770, R771). -/
structure Tele where
  queue : List Collector
  capSeq : SMap
  deriving DecidableEq, Repr

/-- A copy that waits to be written to host memory (R237, R745). -/
structure HostCopy where
  pf : Nat
  queue : Nat
  bytes : List Byte
  deriving DecidableEq, Repr

/-- The host port's queues. -/
structure HostQ where
  rx : List HostCopy
  deriving DecidableEq, Repr

/-- A link-up attempt in progress (R541). -/
structure Attempt where
  /-- Global port. -/
  port : Nat
  since : Nat
  /-- Auto-negotiation, and training, have still to complete. -/
  needAn : Bool
  needTrain : Bool
  deriving DecidableEq, Repr

/-- A Reticle scan (R547 to R549). -/
structure Scan where
  die : Nat
  oct : Nat
  lane : Nat
  full : Bool
  software : Bool
  /-- DWELL of the scan, and when it began or began again from its first point (R547, R549). -/
  dwell : Nat
  since : Nat
  deriving DecidableEq, Repr

/-- A 64b/66b block: its sync header says data or control, or is invalid, and its 64 payload bits (R533). -/
structure PcsBlock where
  control : Bool
  bad : Bool
  payload : Nat
  deriving DecidableEq, Repr

/-- The blocks of a port's open codewords: what was sent and fills no whole set of codewords yet (R533, R537). -/
structure LineTail where
  /-- Global port. -/
  port : Nat
  /-- When its last block was added. -/
  since : Nat
  blocks : List PcsBlock
  deriving DecidableEq, Repr

/-- A Shenor flit that its sender keeps (R30, R574, R575): its direction, Meridian port × 2 + 1 towards the Meridian die and + 0
from it, its sequence and acknowledgement fields, and what its payload is: a piece of a parcel, or idle. -/
structure Flit where
  dir : Nat
  seq : Nat
  ack : Nat
  /-- Source, destination and sequence number of the parcel, and which 240 bytes of it; none when idle. -/
  parcel : Option (Nat × Nat × Nat)
  part : Nat
  /-- The last flit of its parcel. -/
  last : Bool
  /-- Its place in the retry buffer is uncorrectable: it is resent bad (R571). -/
  bad : Bool
  deriving DecidableEq, Repr

/-- An offline calibration (R552). -/
structure Calib where
  die : Nat
  oct : Nat
  /-- SCOPE 1: the clock synthesiser of the octet is calibrated too. -/
  whole : Bool
  /-- The first lanes of the ports concerned. -/
  ports : List Nat
  deriving DecidableEq, Repr

/-- A DSP-slice substitution (R556). -/
structure Subst where
  die : Nat
  oct : Nat
  lane : Nat
  spare : Nat
  deriving DecidableEq, Repr

/-- A Shenor wire substitution (R587): on the Meridian die's page of the port, or on the port die's. -/
structure WireSub where
  meridian : Bool
  port : Nat
  bundle : Nat
  wire : Nat
  spare : Nat
  deriving DecidableEq, Repr

/-- Lanes, ports and the Shenor links. -/
structure Link where
  attempts : List Attempt
  /-- End of each back-off wait plus 1, by global port (R542). -/
  backoff : SMap
  /-- Transmit coefficients that training set, plus 1, by die × 256 + lane: in use in place of LAN_TXEQ (R540). -/
  txeq : SMap
  scans : List Scan
  /-- When each lane's last background scan began, plus 1, by die × 256 + lane (R548). -/
  lastScan : SMap
  /-- The smallest background-scan eye of the quarter, by die: lane × 1,024 + height, plus 1 (R548, R653). -/
  worst : SMap
  calibs : List Calib
  substs : List Subst
  wireSubs : List WireSub
  /-- Consecutive retries of a flit, and whether one is asked for, by Meridian port × 2 + direction (R575, R576). -/
  retries : SMap
  retryAsked : SMap
  /-- The next flit sequence number a receiver expects, and the acknowledgement it last read, by the same direction (R30,
  R575). -/
  flitWant : SMap
  flitAck : SMap
  /-- The precoding that training asked for, transmit + 2 × receive, by die × 256 + lane (R530). -/
  preReq : SMap
  /-- P(j − 1) of the precoders, transmit and receive, by die × 256 + lane (R529). -/
  preTx : SMap
  preRx : SMap
  /-- The last 58 line bits of a port's scrambler and descrambler, by global port (R533). -/
  scramTx : SMap
  scramRx : SMap
  /-- Codewords sent on a port since its last alignment markers, by global port (R533). -/
  sentWords : SMap
  /-- Codewords received on a port since the last alignment markers, by global port (R533). -/
  rcvdWords : SMap
  /-- The last 12-byte gaps' shortfall that deficit idle counting carries, by global port (R537). -/
  deficit : SMap
  tails : List LineTail
  /-- When a port last received local or remote fault, plus 1, by global port (R536, R541). -/
  faultAt : SMap
  /-- The flits each direction keeps, in order: the first 128 are its retry buffer (R574). -/
  flits : List Flit
  /-- The next sequence number of a direction's sender, and that of the flit that crosses next. -/
  flitNext : SMap
  flitOut : SMap
  deriving DecidableEq, Repr

/-- A scrub pass (R590 to R594) on a window's die. -/
structure Scrub where
  w : Nat
  cls : Nat
  inst : Nat
  mode : Nat
  cursor : Nat
  last : Nat
  /-- ABORT was written: the pass ends at the next unit. -/
  abort : Bool
  deriving DecidableEq, Repr

/-- A memory self-test (R600). -/
structure Bist where
  w : Nat
  cls : Nat
  inst : Nat
  deriving DecidableEq, Repr

/-- Scrub passes and self-tests that run. -/
structure Ras where
  scrubs : List Scrub
  bists : List Bist
  deriving DecidableEq, Repr


/-- One throttle limit of a die: its demand, and the epochs its value has stayed at least 5 % (2 °C) below (R631). -/
structure Limit where
  demand : Nat
  below : Nat
  deriving DecidableEq, Repr

/-- What a die's power management unit keeps (R626 to R643, R648 to R654): window 0 is the Meridian die. -/
structure PmuDie where
  w : Nat
  /-- The demands of the sustained cap, the fast cap, core current, SRAM current and temperature. -/
  limits : List Limit
  /-- What the two caps' demands would be on MEAS alone (reason 7 of R647). -/
  alone : List Limit
  /-- 110 °C was reached and 105 °C not yet left (R635). -/
  hot : Bool
  /-- The sensed value of the last epoch, how long it has not changed, and EST when it last changed (R629). -/
  lastMeas : Int
  same : Nat
  estRef : Nat
  /-- Consecutive epochs of disagreement, and of agreement (R628). -/
  apart : Nat
  close : Nat
  /-- Controlled power of the last epoch, 0.1 W (R628). -/
  power : Nat
  /-- Epochs for which the conditions of boost have held (R638). -/
  boostRun : Nat
  /-- A droop stretch began since the last epoch (R638). -/
  drooped : Bool
  /-- ns of stretch in the present epoch. -/
  inEpoch : Nat
  /-- Sense gain in thousandths, as the last correction left it (R627). -/
  gain : Nat
  /-- A regulator of the die's rails has missed three reads (R641). -/
  railLost : Bool
  /-- Firmware has applied TRIM; without a settable regulator it never does (R655, R674). -/
  trimmed : Bool
  /-- Boost is disabled for the die (R650, R674). -/
  noBoost : Bool
  /-- The ceiling of R650 in 64ths of 1.75 GHz; 64 is none. -/
  ceiling : Nat
  /-- Since when a droop stretch runs, plus 1; ns of stretch carried; ns of stretch in the current ms, whether its event
  was raised, and which ms (R642, R643, R647). -/
  stretch : Nat
  stretchNs : Nat
  msNs : Nat
  msRaised : Bool
  msIndex : Nat
  /-- The ms for which the SerDes-current event was last raised, plus 1 (R634). -/
  serdesMs : Nat
  /-- Powered life in epochs, the sum of the hottest readings over it in 0.1 °C (R652). -/
  life : Nat
  lifeSum : Int
  /-- The eight throttle accumulators at the last measurement, µs (THR_S of R653). -/
  base : List Nat
  /-- The throttle steps that were wanted in the last epoch; more are applied while the rail is too low for them (R640). -/
  want : Nat
  deriving DecidableEq, Repr

/-- The power management units and the governor. -/
structure Pmu where
  dies : List PmuDie
  /-- The follower time that had elapsed at the last epoch, 2^-16 ns (R626). -/
  epochFlow : Nat
  /-- Package power of each epoch, newest first, 0.1 W (R631). -/
  history : List Nat
  /-- Epochs for which the sustained average has stayed below 97 % while it binds (R633). -/
  sustLow : Nat
  /-- What the package power, those epochs and the binding of the sustained and the fast cap would be on MEAS alone (reason 7 of
  R647). -/
  measHistory : List Nat
  measLow : Nat
  measSust : Bool
  measFast : Bool
  /-- The entries of the board description in use (R672). -/
  board : List Nat
  /-- EXT_THROT_N as the part sees it (R631). -/
  ext : Bool
  /-- The pin as it stood when the present epoch began (R631). -/
  extAt : Bool
  /-- Missed reads of each regulator of the board description, by entry (R641). -/
  missed : SMap
  /-- The last voltage (mV) and current (0.1 A) read of each regulator, by entry: voltage × 65,536 + current, plus 1. -/
  rails : SMap
  /-- When a measurement that an MP reset interrupted is to be repeated, plus 1 (R656). -/
  retryAt : Nat
  /-- When the life accounting was last written (R652). -/
  lifeAt : Nat
  /-- The second in which the ring oscillators were last read (R648). -/
  ringAt : Nat
  deriving DecidableEq, Repr

/-- Pins, clocks and what a cold reset samples (R671, R677 to R688, R714). -/
structure Pack where
  /-- PWR_GOOD is asserted; SYS_RST_N is low; PERST# is asserted. -/
  power : Bool
  sysRst : Bool
  perst : Bool
  /-- EXT_THROT_N is asserted, after its filter (R677). -/
  ext : Bool
  /-- The thermal trip has stopped the clocks (R679). -/
  tripped : Bool
  /-- The host link is trained and configuration space answers: steps 4 and 5 (R686, R688). -/
  hostUp : Bool
  /-- The debug port is enabled (R714). -/
  debugOn : Bool
  /-- The protection matrix that the last reset of the part put in force, with MATRIX_LOCK set (R102, R713). -/
  matrix : Option (List Nat)
  deriving DecidableEq, Repr

/-- An entry of a manifest (R703). -/
structure ImgEntry where
  type : Nat
  flags : Nat
  version : Nat
  offset : Nat
  length : Nat
  /-- Entry bytes 0 to 79, DIGEST, IV and TAG. -/
  head : List Byte
  digest : List Byte
  iv : List Byte
  tag : List Byte
  /-- Bytes 108 to 111, reserved. -/
  rest : List Byte
  deriving DecidableEq, Repr

/-- A manifest (R702). -/
structure Manifest where
  magic : Nat
  format : Nat
  kind : Nat
  slot : Nat
  svn : Nat
  count : Nat
  bind : Nat
  revoke : Nat
  reserved : List Byte
  pubkey : List Byte
  entries : List ImgEntry
  /-- The bytes the signature covers, and the signature. -/
  body : List Byte
  sig : List Byte
  deriving DecidableEq, Repr

/-- A program change that waits for its old halves to drain (R175 step 7): pipelines (die × 8 + pipeline) still to
report, the mailbox channel, and what is measured when it completes (R723). -/
structure Change where
  left : List Nat
  ch : Nat
  man : Manifest
  entry : ImgEntry
  deriving DecidableEq, Repr

/-- The stores that hold decrypted images of types 1 to 3 (R708): MP SRAM, the Focus sequencer of a die, the lane controller of an
octet. -/
inductive CodeStore where
  | mpSram
  | focusSeq (die : Nat)
  | laneCtl (die octet : Nat)
  deriving DecidableEq, Repr

/-- What the boot ROM and firmware keep (R715 to R727, R741). -/
structure Boot where
  /-- The running vendor manifest, and the owner manifest in use. -/
  vendor : Option Manifest
  owner : Option Manifest
  /-- The boot-program case of R718, 0 before step 13; the start's result and stop cause (R741). -/
  bootCase : Nat
  result : Nat
  stopCause : Nat
  /-- Bytes staged in MP working memory for an update or a recovery, plus 1 each, by offset in the bank (R726, R716). -/
  staged : SMap
  /-- Fuse-map and soft-map repairs that are applied on each die (window × 65,536 + entry). -/
  repairs : List Nat
  /-- What the key engine has written into the stores that no master reads (R708). -/
  code : List (CodeStore × List Byte)
  deriving DecidableEq, Repr

/-- The mailbox and the MP (R732 to R742). -/
structure Mbx where
  /-- The program change in progress. -/
  change : Option Change
  /-- Channels whose reply the firmware has written and not yet completed. -/
  replied : List Nat
  /-- Channels whose sender was reset while their request was taken (R735). -/
  orphans : List Nat
  /-- The last channel taken, plus 1 (R736). -/
  lastTaken : Nat
  /-- The channel whose group-F request firmware works on (R740). -/
  running : Option Nat
  /-- STATUS of the last reply of each channel, an orphaned one's too (R747). -/
  status : SMap
  /-- Sensor-logging period in seconds, and when a period last ended (R742). -/
  period : Nat
  loggedAt : Nat
  deriving DecidableEq, Repr


/-- The fuse block: identity, rights, keys and counters (R1, R88, R101, R709 to R713, R760). -/
structure Fuses where
  part : Part
  /-- PAG_ACCESS_MAP, one 20-bit word a master, and MATRIX_LOCK. -/
  matrix : List Nat
  matrixLock : Bool
  debugOff : Bool
  /-- Key slots, bit s for slot s: programmed, revoked. -/
  vendorValid : Nat
  vendorRevoked : Nat
  ownerValid : Nat
  ownerRevoked : Nat
  /-- Key hashes, 64 bytes a slot. -/
  vendorHash : List (List Byte)
  ownerHash : List (List Byte)
  /-- Rollback counters: the number of bits set, 0 to 64. -/
  vendorRb : Nat
  ownerRb : Nat
  /-- CNT_USER_CFG.FUSED_OFF. -/
  userOff : Bool
  /-- A thermal trip is on record for the next start (R694). -/
  trip : Bool
  /-- Factory repairs of each window (R581, RAS_FUSE_STAT), as soft-map entries. -/
  repairs : List Nat
  deriving DecidableEq, Repr

/-- The measurement accumulator and the log (R721, R722). -/
structure Sec where
  acc : List Byte
  log : List (List Byte)
  deriving DecidableEq, Repr

/-- Everything but the queue, the fuses, the measurements and the flash. -/
structure Core where
  part : Part
  pack : Pack
  io : Io
  time : Time
  pipes : Pipes
  tables : Tables
  buf : Buf
  xbar : Xbar
  egr : Egr
  foc : Foc
  tele : Tele
  hostq : HostQ
  link : Link
  ras : Ras
  cxl : Cxl
  pmu : Pmu
  boot : Boot
  mbx : Mbx
  out : List Out
  deriving DecidableEq, Repr

/-- The state of the part. -/
structure State where
  /-- The commands that wait, first in, first out. -/
  pending : List Instr
  fuse : Fuses
  sec : Sec
  /-- The boot flash (R696): each byte's difference from 0xFF, the erased value, by address. -/
  flash : SMap
  core : Core
  deriving DecidableEq, Repr

/-! ### Reset -/

/-- A time source at reset: FREE, with no edge seen. -/
def TimeSrc.initial : TimeSrc :=
  { missed := 0, good := 0, gone := 0, fresh := true, last := 0, relock := false, rate := 0, hist := [], slew := 0, slewRem := 0 }

/-- The time base at reset: time of day, phase and cycle number 0, a cycle of the reset value of STB_CYC_LEN (R443). -/
def Time.initial (draws : Nat) : Time :=
  { now := 0, tod := 0, todRem := 0, flow := 0, theta := 0, jump := 0, cycle := 0, elapsed := 0, span := 20000000 * 65536, carry := 0,
    todSrc := .initial,
    cycSrc := .initial, step := none, reform := false, ofs := 0, periods := [], mainsEdge := 0, ppsEdge := 0, draws }

/-- Nothing has happened: every register at its reset value, every buffer, queue and table empty. -/
def Core.initial (part : Part) (draws : Nat) (out : List Out) : Core :=
  { part
    pack := { power := false, sysRst := false, perst := false, ext := false, tripped := false, hostUp := false, debugOn := false,
              matrix := none }
    io := { regs := [], ents := [], latch := [], hold := [], rwd := [], w1c := [], ind := [], lockSince := [],
            lockRaised := [], vecLast := [], pba := [], almanac := [], almLost := false }
    time := .initial draws
    pipes := { store := [], storeUe := [], image := [], pkts := [], nextId := 0, flips := [], stallSince := [], stallFrom := [],
               stallParts := [] }
    tables := { ents := [], recs := [], learns := [], touches := [], msgs := [], cmds := [], rsps := [], repairs := [],
                lrnRate := [], lpm := [], prefixAsks := [], lpmCmds := [], lpmRsps := [], flt := [] }
    buf := { groups := [], carried := [], voq := [], voqTurn := [], eq := [], pauseEnd := [], stuckSince := [],
             lastPaused := [], holdEnd := [], pfcDue := [], pfcLast := [], mcStop := [], spilled := [], fetching := [],
             localTurn := [], localTc := [], dropping := [] }
    xbar := { creditUsed := [], grantPtr := [], acceptPtr := [], tcPtr := [], matched := [], retained := [], flight := [],
              seqNext := [], seqWant := [], replay := [], gap := [], msgs := [], landing := [], doomed := [], slot := 0, faultAt := [],
              retrain := [], faulty := [] }
    egr := { swapReq := [], swapPend := [], swapLast := [], gated := [], drrCur := [], visited := [], dirty := [],
             frac := [], tc := [], tp := [], idleSince := [], refills := [], rampAt := [], sending := [], ets := [] }
    foc := { inq := [], chunks := [], closed := [], partials := [], landed := [], gather := [], msgs := [], errors := [],
             down := [], failLater := [], destroys := [] }
    tele := { queue := [], capSeq := [] }
    hostq := { rx := [] }
    link := { attempts := [], backoff := [], txeq := [], scans := [], lastScan := [], worst := [], calibs := [], substs := [],
              wireSubs := [], retries := [], retryAsked := [], flitWant := [], flitAck := [],
              preReq := [], preTx := [], preRx := [], scramTx := [], scramRx := [], sentWords := [], rcvdWords := [],
              deficit := [], tails := [], faultAt := [], flits := [], flitNext := [], flitOut := [] }
    ras := { scrubs := [], bists := [] }
    cxl := { taken := [], budget := [], lines := [], poison := [], timeouts := [], committing := [], restarting := [],
             plate := [], plateFull := false, deepStuck := [], answers := [] }
    pmu := { dies := [], epochFlow := 0, history := [], sustLow := 0, measHistory := [], measLow := 0,
             measSust := false, measFast := false, board := [], ext := false, extAt := false, missed := [], rails := [], retryAt := 0,
             lifeAt := 0, ringAt := 0 }
    boot := { vendor := none, owner := none, bootCase := 0, result := 3, stopCause := 0, staged := [], repairs := [], code := [] }
    mbx := { change := none, replied := [], orphans := [], lastTaken := 0, running := none, status := [], period := 60, loggedAt := 0 }
    out }

/-- The fuses of a new NYM-8: Liwald's part is programmed, the OEM's is not (R1, R88, R709). DESIGN CHOICE: the model's
part at reset is an NYM-8, stepping A, with serial number 0 and no factory repair. -/
def Fuses.new : Fuses :=
  { part := ⟨8, 0x41, 0, 0⟩, matrix := [], matrixLock := false, debugOff := false, vendorValid := 15, vendorRevoked := 0,
    ownerValid := 0, ownerRevoked := 0,
    vendorHash := (List.range 4).map fun s => (List.range 64).map (Config.vendorHash s),
    ownerHash := List.replicate 4 (List.replicate 64 0), vendorRb := 0, ownerRb := 0, userOff := false, trip := false,
    repairs := [] }

/-- The measurement state after a cold or warm reset (R721). -/
def Sec.zero : Sec := ⟨List.replicate 64 0, []⟩

/-- The part in cold reset, before PWR_GOOD is asserted, with an erased boot flash (R683, R688). -/
def State.reset : State := { pending := [], fuse := .new, sec := .zero, flash := [], core := .initial ⟨8, 0x41, 0, 0⟩ 0 [] }

end Sys2Proof.Machine
end

