-- ==== Sys2Proof/Machine/Ops.lean ====
section
/-!
DEFINITION. The named operations every family shares: reading and writing register and entry fields, counters, events
and the Almanac, the pages and their blocks, which ports exist, and the parts of the state each operation touches.
-/
namespace Sys2Proof.Machine

/-! ### Time (R392 to R394) -/

/-- Units of 2^-16 ns in a second. -/
def secUnits : Nat := 65536000000000

/-- Seconds of time of day (48 bits). -/
def Time.sec (t : Time) : Nat := t.tod / secUnits % 2 ^ 48

/-- Nanoseconds of time of day. -/
def Time.ns (t : Time) : Nat := t.tod / 65536 % 1000000000

/-- The phase, 2^32 units per cycle (R394). -/
def Time.phase (t : Time) : Nat := min (2 ^ 32 - 1) (t.elapsed * 2 ^ 32 / max t.span 1)

/-- A 32-bit pattern as a signed number. -/
def signed (v : Nat) : Int := (BitVec.ofNat 32 v).toInt

/-- A number from bytes, the lowest first. -/
def leNat (b : List Byte) : Nat := b.foldr (fun x n => x.toNat + 256 * n) 0

/-- The `n` bytes of a number, the lowest first. -/
def leSeq (v n : Nat) : List Byte := (List.range n).map fun i => BitVec.ofNat 8 (v / 2 ^ (8 * i))

/-- A signed number as its 32-bit pattern. -/
def pattern (v : Int) : Nat := (BitVec.ofInt 32 v).toNat

/-- The four registers that show a time: SUBNS, NS, SEC_LO, SEC_HI (R445). -/
def timeWords (tod : Nat) : List Nat :=
  [tod % 65536, tod / 65536 % 1000000000, tod / secUnits % 2 ^ 32, tod / secUnits / 2 ^ 32 % 2 ^ 16]

/-! ### Fields -/

/-- The window of port die `d` (R70). -/
def dw (d : Nat) : Nat := d + 1

/-- A register field's value. -/
def Io.rd (io : Io) (f : Fld) (w p i : Nat) : Nat := io.regs.field (f.key w p i) f.rst

/-- Write a register field. -/
def Io.wr (io : Io) (f : Fld) (w p i v : Nat) : Io :=
  { io with regs := io.regs.setField (f.key w p i) f.width f.rst v }

/-- An entry field's value. -/
def Io.td (io : Io) (f : TFld) (w p i : Nat) : Nat := io.ents.field (f.key w p i) f.rst

/-- Write an entry field. -/
def Io.tw (io : Io) (f : TFld) (w p i v : Nat) : Io :=
  { io with ents := io.ents.setField (f.key w p i) f.width f.rst v }

/-- Add to a saturating counter. -/
def Io.bump (io : Io) (f : Fld) (w p i n : Nat) : Io :=
  io.wr f w p i (min (io.rd f w p i + n) (2 ^ f.width - 1))

/-- Add to a saturating counter of an entry. -/
def Io.tbump (io : Io) (f : TFld) (w p i n : Nat) : Io :=
  io.tw f w p i (min (io.td f w p i + n) (2 ^ f.width - 1))

/-- Add to an entry counter that wraps. -/
def Io.tadd (io : Io) (f : TFld) (w p i n : Nat) : Io := io.tw f w p i (io.td f w p i + n)

/-- A 64-bit value held in two registers (R93). -/
def Io.rd64 (io : Io) (lo hi : Fld) (w p i : Nat) : Nat := io.rd hi w p i * 2 ^ 32 + io.rd lo w p i

/-- Write a 64-bit value to its two registers. -/
def Io.wr64 (io : Io) (lo hi : Fld) (w p i v : Nat) : Io :=
  (io.wr lo w p i (v % 2 ^ 32)).wr hi w p i (v / 2 ^ 32 % 2 ^ 32)

/-- FAIL of the indirect window at a base on a page (R95). -/
def indFail (page base : Nat) : Fld := ⟨page, base + 8, 0, 1, 1, 0⟩

/-! ### Pages, blocks and event sources (R75, R100, R104, R777) -/

/-- The blocks of R75 as (first page, last page, block code of R777, protection class of R100): Meridian window. -/
def meridianPages : List (Nat × Nat × Nat × Nat) :=
  [(0x000, 0x000, 0x01, 0), (0x001, 0x002, 0x02, 9), (0x004, 0x004, 0x03, 9), (0x010, 0x01F, 0x04, 2),
   (0x020, 0x063, 0x05, 2), (0x070, 0x07F, 0x06, 3), (0x080, 0x08F, 0x07, 6), (0x090, 0x09F, 0x08, 6),
   (0x0A0, 0x0AF, 0x09, 7), (0x0B0, 0x0BF, 0x0A, 7), (0x0C0, 0x0C7, 0x0B, 6), (0x0C8, 0x0CB, 0x0C, 8),
   (0x0CC, 0x0CF, 0x0D, 8)]

/-- The same for a port-die window. -/
def portPages : List (Nat × Nat × Nat × Nat) :=
  [(0x000, 0x000, 0x01, 0), (0x008, 0x00F, 0x10, 1), (0x010, 0x017, 0x11, 1), (0x018, 0x01F, 0x12, 1),
   (0x020, 0x023, 0x13, 1), (0x024, 0x025, 0x14, 1), (0x026, 0x027, 0x15, 1), (0x028, 0x02F, 0x16, 2),
   (0x030, 0x037, 0x05, 2), (0x038, 0x03F, 0x17, 3), (0x040, 0x047, 0x18, 3), (0x048, 0x04F, 0x19, 3),
   (0x050, 0x057, 0x1A, 3), (0x058, 0x05B, 0x1B, 3), (0x05C, 0x05F, 0x06, 3), (0x060, 0x067, 0x1C, 4),
   (0x080, 0x09F, 0x1D, 5), (0x0A0, 0x0BF, 0x1E, 5), (0x0C0, 0x0C7, 0x0B, 6), (0x0C8, 0x0CB, 0x07, 6),
   (0x0CC, 0x0CF, 0x0C, 8), (0x0D0, 0x0D3, 0x0D, 8)]

/-- The page table of a window. -/
def pagesOf (w : Nat) : List (Nat × Nat × Nat × Nat) := if w = 0 then meridianPages else portPages

/-- The block code and class of a page, when R75 assigns the page to a block. -/
def blockOf (w page : Nat) : Option (Nat × Nat) :=
  ((pagesOf w).find? fun r => decide (r.1 ≤ page ∧ page ≤ r.2.1)).map fun r => (r.2.2.1, r.2.2.2)

/-- How many assigned pages of a window lie below a page. -/
def pageRank (w page : Nat) : Nat :=
  (pagesOf w).foldl (fun n r => n + (min page (r.2.1 + 1) - r.1)) 0

/-- The event-tree source of a page (R104). -/
def sourceOf (w page : Nat) : Nat := (if w = 0 then 0 else 512 + 448 * (w - 1)) + pageRank w page

/-! ### Events (R83, R105, R748) -/

/-- The follower time an Almanac record carries. -/
structure Stamp where
  now : Nat
  sec : Nat
  ns : Nat

/-- Put an Almanac record in the ring, keeping the newest 8,192; the oldest is lost when the ring is full (R747). -/
def Io.almPut (io : Io) (t : Stamp) (source kind bts : Nat) (data : List Nat) : Io :=
  let seq := io.rd R.ALM_NEXT_SEQ 0 0 0
  { io.wr R.ALM_NEXT_SEQ 0 0 0 (seq + 1) with
    almanac := (⟨seq, t.sec, t.ns, source, kind, false, io.almLost, bts, data, t.now⟩ :: io.almanac).take 8192
    almLost := false }

/-- An Almanac record reads uncorrectable: it is lost, and the next one carries the gap flag (R571, R747). -/
def Io.almLose (io : Io) (seq : Nat) : Io :=
  if io.almanac.any (·.seq == seq) then { io with almanac := io.almanac.filter (·.seq != seq), almLost := true } else io

/-- Bits a source has just set go into its last record when that is at most 1 µs old (R748). -/
def Io.almMerge (io : Io) (t : Stamp) (source bts : Nat) : Option Io :=
  match io.almanac.find? (fun r => r.source == source && r.kind == 0) with
  | some r =>
    if t.now - r.stamp ≤ 1000 then
      some { io with almanac := io.almanac.map fun x =>
          if x.seq = r.seq then { x with bits := x.bits ||| bts, merged := true } else x }
    else none
  | none => none

/-- The tree's view of a source on the Meridian die: bit `s` of EVT_SRC_PENDING (R106, R109). -/
def Io.setSource (io : Io) (s : Nat) (on : Bool) : Io :=
  let old := io.rd R.EVT_SRC_PENDING 0 0 (s / 32)
  io.wr R.EVT_SRC_PENDING 0 0 (s / 32)
    (if on then old ||| 2 ^ (s % 32) else old - (old &&& 2 ^ (s % 32)))

/-- The tree sees a page's pending state (R105): at once for a Meridian page. -/
def Io.refreshSource (io : Io) (w page : Nat) : Io :=
  io.setSource (sourceOf w page) (io.rd R.EVT_PENDING w page 0 != 0)

/-- Append an Almanac record. The ring wraps when SEQ passes a multiple of 8,192: event bit 1 of page 0x0BD (R749). -/
def Io.almAppend (io : Io) (t : Stamp) (source kind bts : Nat) (data : List Nat) : Io :=
  let io1 := io.almPut t source kind bts data
  if io1.rd R.ALM_NEXT_SEQ 0 0 0 % 8192 = 0 ∧ bit (io1.rd R.EVT_ENABLE 0 0xBD 0) 1 = 1 then
    let io2 := (io1.wr R.EVT_PENDING 0 0xBD 0 (io1.rd R.EVT_PENDING 0 0xBD 0 ||| 2)).refreshSource 0 0xBD
    if io2.rd R.EVT_ROUTE_LOG 0 0xBD 0 = 1 then (io2.almMerge t (sourceOf 0 0xBD) 2).getD (io2.almPut t (sourceOf 0 0xBD) 0 2 [])
    else io2
  else io1

/-- One kind-0 record for bits a source has just set: appended, or merged into the source's last record when that is
at most 1 µs old (R748). -/
def Io.almEvent (io : Io) (t : Stamp) (source bts : Nat) : Io :=
  (io.almMerge t source bts).getD (io.almAppend t source 0 bts [])

/-- Set pending bits of a page: log them when EVT_ROUTE.LOG is 1, and show a Meridian page's state to the tree. -/
def Io.setPending (io : Io) (t : Stamp) (w page mask : Nat) : Io :=
  if mask = 0 then io
  else
    let io1 := io.wr R.EVT_PENDING w page 0 (io.rd R.EVT_PENDING w page 0 ||| mask)
    let io2 := if io.rd R.EVT_ROUTE_LOG w page 0 = 1 then io1.almEvent t (sourceOf w page) mask else io1
    if w = 0 then io2.refreshSource w page else io2

/-- EVT_RAW bit `b` of a page asserts: it sets its pending bit when enabled (R105). DESIGN CHOICE: a block-defined event is
a pulse, so EVT_RAW bits 28 to 0 read 0 between commands; only the bits that follow PAGE_STATUS are levels (R83). -/
def Io.raise (io : Io) (t : Stamp) (w page b : Nat) : Io :=
  if bit (io.rd R.EVT_ENABLE w page 0) b = 1 then io.setPending t w page (2 ^ b) else io

/-- A live EVT_RAW bit rises: it reads 1 from here on, and the rise may set the pending bit. -/
def Io.raiseLevel (io : Io) (t : Stamp) (w page b : Nat) : Io :=
  let raw := io.rd R.EVT_RAW w page 0
  if bit raw b = 1 then io else (io.wr R.EVT_RAW w page 0 (raw ||| 2 ^ b)).raise t w page b

/-- A live EVT_RAW bit falls. -/
def Io.lowerLevel (io : Io) (w page b : Nat) : Io :=
  let raw := io.rd R.EVT_RAW w page 0
  io.wr R.EVT_RAW w page 0 (raw - (raw &&& 2 ^ b))

/-- Note the first error of a page (ERR_MASTER, ERR_OFFSET of R82). -/
def Io.firstErr (io : Io) (w page m off : Nat) : Io :=
  if io.rd R.PAGE_STATUS_ACC_ERR w page 0 = 0 ∧ io.rd R.PAGE_STATUS_CFG_ERR w page 0 = 0 then
    (io.wr R.PAGE_STATUS_ERR_MASTER w page 0 m).wr R.PAGE_STATUS_ERR_OFFSET w page 0 off
  else io

/-- Set ACC_ERR of a page (R71, R86, R92, R97, R103). EVT_RAW bit 29 follows it. -/
def Io.accErr (io : Io) (t : Stamp) (w page m off : Nat) : Io :=
  ((io.firstErr w page m off).wr R.PAGE_STATUS_ACC_ERR w page 0 1).raiseLevel t w page 29

/-- Set CFG_ERR of a page (R25). EVT_RAW bit 30 follows it. -/
def Io.cfgErr (io : Io) (t : Stamp) (w page m off : Nat) : Io :=
  ((io.firstErr w page m off).wr R.PAGE_STATUS_CFG_ERR w page 0 1).raiseLevel t w page 30

/-- A correctable error of CE slot `i` of a page: it fills the leaky bucket, or finds it full and asserts bit 31 (R84). -/
def Io.ceAdd (io : Io) (t : Stamp) (w page i : Nat) : Io :=
  let level := io.rd R.PAGE_CE_STAT_LEVEL w page i
  if level < io.rd R.PAGE_CE_CFG_DEPTH w page i then io.wr R.PAGE_CE_STAT_LEVEL w page i (level + 1)
  else io.raise t w page 31

/-! ### General counters and port statistics (R753, R754, R761) -/

/-- A general counter of a die adds `n`; on a wrap modulo 2^64, WRAP is set and the counter-wrap event raised (R754). -/
def Io.countInto (io : Io) (t : Stamp) (w c n : Nat) : Io :=
  let lo := if w = 0 then R.M_CNT_VAL_LO else R.CNT_VAL_LO
  let hi := if w = 0 then R.M_CNT_VAL_HI else R.CNT_VAL_HI
  let v := io.rd64 lo hi w 0 c + n
  let io1 := io.wr64 lo hi w 0 c (v % 2 ^ 64)
  if v < 2 ^ 64 then io1
  else (io1.wr (if w = 0 then R.M_CNT_CFG_WRAP else R.CNT_CFG_WRAP) w 0 c 1).raise t w
    (if w = 0 then 0xC8 else 0xCC) 0

/-- One general counter of a die sees `n` occurrences of an event. Classes 1, 3, 4, 5 and 7 have instances. -/
def Io.countOne (io : Io) (t : Stamp) (w cls code inst n : Nat) (c : Nat) : Io :=
  let cfg (m p : Fld) : Nat := io.rd (if w = 0 then m else p) w 0 c
  if cfg R.M_CNT_CFG_EN R.CNT_CFG_EN = 1 ∧ cfg R.M_CNT_CFG_EVENT R.CNT_CFG_EVENT = cls * 4096 + code ∧
      (cfg R.M_CNT_CFG_FILTER_EN R.CNT_CFG_FILTER_EN = 0 ∨ cls ∉ [1, 3, 4, 5, 7] ∨
        cfg R.M_CNT_CFG_FILTER R.CNT_CFG_FILTER = inst) then io.countInto t w c n
  else io

/-- An event occurs `n` times on a die: every general counter that counts it adds `n` (R753). -/
def Io.count (io : Io) (t : Stamp) (w cls code inst n : Nat) : Io :=
  (List.range 64).foldl (fun io c => io.countOne t w cls code inst n c) io

/-- Add to fixed statistic `k` of the port with first lane `l` of die `d`; it wraps modulo 2^64 (R761). -/
def Io.pstat (io : Io) (d l k n : Nat) : Io := io.tadd T.CNT_PSTAT_VALUE (dw d) 0 (l * 64 + k) n

/-- The index of a frame length among the size statistics (R761, 11 to 17). -/
def sizeIndex (len : Nat) : Nat :=
  if len ≤ 64 then 0 else if len ≤ 127 then 1 else if len ≤ 255 then 2 else if len ≤ 511 then 3
  else if len ≤ 1023 then 4 else if len ≤ 1518 then 5 else 6

/-! ### The same over the whole core -/

/-- The stamp an event made now carries. -/
def Core.stamp (k : Core) : Stamp := ⟨k.time.now, k.time.sec, k.time.ns⟩

/-- Change the register space. -/
def Core.onIo (k : Core) (f : Io → Io) : Core := { k with io := f k.io }

/-- A register field. -/
def Core.rd (k : Core) (f : Fld) (w p i : Nat) : Nat := k.io.rd f w p i

/-- Write a register field. -/
def Core.wr (k : Core) (f : Fld) (w p i v : Nat) : Core := k.onIo (·.wr f w p i v)

/-- An entry field. -/
def Core.td (k : Core) (f : TFld) (w p i : Nat) : Nat := k.io.td f w p i

/-- Write an entry field. -/
def Core.tw (k : Core) (f : TFld) (w p i v : Nat) : Core := k.onIo (·.tw f w p i v)

/-- The entries of a window of a die whose field differs from its reset value, as (page, entry). -/
def Core.listed (k : Core) (f : TFld) (w : Nat) : List (Nat × Nat) :=
  (k.io.ents.filter fun e => e.1 % 512 == f.bit && e.1 / 512 / 16777216 / 64 == f.tab * 16 + w).map fun e =>
    (e.1 / 512 / 16777216 % 64, e.1 / 512 % 16777216)

/-- Add to a saturating counter. -/
def Core.bump (k : Core) (f : Fld) (w p i n : Nat) : Core := k.onIo (·.bump f w p i n)

/-- Add to a saturating entry counter. -/
def Core.tbump (k : Core) (f : TFld) (w p i n : Nat) : Core := k.onIo (·.tbump f w p i n)

/-- Add to a wrapping entry counter. -/
def Core.tadd (k : Core) (f : TFld) (w p i n : Nat) : Core := k.onIo (·.tadd f w p i n)

/-- Add a signed number to a wrapping 64-bit entry counter. -/
def Core.taddInt (k : Core) (f : TFld) (w p i : Nat) (n : Int) : Core :=
  k.tw f w p i (((k.td f w p i : Int) + n) % 2 ^ 64).toNat

/-- A 64-bit value in two registers. -/
def Core.rd64 (k : Core) (lo hi : Fld) (w p i : Nat) : Nat := k.io.rd64 lo hi w p i

/-- Add to a wrapping 64-bit counter in two registers. -/
def Core.add64 (k : Core) (lo hi : Fld) (w p i n : Nat) : Core :=
  k.onIo fun io => io.wr64 lo hi w p i ((io.rd64 lo hi w p i + n) % 2 ^ 64)

/-- The droop stretch of a die runs: its cclk takes two periods in the time of three (R642). -/
def Core.stretching (k : Core) (d : Nat) : Bool := k.pmu.dies.any fun u => u.w == dw d && u.stretch != 0

/-- A clock of a ceiling (64 is none), a boost level and a throttle step, in 4,096ths of a MHz (R630, R650). -/
def clockUnits (ceiling b s : Nat) : Nat :=
  if ceiling < 64 then 1750 * ceiling * (64 - s) else (1750 + 25 * b) * (64 - s) * 64

/-- cclk of a die without a droop stretch, in 4,096ths of a MHz (R630). -/
def Core.cclkUnits (k : Core) (d : Nat) : Nat :=
  clockUnits (((k.pmu.dies.find? (·.w == dw d)).map (·.ceiling)).getD 64) (k.rd R.PMU_STATUS_B (dw d) 0 0)
    (k.rd R.PMU_STATUS_S (dw d) 0 0)

/-- cclk of a die as it runs, boost, throttling and droop stretch included, in 12,288ths of a MHz (R16, R642). -/
def Core.cclkRate (k : Core) (d : Nat) : Nat := k.cclkUnits d * (if k.stretching d then 2 else 3)

/-- How long the stall of a pipeline has lasted so far over every rate cclk has had in it, 12,288,000 parts to a cclk (R16,
R160). -/
def Core.stallPartsNow (k : Core) (d p : Nat) : Nat :=
  let from' := k.pipes.stallFrom.get (d * 8 + p)
  if from' = 0 then 0
  else k.pipes.stallParts.get (d * 8 + p) + (k.time.now + 1 - from') * k.cclkRate d

/-- The cclk a stall of a pipeline has lasted so far, 0 while none runs (R160). -/
def Core.stallCclk (k : Core) (d p : Nat) : Nat :=
  if k.pipes.stallSince.get (d * 8 + p) = 0 then 0 else k.stallPartsNow d p / 12288000

/-- cclk of a die is about to change its rate: what its stalls have lasted at the old one is kept (R16). -/
def Core.noteStalls (k : Core) (d : Nat) : Core :=
  (List.range 8).foldl (fun k p =>
    if k.pipes.stallSince.get (d * 8 + p) = 0 then k
    else { k with pipes := { k.pipes with
      stallParts := k.pipes.stallParts.set (d * 8 + p) (k.stallPartsNow d p)
      stallFrom := k.pipes.stallFrom.set (d * 8 + p) (k.time.now + 1) } }) k

/-- Raise an event. -/
def Core.raise (k : Core) (w page b : Nat) : Core := k.onIo (·.raise k.stamp w page b)

/-- Count a general-counter event. -/
def Core.count (k : Core) (w cls code inst n : Nat) : Core := k.onIo (·.count k.stamp w cls code inst n)

/-- Add to a port statistic. -/
def Core.pstat (k : Core) (d l s n : Nat) : Core := k.onIo (·.pstat d l s n)

/-- Set ACC_ERR of a page. -/
def Core.accErr (k : Core) (w page : Nat) (m : Master) (off : Nat) : Core :=
  k.onIo (·.accErr k.stamp w page m.id off)

/-- Set CFG_ERR of a page. -/
def Core.cfgErr (k : Core) (w page : Nat) (m : Master) (off : Nat) : Core :=
  k.onIo (·.cfgErr k.stamp w page m.id off)

/-- A memory of class `cls` had a correctable error: its CE slot `i` of the page and the class counter (R84, R583). -/
def Core.ceFound (k : Core) (w page i cls : Nat) : Core :=
  ((k.onIo (·.ceAdd k.stamp w page i)).bump (if w = 0 then R.M_RAS_CE_CNT else R.RAS_CE_CNT) w 0 cls 1).count w 9 0 0 1

/-- The memory class of a CE slot (PAGE_CE_STAT.CLASS): the memories of every page, as (Meridian, first page, pages, slot,
class) (R570, R571 and the CE slots of the blocks). -/
def ceMemories : List (Bool × Nat × Nat × Nat × Nat) :=
  [(false, 0x08, 8, 0, 0), (false, 0x08, 8, 1, 1), (false, 0x10, 8, 0, 2), (false, 0x18, 8, 0, 4), (false, 0x18, 8, 1, 4),
   (false, 0x18, 8, 2, 3), (false, 0x20, 1, 0, 5), (false, 0x20, 1, 1, 5), (false, 0x24, 1, 0, 6), (false, 0x26, 1, 0, 7),
   (false, 0x26, 1, 1, 7), (false, 0x28, 1, 0, 12), (false, 0x28, 1, 1, 12), (false, 0x48, 1, 0, 8), (false, 0x50, 8, 0, 11),
   (false, 0x60, 1, 0, 9), (false, 0x60, 1, 1, 10), (false, 0x60, 1, 2, 10), (false, 0x80, 32, 0, 13),
   (false, 0xC0, 1, 0, 15), (true, 0x10, 1, 0, 1), (true, 0xC0, 1, 0, 0), (true, 0xC0, 1, 1, 2), (true, 0xC0, 1, 2, 3)]

/-- A page has a memory at CE slot `i`; the other slots read zero and take no write (R82). -/
def ceSlot (w page i : Nat) : Bool :=
  (w == 0 && page == 0xA0 && i == 0) ||
    ceMemories.any fun x => x.1 == (w == 0) && decide (x.2.1 ≤ page ∧ page < x.2.1 + x.2.2.1) && x.2.2.2.1 == i

/-- The class of the memory at a CE slot, when the page has one there and its class is stated. -/
def ceClassAt (w page i : Nat) : Option Nat :=
  (ceMemories.find? fun x => x.1 == (w == 0) && decide (x.2.1 ≤ page ∧ page < x.2.1 + x.2.2.1) && x.2.2.2.1 == i).map (·.2.2.2.2)

/-- Reads of a die met correctable errors in the memories at these CE slots: corrected, and counted (R572, R573). -/
def Core.cesFound (k : Core) (w : Nat) (ces : List (Fin 4096 × Fin 8)) : Core :=
  ces.foldl (fun k x => match ceClassAt w x.1 x.2 with
    | some c => k.ceFound w x.1 x.2 c
    | none => k) k

/-- A memory of class `cls` had an uncorrectable error: the class counter. -/
def Core.ueFound (k : Core) (w cls : Nat) : Core :=
  (k.bump (if w = 0 then R.M_RAS_UE_CNT else R.RAS_UE_CNT) w 0 cls 1).count w 9 1 0 1

/-- Write the field a register word holds; a value outside `lo` to `hi` is a reserved encoding: the field keeps its value
and CFG_ERR is set (R25). -/
def Core.putFld (k : Core) (m : Master) (f : Fld) (w p i v lo hi : Nat) : Core :=
  let x := bits v f.hi f.lo
  if lo ≤ x ∧ x ≤ hi then k.wr f w p i x else k.cfgErr w (f.page + p) m (f.off + f.stride * i)

/-- Hand something to the outside. -/
def Core.emit (k : Core) (o : Out) : Core := { k with out := o :: k.out }

/-- A fresh packet or copy number. -/
def Core.takeId (k : Core) : Nat × Core :=
  (k.pipes.nextId, { k with pipes := { k.pipes with nextId := k.pipes.nextId + 1 } })

/-- The next free value of the model, for what the spec leaves open (a pseudo-random draw, a sampling decision). -/
def Core.fresh (k : Core) : Nat × Core :=
  (Config.freeValue k.time.draws, { k with time := { k.time with draws := k.time.draws + 1 } })

/-! ### Dies and ports (R1, R3, R37, R525) -/

/-- Port die `d` is populated. -/
def Core.populated (k : Core) (d : Nat) : Bool := decide (d < k.part.dies)

/-- The populated port dies. -/
def Core.dieList (k : Core) : List Nat := List.range k.part.dies

/-- Port die `d` is fenced (R66). -/
def Core.fenced (k : Core) (d : Nat) : Bool := bit (k.rd R.PAG_DIEMAP_FENCED 0 0 0) d == 1

/-- Port die `d` is released from reset (R687). -/
def Core.released (k : Core) (d : Nat) : Bool := bit (k.rd R.PAG_BOOT_PROG_RELEASED 0 0 0) d == 1

/-- Lanes per port in the octet's mode: 8, 4, 2 or 1 for modes 0 to 3. -/
def portLanes (mode : Nat) : Nat := 8 / 2 ^ mode

/-- The lane index `l` of die `d` is the first lane of a port of its octet (R37). -/
def Core.portExists (k : Core) (d l : Nat) : Bool :=
  k.populated d && decide (l < 256) &&
    decide (l % 8 % portLanes (k.rd R.PRT_OCT_CFG_MODE (dw d) (l / 8) 0) = 0)

/-- First lanes of the existing ports of a die. -/
def Core.portsOf (k : Core) (d : Nat) : List Nat := (List.range 256).filter (k.portExists d)

/-- A global port number names an existing port. -/
def Core.globalExists (k : Core) (g : Nat) : Bool := k.portExists (g / 256 % 8) (g % 256)

/-- Lane rate of an octet in units of 25 Gb/s of MAC rate: 200, 100, 50, 25 Gb/s for RATE 0 to 3 (R525). -/
def laneGbps (rate : Nat) : Nat := 200 / 2 ^ rate

/-- MAC rate of a port in Gb/s. -/
def Core.portGbps (k : Core) (d l : Nat) : Nat :=
  laneGbps (k.rd R.PRT_OCT_CFG_RATE (dw d) (l / 8) 0) * portLanes (k.rd R.PRT_OCT_CFG_MODE (dw d) (l / 8) 0)

/-- The port's link is up, as the buffer sees it. -/
def Core.linkUp (k : Core) (d l : Nat) : Bool := k.td T.BUF_PORT_LINK_UP (dw d) 0 l == 1

/-- Cells a frame of `n` bytes takes. -/
def cellsOf (n : Nat) : Nat := (n + 255) / 256

/-- Change the crossbar. -/
def Core.onX (k : Core) (f : Xbar → Xbar) : Core := { k with xbar := f k.xbar }

/-- Return `n` cells of landing credit of a destination (R353). -/
def Core.creditBack (k : Core) (j n : Nat) : Core :=
  k.onX fun x => { x with creditUsed := x.creditUsed.set j (x.creditUsed.get j - n) }

end Sys2Proof.Machine
end

