-- ==== Sys2Proof/Machine/Coding.lean ====
section
/-!
DEFINITION. The digital coding of a port's lanes (R528 to R535): 64b/66b blocks and their scrambler, 256b/257b transcoding, the
Reed-Solomon codes, distribution to lanes, PAM4 mapping, precoding and polarity, in both directions. PRESUMED (log 121): what
R533 leaves to IEEE 802.3 follows its Clauses 49, 82, 91 and 119, as noted at each definition.
-/
namespace Sys2Proof.Machine

/-! ### Bits -/

/-- The `n` low bits of a number, least significant first. -/
def lsb (n v : Nat) : List Bool := (List.range n).map v.testBit

/-- The number of a list of bits, least significant first. -/
def ofLsb (bs : List Bool) : Nat := bs.foldr (fun b n => 2 * n + b.toNat) 0

/-- A list cut into pieces of `n`, as many as `fuel`. -/
def chunks {α : Type} (n : Nat) : Nat → List α → List (List α)
  | 0, _ => []
  | fuel + 1, l => if l.isEmpty then [] else l.take n :: chunks n fuel (l.drop n)

/-- A list cut into pieces of `n`. -/
def pieces {α : Type} (n : Nat) (l : List α) : List (List α) := chunks n l.length l

/-! ### PAM4, precoding and polarity (R528 to R532) -/

/-- The Gray mapping of a pair of bits, the left one first in time (R528). -/
def gray (left right : Bool) : Nat :=
  match left, right with
  | false, false => 0
  | false, true => 1
  | true, true => 2
  | true, false => 3

/-- The pair of bits of a symbol. -/
def ungray (s : Nat) : List Bool := if s = 0 then [false, false] else if s = 1 then [false, true]
  else if s = 2 then [true, true] else [true, false]

/-- Symbols of a lane's bits: pairs at the PAM4 rates, single bits at 25.78125 Gb/s (R528, R531). -/
def toSymbols (pam4 : Bool) (bs : List Bool) : List Nat :=
  if pam4 then (pieces 2 bs).map fun x => gray (x.getD 0 false) (x.getD 1 false) else bs.map (·.toNat)

/-- Bits of a lane's symbols. -/
def ofSymbols (pam4 : Bool) (ss : List Nat) : List Bool := if pam4 then ss.flatMap ungray else ss.map (· == 1)

/-- Precoding in transmit, P(j) = (G(j) − P(j − 1)) mod 4, from the last symbol sent (R529). -/
def precodeTx : Nat → List Nat → List Nat
  | _, [] => []
  | p, g :: gs => let q := (g + 4 - p % 4) % 4; q :: precodeTx q gs

/-- Precoding in receive, G(j) = (P(j) + P(j − 1)) mod 4, from the last symbol received (R529). -/
def precodeRx : Nat → List Nat → List Nat
  | _, [] => []
  | p, q :: qs => (q + p) % 4 :: precodeRx q qs

/-- Inverted polarity: symbol s becomes 3 − s, and a bit its complement (R532). -/
def invertLane (pam4 : Bool) (ss : List Nat) : List Nat := ss.map fun s => (if pam4 then 3 else 1) - s

/-! ### 64b/66b blocks and the scrambler (R533) -/

/-- The block type of a frame's end after `n` bytes in its last block (Clause 49). -/
def termType (n : Nat) : Nat := [0x87, 0x99, 0xAA, 0xB4, 0xCC, 0xD2, 0xE1, 0xFF].getD n 0x87

/-- The block types of Clause 49; the first nibble sent names each. -/
def blockTypes : List Nat := [0x1E, 0x2D, 0x33, 0x4B, 0x55, 0x66, 0x78, 0x87, 0x99, 0xAA, 0xB4, 0xCC, 0xD2, 0xE1, 0xFF]

/-- Eight idle characters. -/
def idleBlock : PcsBlock := ⟨true, false, 0x1E⟩

/-- The blocks of a frame: preamble and start-of-frame delimiter (R537) in the start block, then the frame, then its end. -/
def frameBlocks (f : List Byte) : List PcsBlock :=
  let full := f.length / 8
  ⟨true, false, leNat (0x78 :: (List.replicate 6 0x55 ++ [0xD5]))⟩ ::
    ((List.range full).map fun i => ⟨false, false, leNat ((f.drop (8 * i)).take 8)⟩) ++
    [⟨true, false, termType (f.length % 8) + 256 * leNat (f.drop (8 * full))⟩]

/-- The idle blocks after a frame of `n` bytes whose gaps so far fall short by `deficit`, and the shortfall after it: frames
start at a block, the gap counts from the end character, and deficit idle counting lets it fall short of 12 bytes while the
shortfalls together stay below 8, so that it averages 12 (R537). -/
def gapIdles (n deficit : Nat) : Nat × Nat :=
  let inEnd := 8 - n % 8
  let idles := (12 - inEnd) / 8
  let short := 12 - inEnd - 8 * idles
  if deficit + short < 8 then (idles, deficit + short) else (idles + 1, deficit + short - 8)

/-- The frames that blocks carry: the bytes of each, and whether a block of it was invalid; one that no end block ends is
invalid too, and what follows it is looked at anew. -/
def blocksFrames : Nat → List PcsBlock → List (List Byte × Bool)
  | 0, _ => []
  | fuel + 1, bs =>
    match bs.dropWhile fun b => !(b.control && b.payload % 256 == 0x78) with
    | [] => []
    | start :: body =>
      let data := body.takeWhile fun b => !b.control
      let bytes := data.flatMap fun b => leSeq b.payload 8
      let bad := start.bad || data.any (·.bad)
      match body.drop data.length with
      | [] => []
      | e :: rest =>
        match (List.range 8).find? fun n => termType n == e.payload % 256 with
        | none => (bytes, true) :: blocksFrames fuel (e :: rest)
        | some n => (bytes ++ leSeq (e.payload / 256) n, bad || e.bad) :: blocksFrames fuel rest

/-- One bit through the scrambler x^58 + x^39 + 1; bit i of the state is the line bit sent i + 1 bits before (R533). -/
def scramBit (st : Nat) (b : Bool) : Bool := b ^^ st.testBit 38 ^^ st.testBit 57

/-- The state after a line bit. -/
def scramNext (st : Nat) (line : Bool) : Nat := (2 * st + line.toNat) % 2 ^ 58

/-- Bits scrambled in order: the line bits and the state after them. -/
def scramble (st : Nat) : List Bool → List Bool × Nat
  | [] => ([], st)
  | b :: bs =>
    let s := scramBit st b
    let r := scramble (scramNext st s) bs
    (s :: r.1, r.2)

/-- Line bits descrambled in order: the self-synchronous inverse. -/
def descramble (st : Nat) : List Bool → List Bool × Nat
  | [] => ([], st)
  | s :: ss =>
    let r := descramble (scramNext st s) ss
    (scramBit st s :: r.1, r.2)

/-- The payloads of blocks through the scrambler; sync headers stay outside it. -/
def scrambleBlocks (st : Nat) : List PcsBlock → List PcsBlock × Nat
  | [] => ([], st)
  | b :: bs =>
    let r := scramble st (lsb 64 b.payload)
    let q := scrambleBlocks r.2 bs
    ({ b with payload := ofLsb r.1 } :: q.1, q.2)

/-- Their inverse. -/
def descrambleBlocks (st : Nat) : List PcsBlock → List PcsBlock × Nat
  | [] => ([], st)
  | b :: bs =>
    let r := descramble st (lsb 64 b.payload)
    let q := descrambleBlocks r.2 bs
    ({ b with payload := ofLsb r.1 } :: q.1, q.2)

/-! ### 256b/257b transcoding (R533; Clause 91) -/

/-- The first five bits of a transcoded group, xored with bits 12 to 8. -/
def maskHeader (bs : List Bool) : List Bool :=
  List.zipWith (· ^^ ·) (bs.take 5) ((bs.drop 8).take 5) ++ bs.drop 5

/-- Four scrambled blocks as 257 bits: with a control block among them, a header names the control blocks, and the second
nibble of the first one's block type is left out. -/
def transcode (bs : List PcsBlock) : List Bool :=
  let pay := bs.flatMap fun b => lsb 64 b.payload
  maskHeader (match bs.findIdx? (·.control) with
    | none => true :: pay
    | some c => false :: (bs.map fun b => !b.control) ++ pay.take (64 * c + 4) ++ pay.drop (64 * c + 8))

/-- The scrambled second nibble that was left out of a control block, from the state before the block and its first scrambled
nibble: the first nibble names the block type. -/
def lostNibble (st : Nat) (first : List Bool) : List Bool :=
  let r := descramble st first
  let n := ofLsb r.1
  let ty := (blockTypes.find? (· % 16 == n)).getD 0
  (scramble r.2 (lsb 4 (ty / 16))).1

/-- The scrambler state after line bits. -/
def scramAfter (st : Nat) (line : List Bool) : Nat := line.foldl scramNext st

/-- Four scrambled blocks from 257 bits; `st` is the descrambler's state before them. -/
def untranscode (st : Nat) (bits : List Bool) : List PcsBlock :=
  let bs := maskHeader bits
  if bs.headD false then (pieces 64 (bs.drop 1)).map fun p => ⟨false, false, ofLsb p⟩
  else
    let kinds := ((bs.drop 1).take 4).map (!·)
    let body := bs.drop 5
    let c := (kinds.findIdx? id).getD 0
    let before := body.take (64 * c)
    let first := (body.drop (64 * c)).take 4
    let pay := before ++ first ++ lostNibble (scramAfter st before) first ++ body.drop (64 * c + 4)
    List.zipWith (fun k p => ⟨k, false, ofLsb p⟩) kinds (pieces 64 pay)

/-! ### Reed-Solomon codes over 10-bit symbols (R534; Clause 91) -/

/-- Twice an element of GF(2^10), whose primitive polynomial is x^10 + x^3 + 1. -/
def gfDouble (a : Nat) : Nat := if a < 512 then 2 * a else (2 * a - 1024) ^^^ 9

/-- The product of two elements. -/
def gfMul (a b : Nat) : Nat :=
  ((List.range 10).foldl (fun (r : Nat × Nat) i => (if b.testBit i then r.1 ^^^ r.2 else r.1, gfDouble r.2)) (0, a)).1

/-- A power of an element. -/
def gfPow (a n : Nat) : Nat := (List.range 10).foldl (fun r i =>
  let sq := gfMul r r
  if n.testBit (9 - i) then gfMul sq a else sq) 1

/-- The power `n` of the primitive element. -/
def gfAlpha (n : Nat) : Nat := gfPow 2 (n % 1023)

/-- The inverse of a nonzero element. -/
def gfInv (a : Nat) : Nat := gfPow a 1022

/-- The product of two polynomials, constant terms first. -/
def polyMul (p q : List Nat) : List Nat :=
  (List.range (p.length + q.length - 1)).map fun n =>
    (List.range (n + 1)).foldl (fun s i => s ^^^ gfMul (p.getD i 0) (q.getD (n - i) 0)) 0

/-- The value of a polynomial. -/
def polyAt (p : List Nat) (x : Nat) : Nat := p.foldr (fun c v => gfMul v x ^^^ c) 0

/-- The generator of a code with `r` check symbols. -/
def rsGenerator (r : Nat) : List Nat := (List.range r).foldl (fun g j => polyMul g [gfAlpha j, 1]) [1]

/-- The check symbols of a message, the first in time leading both. -/
def rsCheck (r : Nat) (message : List Nat) : List Nat :=
  let g := ((rsGenerator r).take r).reverse
  message.foldl (fun rem m =>
    let top := m ^^^ rem.headD 0
    List.zipWith (fun a c => a ^^^ gfMul top c) (rem.drop 1 ++ [0]) g) (List.replicate r 0)

/-- Check symbols of a codeword: RS(544,514) or, at 25.78125 Gb/s, RS(528,514) (R525, R534). -/
def rsSymbols (rate : Nat) : Nat := if rate = 3 then 14 else 30

/-- The syndromes of a codeword. -/
def rsSyndromes (r : Nat) (cw : List Nat) : List Nat :=
  (List.range r).map fun j => let x := gfAlpha j; cw.foldl (fun v c => gfMul v x ^^^ c) 0

/-- One step of the Berlekamp-Massey recursion: locator, previous locator, length, shift and last discrepancy. -/
def bmStep (syn : List Nat) (s : List Nat × List Nat × Nat × Nat × Nat) (n : Nat) : List Nat × List Nat × Nat × Nat × Nat :=
  let (c, b, len, m, last) := s
  let d := (List.range (len + 1)).foldl (fun v i => v ^^^ gfMul (c.getD i 0) (if i ≤ n then syn.getD (n - i) 0 else 0)) 0
  if d = 0 then (c, b, len, m + 1, last)
  else
    let k := gfMul d (gfInv last)
    let shifted := List.replicate m 0 ++ b.map (gfMul k)
    let size := max c.length shifted.length
    let c' := (List.range size).map fun i => c.getD i 0 ^^^ shifted.getD i 0
    if 2 * len ≤ n then (c', c, n + 1 - len, 1, d) else (c', b, len, m + 1, last)

/-- A received codeword as the decoder leaves it, with the places of the symbols it corrected; none where it is uncorrectable:
up to half as many symbols as there are check symbols are corrected (R534). -/
def rsDecode (r : Nat) (cw : List Nat) : Option (List Nat × List Nat) :=
  let syn := rsSyndromes r cw
  if syn.all (· == 0) then some (cw, [])
  else
    let n := cw.length
    let (loc, _, len, _, _) := (List.range r).foldl (bmStep syn) ([1], [1], 0, 1, 1)
    let at' := (List.range n).filter fun i => polyAt loc (gfAlpha (1023 - (n - 1 - i) % 1023)) == 0
    if r / 2 < len ∨ at'.length ≠ len then none
    else
      let omega := (polyMul syn loc).take r
      let deriv := (List.range loc.length).map fun i => if i % 2 = 0 then loc.getD (i + 1) 0 else 0
      let fixed := (List.range n).map fun i =>
        if at'.contains i then
          let x := gfAlpha (n - 1 - i)
          let inv := gfInv x
          cw.getD i 0 ^^^ gfMul x (gfMul (polyAt omega inv) (gfInv (polyAt deriv inv)))
        else cw.getD i 0
      if (rsSyndromes r fixed).all (· == 0) then some (fixed, at') else none

/-! ### A port's line (R533) -/

/-- Codewords interleaved symbol by symbol on a port: four at 800 Gb/s and above, two at 100 to 400 Gb/s, one below. -/
def interleave (gbps : Nat) : Nat := if 800 ≤ gbps then 4 else if 100 ≤ gbps then 2 else 1

/-- How the line of a port is formed: lane rate, FEC in use, lanes and codewords interleaved. -/
structure LineForm where
  pam4 : Bool
  fec : Bool
  check : Nat
  lanes : Nat
  ways : Nat
  deriving DecidableEq, Repr

/-- A codeword with these wrong symbols is uncorrectable: the code corrects half as many as it has check symbols (R534). -/
def LineForm.spoilt (x : LineForm) (wrong : List Nat) : Bool := decide (x.check / 2 < wrong.length)

/-- The form of a port's line (R525, R533). -/
def Core.lineForm (k : Core) (d l : Nat) : LineForm :=
  let w := dw d
  let rate := k.rd R.PRT_OCT_CFG_RATE w (l / 8) 0
  ⟨rate != 3, !(rate == 3 && k.rd R.PRT_OCT_CFG_FEC25 w (l / 8) 0 == 1), rsSymbols rate,
   portLanes (k.rd R.PRT_OCT_CFG_MODE w (l / 8) 0), interleave (k.portGbps d l)⟩

/-- The alignment markers of an interface as whole 257-bit groups, which stand ahead of the transcoded blocks of a set of
codewords (R533). DESIGN CHOICE (log 122): what fills their last group is zeros; IEEE 802.3 gives it. -/
def markerGroups (gbps : Nat) : List (List Bool) :=
  let am := Config.alignmentMarkers gbps
  pieces 257 (am ++ List.replicate ((257 - am.length % 257) % 257) false)

/-- Blocks filled up with idles to whole sets of codewords of 80 blocks each, `m` marker groups standing ahead of them. -/
def fillBlocks (ways m : Nat) (bs : List PcsBlock) : List PcsBlock :=
  bs ++ List.replicate ((80 * ways - (bs.length + 4 * m) % (80 * ways)) % (80 * ways)) idleBlock

/-- The blocks that fill whole sets of codewords, `m` marker groups ahead of them, and the blocks left over. -/
def wholeSets (ways m : Nat) (bs : List PcsBlock) : List PcsBlock × List PcsBlock :=
  let n := (bs.length + 4 * m) / (80 * ways) * (80 * ways) - 4 * m
  (bs.take n, bs.drop n)

/-- Lists taken in turn, one element of each. -/
def weave (xs : List (List Nat)) : List Nat :=
  (List.range ((xs.map (·.length)).foldl max 0)).flatMap fun i => xs.filterMap (·[i]?)

/-- Element `i` of every `n`. -/
def every (n i : Nat) {α : Type} (xs : List α) : List α :=
  ((List.range xs.length).zip xs).filterMap fun x => if x.1 % n = i then some x.2 else none

/-- The sync header of a block, first bit first: 01 for data and 10 for control. -/
def syncBits (b : PcsBlock) : List Bool := [b.control, !b.control]

/-- The bits of each lane for scrambled blocks (R533): behind the marker groups `am`, which no scrambler changes, transcoded,
coded and distributed symbol by symbol; or the blocks as they are where there is no FEC. -/
def laneBits (x : LineForm) (am : List (List Bool)) (bs : List PcsBlock) : List (List Bool) :=
  if x.fec then
    let bits := am.flatten ++ (pieces 4 bs).flatMap transcode
    let words := (pieces 514 ((pieces 10 bits).map ofLsb)).map fun m => m ++ rsCheck x.check m
    let syms := (pieces x.ways words).flatMap weave
    (List.range x.lanes).map fun i => (every x.lanes i syms).flatMap (lsb 10)
  else [bs.flatMap fun b => syncBits b ++ lsb 64 b.payload]

/-- A codeword as received: its blocks' bits, whether it is uncorrectable, and the places it was corrected in. -/
structure Received where
  message : List Nat
  bad : Bool
  fixed : List Nat
  deriving DecidableEq, Repr

/-- The codewords in the bits of each lane. -/
def laneWords (x : LineForm) (lanes : List (List Bool)) : List Received :=
  let syms := weave (lanes.map fun b => (pieces 10 b).map ofLsb)
  let n := 514 + x.check
  ((pieces (n * x.ways) syms).flatMap fun s => (List.range x.ways).map fun i => every x.ways i s).map fun cw =>
    match rsDecode x.check cw with
    | some r => ⟨r.1.take 514, false, r.2⟩
    | none => ⟨cw.take 514, true, []⟩

/-- The 257-bit groups of received codewords, each with whether its codeword was uncorrectable. -/
def wordGroups (rs : List Received) : List (List Bool × Bool) :=
  rs.flatMap fun r => (pieces 257 (r.message.flatMap (lsb 10))).map fun g => (g, r.bad)

/-- The groups behind the alignment markers: markers are where their codewords are due, or where the bits are theirs (R533). -/
def dropMarkers (due : Bool) (am : List (List Bool)) (gs : List (List Bool × Bool)) : List (List Bool × Bool) :=
  if due || (gs.take am.length).map (·.1) == am then gs.drop am.length else gs

/-- The scrambled blocks of received groups; those of an uncorrectable codeword have their sync headers corrupted (R535). -/
def groupBlocks (st : Nat) : List (List Bool × Bool) → List PcsBlock
  | [] => []
  | g :: gs =>
    let bs := (untranscode st g.1).map fun b => { b with bad := b.bad || g.2 }
    bs ++ groupBlocks (bs.foldl (fun st b => scramAfter st (lsb 64 b.payload)) st) gs

/-- The blocks in the bits of a lane without FEC. -/
def plainBlocks (bits : List Bool) : List PcsBlock :=
  (pieces 66 bits).map fun b => ⟨b.getD 0 false, b.getD 0 false == b.getD 1 false, ofLsb (b.drop 2)⟩

/-! ### Sending and receiving on a port's lanes -/

/-- The lanes of a port. -/
def Core.portLaneList (k : Core) (d l : Nat) : List Nat := (List.range (k.lineForm d l).lanes).map (l + ·)

/-- A lane's symbols for its bits, precoded and inverted as the lane's settings say (R528, R529, R532): the symbols and P after
them. -/
def Core.laneSend (k : Core) (d x : Nat) (pam4 : Bool) (bits : List Bool) : List Nat × Nat :=
  let w := dw d
  let p := k.link.preTx.get (d * 256 + x)
  let gs := toSymbols pam4 bits
  let on := pam4 && k.rd R.LAN_LANE_STAT_PRE_TX_ACT w (x / 8) (x % 8) == 1
  let ps := if on then precodeTx p gs else gs
  (if k.rd R.LAN_LANE_CFG_TX_INV w (x / 8) (x % 8) = 1 then invertLane pam4 ps else ps, if on then ps.getLastD p else p)

/-- A lane's bits for the symbols it receives (R528, R529, R532): the bits and P after them. -/
def Core.laneReceive (k : Core) (d x : Nat) (pam4 : Bool) (symbols : List Nat) : List Bool × Nat :=
  let w := dw d
  let p := k.link.preRx.get (d * 256 + x)
  let ps := if k.rd R.LAN_LANE_CFG_RX_INV w (x / 8) (x % 8) = 1 then invertLane pam4 symbols else symbols
  let on := pam4 && k.rd R.LAN_LANE_STAT_PRE_RX_ACT w (x / 8) (x % 8) == 1
  (ofSymbols pam4 (if on then precodeRx p ps else ps), if on then ps.getLastD p else p)

/-- The marker groups that go out ahead of a port's next set of codewords: none before their period has passed (R533). -/
def Core.markersNow (k : Core) (d l : Nat) : List (List Bool) :=
  let gbps := k.portGbps d l
  if (k.lineForm d l).fec && decide (Config.markerPeriod gbps ≤ k.link.sentWords.get (d * 256 + l)) then markerGroups gbps else []

/-- Blocks on a port scrambled, and the scrambler after them. -/
def Core.lineBlocks (k : Core) (d l : Nat) (bs : List PcsBlock) : List PcsBlock × Nat :=
  scrambleBlocks (k.link.scramTx.get (d * 256 + l)) bs

/-- Each lane of a port with the symbols that carry blocks on it and P after them. -/
def Core.lineLanes (k : Core) (d l : Nat) (bs : List PcsBlock) : List (Nat × List Nat × Nat) :=
  let x := k.lineForm d l
  ((k.portLaneList d l).zip (laneBits x (k.markersNow d l) (k.lineBlocks d l bs).1)).map fun (y : Nat × List Bool) =>
    (y.1, k.laneSend d y.1 x.pam4 y.2)

/-- Blocks go out on the lanes of a port: the symbols each lane sends, with the coders' states after them. -/
def Core.sendBlocks (k : Core) (d l : Nat) (bs : List PcsBlock) : Core :=
  if bs.isEmpty then k
  else
    let g := d * 256 + l
    let am := k.markersNow d l
    let sent := (bs.length + 4 * am.length) / 80
    { k with
      link := { k.link with
        sentWords := k.link.sentWords.set g (if am.isEmpty then k.link.sentWords.get g + sent else sent)
        scramTx := k.link.scramTx.set g (k.lineBlocks d l bs).2
        preTx := (k.lineLanes d l bs).foldl (fun m y => m.set (d * 256 + y.1) y.2.2) k.link.preTx }
      out := .line g ((k.lineLanes d l bs).map fun y => y.2.1) :: (if am.isEmpty then [] else [.markers g am.flatten]) ++ k.out }

/-- The blocks of a port's open codewords. -/
def Core.tailOf (k : Core) (g : Nat) : List PcsBlock := ((k.link.tails.find? (·.port == g)).map (·.blocks)).getD []

/-- Replace them. -/
def Core.setTail (k : Core) (g : Nat) (bs : List PcsBlock) : Core :=
  let others := k.link.tails.filter (·.port != g)
  { k with link := { k.link with tails := if bs.isEmpty then others else others ++ [⟨g, k.time.now, bs⟩] } }

/-- A frame goes out on the lanes of its port behind what the open codewords hold, and the gap after it (R533, R537): the
codewords it completes are sent, and the rest waits for what follows. Where there is no FEC every block goes out at once. -/
def Core.sendLine (k : Core) (d l : Nat) (f : List Byte) : Core :=
  let g := d * 256 + l
  let x := k.lineForm d l
  let gap := gapIdles f.length (k.link.deficit.get g)
  let bs := k.tailOf g ++ frameBlocks f ++ List.replicate gap.1 idleBlock
  let cut := if x.fec then wholeSets x.ways (k.markersNow d l).length bs else (bs, [])
  let k1 := (k.sendBlocks d l cut.1).setTail g cut.2
  { k1 with link := { k1.link with deficit := k1.link.deficit.set g gap.2 } }

/-- Idles fill the open codewords that nothing has followed for the time of a set of codewords, and they go out (R533). DESIGN
CHOICE (log 122): codewords of idles alone carry nothing and are left out. -/
def Core.fillTails (k : Core) : Core :=
  (k.link.tails.filter fun t =>
    decide (t.since + 5120 * interleave (k.portGbps (t.port / 256) (t.port % 256)) / max (k.portGbps (t.port / 256) (t.port % 256)) 1
      < k.time.now)).foldl (fun k t =>
    let d := t.port / 256
    let l := t.port % 256
    (k.sendBlocks d l (fillBlocks (k.lineForm d l).ways (k.markersNow d l).length t.blocks)).setTail t.port []) k

/-- What a port's lanes receive as symbols: its codewords, and the frames they carry with whether an invalid block stands in each;
with the coders' states after them. -/
def Core.receiveLine (k : Core) (d l : Nat) (symbols : List (List Nat)) : Core × List Received × List (List Byte × Bool) :=
  let x := k.lineForm d l
  let g := d * 256 + l
  let gbps := k.portGbps d l
  let lanes := ((k.portLaneList d l).zip symbols).map fun (y : Nat × List Nat) => (y.1, k.laneReceive d y.1 x.pam4 y.2)
  let bits := lanes.map fun (y : Nat × List Bool × Nat) => y.2.1
  let words := if x.fec then laneWords x bits else []
  let st := k.link.scramRx.get g
  let groups := wordGroups words
  let kept := dropMarkers (decide (Config.markerPeriod gbps ≤ k.link.rcvdWords.get g)) (markerGroups gbps) groups
  let blocks := if x.fec then groupBlocks st kept else plainBlocks (bits.headD [])
  let r := descrambleBlocks st blocks
  ({ k with link := { k.link with
      rcvdWords := k.link.rcvdWords.set g (if kept.length < groups.length then words.length else k.link.rcvdWords.get g + words.length)
      scramRx := k.link.scramRx.set g r.2
      preRx := lanes.foldl (fun (m : SMap) (y : Nat × List Bool × Nat) => m.set (d * 256 + y.1) y.2.2) k.link.preRx } },
    words, blocksFrames r.1.length r.1)

/-! ### What the lanes and the Reticle show (R547, R559, R564) -/

/-- The baud rate of a lane rate, in kBd (R525, R547). -/
def baudKilo (rate : Nat) : Nat :=
  if rate = 0 then 106250000 else if rate = 1 then 53125000 else if rate = 2 then 26562500 else 25781250

/-- The points of a scan: 4,096, or 256 in a summary of three eyes, 128 of one (R547). -/
def scanPoints (full : Bool) (rate : Nat) : Nat := if full then 4096 else if rate = 3 then 128 else 256

/-- Points a running scan has completed, 2^DWELL UI at each (R547). -/
def Core.scanned (k : Core) (x : Scan) : Nat :=
  let rate := k.rd R.PRT_OCT_CFG_RATE (dw x.die) x.oct 0
  min (scanPoints x.full rate) ((k.time.now - x.since) * baudKilo rate / (1000000 * 2 ^ x.dwell))

/-- LAN_RTC_STAT.POINTS: of the scan it shows while that runs, else as the last one left it. -/
def Core.scanProgress (k : Core) (w o : Nat) : Nat :=
  let sw := k.rd R.LAN_RTC_STAT_SW w o 0 == 1
  match k.link.scans.find? fun x => x.die + 1 == w && x.oct == o && x.software == sw with
  | some x => if k.rd R.LAN_RTC_STAT_STATE w o 0 = 1 then k.scanned x else k.rd R.LAN_RTC_STAT_POINTS w o 0
  | none => k.rd R.LAN_RTC_STAT_POINTS w o 0

/-- The first lane of the port a lane belongs to. -/
def Core.portLane (k : Core) (d l : Nat) : Nat := l - l % 8 % portLanes (k.rd R.PRT_OCT_CFG_MODE (dw d) (l / 8) 0)

/-- SIGNAL, CDR_LOCK and ADAPTED of a lane (R544, R559): all stand while the link is up and none in L2, where receiver and loops
are off; in L1 clock recovery is locked. Else the line and the loops settle them: DESIGN CHOICE (log 145), a free bit, for no
command carries what the receiver meets between two links. -/
def Core.laneShown (j : Nat) (k : Core) (w p i : Nat) : Nat :=
  let d := w - 1
  let l := k.portLane d (8 * p + i)
  if k.td T.BUF_PORT_LINK_UP w 0 l = 1 then 1
  else
    let st := k.td T.PRT_PORT_LINK_STATE w p (l % 8)
    if st = 6 then 0 else if st = 5 ∧ j = 1 then 1 else Config.freeValue (k.time.draws + j) % 2

/-- PLL_LOCK of an octet (R559, R562): its clock synthesiser is locked while the lane controller runs and a lane is in another
state than L2; a free bit while a calibration covers it (R552). -/
def Core.pllShown (k : Core) (w o : Nat) : Nat :=
  let d := w - 1
  if k.rd R.LAN_OCT_STATUS_MC_READY w o 0 = 0 then 0
  else if k.link.calibs.any fun x => x.die == d && x.oct == o && x.whole then Config.freeValue k.time.draws % 2
  else b2n (((List.range 8).map (8 * o + ·)).any fun l => k.portExists d l && k.td T.PRT_PORT_LINK_STATE w o (l % 8) != 6)

/-- The symbols of a codeword that were corrected on each lane of a port: codeword `c` of its set. -/
def Core.fixedPerLane (k : Core) (d l c : Nat) (fixed : List Nat) : List Nat :=
  let x := k.lineForm d l
  (List.range x.lanes).map fun i => fixed.countP fun s => (s * x.ways + c % x.ways) % x.lanes == i

end Sys2Proof.Machine
end

