-- ==== Sys2Proof/Machine/CxlOps.lean ====
section
/-!
DEFINITION. The memory tier's shared operations (R609 to R620): regions, budgets, lines, and the deep catalogue's
entries in region 1 (R290, R291).
-/
namespace Sys2Proof.Machine

/-- A root port is up. -/
def Core.cxlUp (k : Core) (p : Nat) : Bool := k.rd R.CXL_PORT_STATUS_STATE 0 p 0 == 3

/-- A region takes requests: enabled, committed and active or on its surviving port (R611, R614). -/
def Core.regionOn (k : Core) (r : Nat) : Bool :=
  k.rd R.CXL_REG_EN 0 0 r == 1 && k.rd R.CXL_REG_COMMITTED 0 0 r == 1 &&
    (k.rd R.CXL_REG_STATE 0 0 r == 1 || k.rd R.CXL_REG_STATE 0 0 r == 3)

/-- The port a region is read from: its own, except that a mirrored region 0 reads port 1 while port 0 is not up
(R614). -/
def Core.regionPort (k : Core) (r : Nat) : Nat :=
  if r = 0 ∧ k.rd R.CXL_REG_MIRROR 0 0 0 = 1 ∧ ¬ k.cxlUp 0 then 1 else k.rd R.CXL_REG_PORT 0 0 r

/-- Lines of a region: 256 MiB units of 64-byte lines. -/
def Core.regionLines (k : Core) (r : Nat) : Nat := k.rd R.CXL_REG_SIZE 0 0 r * 4194304

/-- The key of line `n` of a region on its device. -/
def Core.lineKey (k : Core) (r n : Nat) : Nat :=
  k.regionPort r * 2 ^ 36 + (k.rd R.CXL_REG_DPA_BASE 0 0 r * 4194304 + n)

/-- Tokens in a region's bucket (R610). -/
def Core.tokens (k : Core) (r : Nat) : Nat := 65536 - k.cxl.taken.get r

/-- Take bytes from a region's bucket: a request that moves more than it held leaves a debt, which refills pay first (R610). -/
def Core.spend (k : Core) (r n : Nat) : Core :=
  { k with cxl := { k.cxl with taken := k.cxl.taken.set r (k.cxl.taken.get r + n) } }

/-- Add to a saturating 64-bit counter in two registers (R623). -/
def Core.add64Sat (k : Core) (lo hi : Fld) (w p i n : Nat) : Core :=
  k.onIo fun io => io.wr64 lo hi w p i (min (2 ^ 64 - 1) (io.rd64 lo hi w p i + n))

/-- A region's requests have read `n` bytes in 64-byte lines (R623, R755); a request that is answered ends a row of timeouts
(R615). -/
def Core.regionRead (k : Core) (r n : Nat) : Core :=
  let p := k.regionPort r
  let k0 := { k with cxl := { k.cxl with timeouts := k.cxl.timeouts.set p 0 } }
  (k0.add64Sat R.CXL_PORT_RD_BYTES_LO R.CXL_PORT_RD_BYTES_HI 0 p 0 n).count 0 10 0 0 (n / 64)

/-- A region's requests have written `n` bytes, of a mirrored region 0 to both devices (R614, R623, R755). -/
def Core.regionWrote (k : Core) (r n : Nat) : Core :=
  let ps := if r = 0 ∧ k.rd R.CXL_REG_MIRROR 0 0 0 = 1 then [0, 1] else [k.regionPort r]
  ps.foldl (fun k p =>
    let k0 := { k with cxl := { k.cxl with timeouts := k.cxl.timeouts.set p 0 } }
    (k0.add64Sat R.CXL_PORT_WR_BYTES_LO R.CXL_PORT_WR_BYTES_HI 0 p 0 n).count 0 10 1 0 (n / 64)) k

/-- A read of a region that was asked for at `since` is answered: its latency is noted (R623). A read that its own command asks
for and answers is noted nowhere: the model's clock does not run within a command (log 118). -/
def Core.answered (k : Core) (r since : Nat) : Core :=
  let p := k.regionPort r
  let l := min 65535 (k.time.now - since)
  let k1 := k.wr R.CXL_PORT_LAT_MAX_NS 0 p 0 (max l (k.rd R.CXL_PORT_LAT_MAX_NS 0 p 0))
  { k1 with cxl := { k1.cxl with
      answers := (p, k.time.now, l) :: k1.cxl.answers.filter fun x => decide (k.time.now < x.2.1 + 1000000) } }

/-- The mean latency of a port's reads over the last 1 ms, 0 when there was none (R623). -/
def Core.meanLatency (k : Core) (p : Nat) : Nat :=
  let xs := k.cxl.answers.filter fun x => x.1 == p && decide (k.time.now < x.2.1 + 1000000)
  xs.foldl (fun n x => n + x.2.2) 0 / max 1 xs.length

/-- A read of a region has returned poison (R616, R622, R623). -/
def Core.regionPoison (k : Core) (r : Nat) : Core :=
  ((k.bump R.CXL_PORT_RD_POISON_CNT 0 (k.regionPort r) 0 1).raise 0 0x90 2).count 0 10 2 0 1

/-- The device finds line `n` of a region poisoned (R616). -/
def Core.poisonLine (k : Core) (r n : Nat) : Core :=
  { k with cxl := { k.cxl with poison := (k.lineKey r n :: k.cxl.poison).eraseDups } }

/-- The device finds lines of a deep lookup or command poisoned: bit 0 the first, bit 1 the second. -/
def Core.poisonPair (k : Core) (ls : Nat × Nat) (which : Nat) : Core :=
  let k1 := if bit which 0 = 1 then k.poisonLine 1 ls.1 else k
  if bit which 1 = 1 then k1.poisonLine 1 ls.2 else k1

/-- Firmware reads a line of region 0 (R610, R613, R616): from the surviving port where the other is lost (R614, R625). -/
def Core.firmwareRead (k : Core) (poisoned : Bool) : Core :=
  let k1 := (k.spend 0 64).regionRead 0 64
  if poisoned then k1.regionPoison 0 else k1

/-- Read a line: it takes budget and counts; a poisoned line counts and raises the poisoned-read event (R616, R622). -/
def Core.readLine (k : Core) (r n : Nat) : Core × Nat × Bool :=
  let key := k.lineKey r n
  let k1 := (k.spend r 64).regionRead r 64
  if k.cxl.poison.contains key then (k1.regionPoison r, k.cxl.lines.get key, true)
  else (k1, k.cxl.lines.get key, false)

/-- Write a line: whole, so it clears a poison; a mirrored region 0 writes both devices (R614). -/
def Core.writeLine (k : Core) (r n v : Nat) : Core :=
  let key := k.lineKey r n
  let both := r == 0 && k.rd R.CXL_REG_MIRROR 0 0 0 == 1
  let keys := if both then [key % 2 ^ 36, 2 ^ 36 + key % 2 ^ 36] else [key]
  let k1 := (k.spend r 64).regionWrote r 64
  { k1 with cxl := { k1.cxl with
      lines := keys.foldl (fun m x => m.set x (v % 2 ^ 512)) k1.cxl.lines
      poison := k1.cxl.poison.filter (!keys.contains ·) } }

/-! ### The deep catalogue (R290, R291) -/

/-- The deep catalogue's lines fit region 1 as it stands (R295). -/
def Core.deepFits (k : Core) (d : Nat) : Bool :=
  decide (2 ^ k.rd R.CAT_DEEP_CFG_SIZE_LOG2 (dw d) 0 0 * 32 ≤ k.rd R.CXL_REG_SIZE 0 0 1 * 268435456)

/-- Deep lookups and commands of a die can be issued (R292, R293, R295, R313); not since region 1 came back too small, until
software writes EN = 0. -/
def Core.deepOn (k : Core) (d : Nat) : Bool :=
  k.rd R.CAT_DEEP_CFG_EN (dw d) 0 0 == 1 && k.regionOn 1 && k.cxlUp (k.regionPort 1) && k.deepFits d &&
    !k.cxl.deepStuck.contains d

end Sys2Proof.Machine
end

