-- ==== Sys2Proof/Machine/BufOps.lean ====
section
/-!
DEFINITION. The accounts of the shared buffer (R315 to R328, R336 to R345, R779): the pool sizes, charging and
releasing ingress, parking, landing and egress accounts, what carries each cell, XOFF and stop.
-/
namespace Sys2Proof.Machine

/-! ### Pool sizes (R317) -/

/-- Ingress minima of a port. -/
def Core.ingressMinima (k : Core) (d l : Nat) : Nat :=
  (List.range 8).foldl (fun n g => n + k.td T.BUF_PG_MIN (dw d) 0 (l * 8 + g)) 0

/-- Egress minima of a port. -/
def Core.egressMinima (k : Core) (d l : Nat) : Nat :=
  (List.range 16).foldl (fun n q => n + k.td T.BUF_Q_MIN (dw d) 0 (l * 16 + q)) 0

/-- Cells of a die that the shared pool does not get. -/
def Core.reservedCells (k : Core) (d : Nat) : Nat :=
  (k.portsOf d).foldl (fun n l => n + k.ingressMinima d l + k.egressMinima d l) 0
    + k.rd R.BUF_POOL_HDRM_CELLS (dw d) 0 0 + 8192
    + (List.range 8).foldl (fun n p => n + k.rd R.SEQ_PARK_POOL_CELLS (dw d) p 0) 0
    + (if k.rd R.BUF_SPILL_CFG_EN (dw d) 0 0 = 1 then k.rd R.BUF_SPILL_RSV_FETCH_CELLS (dw d) 0 0 else 0)

/-- The shared pool's size, BUF_POOL_SHARED.CELLS (R317). -/
def Core.sharedSize (k : Core) (d : Nat) : Nat := 786432 - k.reservedCells d

/-- F: the shared pool less the cells it carries (R779). -/
def Core.freeCells (k : Core) (d : Nat) : Nat := k.sharedSize d - k.buf.carried.get d

/-- The sum of HDRM over the lossless PGs of a die (R318). -/
def Core.losslessHeadroom (k : Core) (d : Nat) : Nat :=
  (k.portsOf d).foldl (fun n l => (List.range 8).foldl (fun n g =>
    if bit (k.td T.BUF_PORT_LOSSLESS (dw d) 0 l) g = 1 then n + k.td T.BUF_PG_HDRM (dw d) 0 (l * 8 + g) else n) n) 0

/-- The checks of R318: the pool keeps 65,536 cells and the headroom pool covers the lossless PGs. -/
def Core.poolOk (k : Core) (d : Nat) : Bool :=
  decide (k.reservedCells d + 65536 ≤ 786432) &&
    decide (k.losslessHeadroom d ≤ k.rd R.BUF_POOL_HDRM_CELLS (dw d) 0 0)

/-- Change what the shared pool of a die carries. -/
def Core.setCarried (k : Core) (d n : Nat) : Core := { k with buf := { k.buf with carried := k.buf.carried.set d n } }

/-! ### Ingress accounts (R323 to R328) -/

/-- A of an ingress account. -/
def Core.ingA (k : Core) (d l g : Nat) : Nat := k.td T.BUF_PG_USED (dw d) 0 (l * 8 + g)

/-- H of an ingress account. -/
def Core.ingH (k : Core) (d l g : Nat) : Nat := k.td T.BUF_PG_HDRM_USED (dw d) 0 (l * 8 + g)

/-- S = max(0, A − MIN). -/
def Core.ingS (k : Core) (d l g : Nat) : Nat := k.ingA d l g - k.td T.BUF_PG_MIN (dw d) 0 (l * 8 + g)

/-- S ≥ T with T = α × F, compared exactly: α = 2^(k − 6) (R323). -/
def overLimit (s alpha f : Nat) : Bool := decide (2 ^ alpha * f ≤ s * 64)

/-- S ≤ max(0, T − offset), compared exactly. -/
def underLimit (s alpha f ofs : Nat) : Bool := decide (s = 0) || decide ((s + ofs) * 64 ≤ 2 ^ alpha * f)

/-- What the shared pool carries of an ingress account: A − H − min(A, MIN) (R779). -/
def remainder (a h min' : Nat) : Nat := a - h - min a min'

/-- The PG is lossless (R328). -/
def Core.losslessPg (k : Core) (d l g : Nat) : Bool := bit (k.td T.BUF_PORT_LOSSLESS (dw d) 0 l) g == 1

/-- The PG is in XOFF. -/
def Core.inXoff (k : Core) (d l g : Nat) : Bool := bit (k.td T.BUF_PORT_XOFF_TX (dw d) 0 l) g == 1

/-- A PFC frame of a port is due, with the PGs that have just left XOFF (R329). -/
def Core.pfcDue (k : Core) (d l left : Nat) : Core :=
  let key := d * 256 + l
  if k.td T.BUF_PORT_PFC_TX_EN (dw d) 0 l = 1 ∧ k.linkUp d l then
    let due :=
      if k.buf.pfcDue.any (·.1 == key)
      then k.buf.pfcDue.map (fun e => if e.1 = key then (key, e.2 ||| left) else e)
      else k.buf.pfcDue ++ [(key, left)]
    { k with buf := { k.buf with pfcDue := due } }
  else k

/-- Evaluate the XOFF condition of an account (R327): enter when S ≥ T or H > 0, leave when H = 0 and S ≤ T − XON_OFS. -/
def Core.xoffEval (k : Core) (d l g : Nat) : Core :=
  let f := k.freeCells d
  let s := k.ingS d l g
  let h := k.ingH d l g
  let a := k.td T.BUF_PG_ALPHA (dw d) 0 (l * 8 + g)
  let mask := k.td T.BUF_PORT_XOFF_TX (dw d) 0 l
  if k.losslessPg d l g ∧ ¬ k.inXoff d l g ∧ (overLimit s a f ∨ 0 < h) then
    ((k.tw T.BUF_PORT_XOFF_TX (dw d) 0 l (mask ||| 2 ^ g)).count (dw d) 3 2 (l / 32) 1).pfcDue d l 0
  else if k.inXoff d l g ∧ h = 0 ∧ underLimit s a f (k.td T.BUF_PG_XON_OFS (dw d) 0 (l * 8 + g)) then
    (k.tw T.BUF_PORT_XOFF_TX (dw d) 0 l (mask - (mask &&& 2 ^ g))).pfcDue d l (2 ^ g)
  else k

/-- Set A and H of an ingress account; the shared pool carries the new remainder (R779). -/
def Core.setIngress (k : Core) (d l g a h : Nat) : Core :=
  let m := k.td T.BUF_PG_MIN (dw d) 0 (l * 8 + g)
  let a0 := k.ingA d l g
  let h0 := k.ingH d l g
  let k1 := (k.tw T.BUF_PG_USED (dw d) 0 (l * 8 + g) a).tw T.BUF_PG_HDRM_USED (dw d) 0 (l * 8 + g) h
  let k2 := k1.wr R.BUF_POOL_HDRM_USED_CELLS (dw d) 0 0 (k1.rd R.BUF_POOL_HDRM_USED_CELLS (dw d) 0 0 + h - h0)
  k2.setCarried d (k2.buf.carried.get d + remainder a h m - remainder a0 h0 m)

/-- How an arriving cell is treated (R324). -/
inductive Admit where
  | minimum
  | shared
  | headroom
  /-- Headroom overflow: the rest of a lossless frame is dropped. -/
  | overflow
  /-- A lossy frame is dropped, or the rest of it truncated. -/
  | lossyDrop
  deriving DecidableEq, Repr

/-- The admission decision of R324 for one cell. -/
def Core.admitCell (k : Core) (d l g : Nat) (first : Bool) : Admit :=
  let f := k.freeCells d
  let low := !overLimit (k.ingS d l g) (k.td T.BUF_PG_ALPHA (dw d) 0 (l * 8 + g)) f
  if k.ingA d l g < k.td T.BUF_PG_MIN (dw d) 0 (l * 8 + g) then .minimum
  else if k.losslessPg d l g then
    if low ∧ 0 < f then .shared
    else if k.ingH d l g < k.td T.BUF_PG_HDRM (dw d) 0 (l * 8 + g) then .headroom
    else .overflow
  else if first then (if low ∧ 0 < f then .shared else .lossyDrop)
  else if 0 < f then .shared
  else .lossyDrop

/-- Charge one admitted cell; the account's XOFF condition is evaluated (R327). -/
def Core.chargeCell (k : Core) (d l g : Nat) (a : Admit) : Core :=
  match a with
  | .minimum | .shared => ((k.setIngress d l g (k.ingA d l g + 1) (k.ingH d l g)).xoffEval d l g).count (dw d) 3 0 (l / 32) 1
  | .headroom =>
    (((k.setIngress d l g (k.ingA d l g + 1) (k.ingH d l g + 1)).xoffEval d l g).count (dw d) 3 0 (l / 32) 1).count (dw d) 3 1
      (l / 32) 1
  | .overflow | .lossyDrop => k

/-- Release `n` cells of an ingress account: to the headroom first, then the shared pool, then the minimum (R325). -/
def Core.releaseIngress (k : Core) (d l g n : Nat) : Core :=
  let h := k.ingH d l g
  k.setIngress d l g (k.ingA d l g - n) (h - min h n)

/-- Return `n` cells to an ingress account with no admission test: nothing is charged to headroom (R164). -/
def Core.returnIngress (k : Core) (d l g n : Nat) : Core := k.setIngress d l g (k.ingA d l g + n) (k.ingH d l g)

/-- Charge the `n` cells of a frame one by one; answers how many were admitted and what stopped it, if anything did. -/
def Core.chargeCells (k : Core) (d l g : Nat) : Nat → Bool → Nat → Core × Nat × Option Admit
  | 0, _, done => (k, done, none)
  | n + 1, first, done =>
    match k.admitCell d l g first with
    | .overflow => (k, done, some .overflow)
    | .lossyDrop => (k, done, some .lossyDrop)
    | a => (k.chargeCell d l g a).chargeCells d l g n false (done + 1)

/-! ### Cell groups -/

/-- The group with a number. -/
def Core.grp (k : Core) (id : Nat) : Option Grp := k.buf.groups.find? (·.id == id)

/-- Replace a group. -/
def Core.putGrp (k : Core) (g : Grp) : Core :=
  { k with buf := { k.buf with groups := k.buf.groups.map fun x => if x.id = g.id then g else x } }

/-- Remove a group: its cells are free. -/
def Core.dropGrp (k : Core) (id : Nat) : Core :=
  { k with buf := { k.buf with groups := k.buf.groups.filter (·.id != id) } }

/-- Add a group. -/
def Core.addGrp (k : Core) (g : Grp) : Core :=
  { k with buf := { k.buf with groups := k.buf.groups ++ [g] } }

/-! ### Egress accounts, stop (R336 to R338, R341, R344) -/

/-- E of an egress account. -/
def Core.egE (k : Core) (d l q : Nat) : Nat := k.td T.BUF_Q_DEPTH (dw d) 0 (l * 16 + q)

/-- Se = max(0, E − MIN). -/
def Core.egS (k : Core) (d l q : Nat) : Nat := k.egE d l q - k.td T.BUF_Q_MIN (dw d) 0 (l * 16 + q)

/-- Se ≥ Le, Le = β × F. -/
def Core.egOver (k : Core) (d l q : Nat) : Bool :=
  overLimit (k.egS d l q) (k.td T.BUF_Q_BETA (dw d) 0 (l * 16 + q)) (k.freeCells d)

/-- The queue is a marking queue (R337). -/
def Core.marking (k : Core) (d l q : Nat) : Bool := bit (k.td T.BUF_PORT_MARKQ (dw d) 0 l) q == 1

/-- The queue's stop is asserted. -/
def Core.stopped (k : Core) (d l q : Nat) : Bool := k.td T.BUF_Q_STOPPED (dw d) 0 (l * 16 + q) == 1

/-- The queue is in watchdog discard (R335). -/
def Core.wdogDiscard (k : Core) (d l q : Nat) : Bool := bit (k.td T.BUF_PORT_WDOG_DISCARD (dw d) 0 l) q == 1

/-- The egress queue a pipeline maps a TC to, HVX_QMAP.Q[t]. -/
def Core.qmap (k : Core) (d p tc : Nat) : Nat := k.rd R.HVX_QMAP_Q (dw d) p 0 / 2 ^ (4 * tc) % 16

/-- The multicast stop of a TC that a destination pipeline asserts (R344). -/
def Core.mcStopNow (k : Core) (d p tc : Nat) : Bool :=
  (List.range 32).any fun i =>
    let l := 32 * p + i
    k.portExists d l && !k.marking d l (k.qmap d p tc) && k.stopped d l (k.qmap d p tc)

/-- A die's view of a queue's stop becomes `on` (BUF_STOP, R387). -/
def Core.seeStop (k : Core) (viewer d l q : Nat) (on : Bool) : Core :=
  let g := d * 256 + l
  let old := k.td T.BUF_STOP_STOPS (dw viewer) 0 g
  k.tw T.BUF_STOP_STOPS (dw viewer) 0 g (if on then old ||| 2 ^ q else old - (old &&& 2 ^ q))

/-- A die's view of the multicast stops of a destination pipeline is renewed. -/
def Core.seeMcStops (k : Core) (viewer d p : Nat) : Core :=
  (List.range 8).foldl (fun k tc =>
    let stop := k.buf.mcStop.set ((viewer * 64 + (8 * d + p)) * 8 + tc) (b2n (k.mcStopNow d p tc))
    { k with buf := { k.buf with mcStop := stop } }) k

/-- Set or clear a queue's stop; the queue's own die sees it at once (R341). -/
def Core.setStop (k : Core) (d l q : Nat) (on : Bool) : Core :=
  let k1 := (k.tw T.BUF_Q_STOPPED (dw d) 0 (l * 16 + q) (b2n on)).seeStop d d l q on
  let k2 := if on then k1.count (dw d) 3 3 (l / 32) 1 else k1
  k2.seeMcStops d d (l / 32)

/-- Cells the spill region holds. -/
def Core.spillCells (k : Core) : Nat :=
  k.buf.spilled.foldl (fun n c => n + cellsOf c.frame.length) 0 + k.buf.fetching.foldl (fun n c => n + cellsOf c.frame.length) 0

/-- The spill region takes a copy of `n` cells (R375). -/
def Core.spillTakes (k : Core) (n : Nat) : Bool :=
  k.regionOn 2 && decide (256 * n ≤ k.tokens 2) && decide ((k.spillCells + n) * 4 ≤ k.regionLines 2)

/-- Spill writes are accepted (R374, R375). -/
def Core.spillOpen (k : Core) : Bool := k.spillTakes 1

/-- A queue has copies in the spill region or on their way back. -/
def Core.spillsFor (k : Core) (d l q : Nat) : Bool :=
  (k.buf.spilled ++ k.buf.fetching).any fun c => c.port == d * 256 + l && c.queue == q

/-- Cells of a die now in the spill region (BUF_SPILL_CELLS). -/
def Core.spillCellsOf (k : Core) (d : Nat) : Nat :=
  (k.buf.spilled ++ k.buf.fetching).foldl (fun n c => if c.port / 256 = d then n + cellsOf c.frame.length else n) 0

/-- Evaluate a queue's stop (R338): asserted when Se ≥ Le, cleared when Se ≤ max(0, Le − HYST); a marking queue, a
discarding queue and a queue that spills into a region that accepts writes have none (R339, R335, R374, R375). -/
def Core.stopEval (k : Core) (d l q : Nat) : Core :=
  let none' := k.marking d l q || k.wdogDiscard d l q || (k.td T.BUF_Q_SPILLING (dw d) 0 (l * 16 + q) == 1 && k.spillOpen)
  if none' then (if k.stopped d l q then k.setStop d l q false else k)
  else if ¬ k.stopped d l q ∧ k.egOver d l q then k.setStop d l q true
  else if k.stopped d l q ∧ underLimit (k.egS d l q) (k.td T.BUF_Q_BETA (dw d) 0 (l * 16 + q)) (k.freeCells d)
      (k.rd R.BUF_STOP_CFG_HYST (dw d) 0 0) then k.setStop d l q false
  else k

/-- The bulk queue of a port when spill is on and the queue can spill (R373). -/
def Core.bulkQueue (k : Core) (d l q : Nat) : Bool :=
  k.rd R.BUF_SPILL_CFG_EN (dw d) 0 0 == 1 &&
    k.qmap d (l / 32) (k.rd R.BUF_SPILL_CFG_TC (dw d) 0 0) == q && !k.marking d l q

/-- Whether a queue spills (R373, R374): it starts when F is below START_FREE and its Se exceeds 0; it stops when the spill
region is empty and F has recovered, or when it is no bulk queue any more. -/
def Core.spillEval (k : Core) (d l q : Nat) : Core :=
  let start := k.rd R.BUF_SPILL_CFG_START_FREE (dw d) 0 0
  let bulk := k.bulkQueue d l q
  if k.td T.BUF_Q_SPILLING (dw d) 0 (l * 16 + q) = 1 then
    if ¬ bulk ∨ (k.buf.spilled.isEmpty ∧ k.buf.fetching.isEmpty ∧ start + 16384 ≤ k.freeCells d) then
      k.tw T.BUF_Q_SPILLING (dw d) 0 (l * 16 + q) 0
    else k
  else if bulk ∧ k.freeCells d < start ∧ 0 < k.egS d l q then k.tw T.BUF_Q_SPILLING (dw d) 0 (l * 16 + q) 1
  else k

/-- Spilling and stop of a queue, in the order they depend on each other. -/
def Core.queueEval (k : Core) (d l q : Nat) : Core := (k.spillEval d l q).stopEval d l q

/-- Cells an egress account's minimum carries now. -/
def Core.minCarried (k : Core) (d acc : Nat) : Nat :=
  k.buf.groups.foldl (fun n g => if g.die = d then n + g.carriers.count (.minimum acc) else n) 0

/-- Cells the shared pool carries of a list of carriers. -/
def sharedOf (cs : List Carrier) : Nat := cs.count .shared + cs.count .mirror

/-- Cells of the group the shared pool carries. -/
def Grp.shared (g : Grp) : Nat := sharedOf g.carriers

/-- The egress accounts that hold a cell of the group: those of the copies long enough to have it. -/
def Grp.holders (g : Grp) (i : Nat) : List Nat := (g.egress.filter fun e => decide (i < e.2)).map (·.1)

/-- The carriers that stand when only egress accounts hold the group: a cell its account released passes again, one of a mirror
copy takes its first carrier, and one nothing holds has none (R779). -/
def Grp.kept (g : Grp) : List Carrier :=
  (List.range g.cells).map fun i => match g.carriers.getD i .pool with
    | .minimum a => if (g.holders i).contains a then .minimum a else .pool
    | .mirror => .pool
    | c => if (g.holders i).isEmpty then .pool else c

/-- The least number of a list. -/
def leastOf : List Nat → Option Nat
  | [] => none
  | a :: t => some (t.foldl min a)

/-- Give every held cell of a group that has no carrier the minimum of the lowest holding account with room, else the shared
pool (R779). -/
def Core.placeCells (k : Core) (g : Grp) : List Carrier :=
  ((List.range g.cells).foldl (fun (r : List Carrier × List Nat) i =>
    let h := g.holders i
    match g.carriers.getD i .pool with
    | .pool =>
      if h.isEmpty then (r.1 ++ [.pool], r.2)
      else match leastOf (h.filter fun a => decide (k.minCarried g.die a + r.2.count a < k.td T.BUF_Q_MIN (dw g.die) 0 a)) with
        | some a => (r.1 ++ [.minimum a], a :: r.2)
        | none => (r.1 ++ [.shared], r.2)
    | c => (r.1 ++ [c], r.2)) ([], [])).1

/-- The group is held by egress accounts only. -/
def Grp.egressOnly (g : Grp) : Bool :=
  g.ingress.isNone && g.parked.isNone && g.landing.isNone && !g.reserve && !g.egress.isEmpty

/-- The group is held by no account. The fetch reserve holds a group only as long as its queue does. -/
def Grp.unheld (g : Grp) : Bool :=
  g.ingress.isNone && g.parked.isNone && g.landing.isNone && g.egress.isEmpty && g.waiting == 0

/-- The moment of R779: cells that come to be held only by egress accounts take their carrier; cells held by nothing
are free. -/
def Core.passCells (k : Core) (id : Nat) : Core :=
  match k.grp id with
  | none => k
  | some g =>
    if g.unheld then (k.dropGrp id).setCarried g.die (k.buf.carried.get g.die - g.shared)
    else if g.egressOnly then
      let g1 := { g with carriers := g.kept }
      let cs := (k.putGrp g1).placeCells g1
      (k.putGrp { g with carriers := cs }).setCarried g.die (k.buf.carried.get g.die - g.shared + sharedOf cs)
    else k

/-! ### What a change of F does (R327, R338, R374, R381) -/

/-- F of a die has moved from `f`: reaching 0 asserts event bit 4, and the queues that hold copies, are stopped or spill are
evaluated; every queue when F is or was 0, for there an empty queue meets its limit too. -/
def Core.moved (k : Core) (d f : Nat) : Core :=
  let now := k.freeCells d
  if now = f then k
  else
    let k1 := if now = 0 then k.raise (dw d) 0x28 4 else k
    let w := dw d
    let accounts := if now = 0 ∨ f = 0 then (k.portsOf d).flatMap fun l => (List.range 16).map (16 * l + ·)
      else ((k.listed T.BUF_Q_DEPTH w ++ k.listed T.BUF_Q_STOPPED w ++ k.listed T.BUF_Q_SPILLING w).map (·.2)).eraseDups
    accounts.foldl (fun k a => k.queueEval d (a / 16) (a % 16)) k1

/-- The queues that spill, on every die, are evaluated: the spill region or its budget has changed (R374, R375). -/
def Core.spillersEval (k : Core) : Core :=
  k.dieList.foldl (fun k d => ((k.listed T.BUF_Q_SPILLING (dw d)).map (·.2)).foldl
    (fun k a => k.queueEval d (a / 16) (a % 16)) k) k

/-- The moment of R779 for a group, with what the change of F brings. -/
def Core.settle (k : Core) (id : Nat) : Core :=
  match k.grp id with
  | none => k
  | some g => (k.passCells id).moved g.die (k.freeCells g.die)

/-- Admit the `n` cells of a frame (R324). -/
def Core.admitCells (k : Core) (d l g n : Nat) : Core × Nat × Option Admit :=
  let r := k.chargeCells d l g n true 0
  (r.1.moved d (k.freeCells d), r.2)

/-- After an account's release or return: its XOFF condition (R327), then what the change of F from `f` brings. -/
def Core.afterRelease (k : Core) (d l g f : Nat) : Core := (k.xoffEval d l g).moved d f

/-- A group gives up its ingress charge (R315): released to the pools, its cells passing on at the same moment. -/
def Core.dropIngress (k : Core) (id : Nat) : Core :=
  match k.grp id with
  | some g =>
    match g.ingress with
    | some (p, pg) =>
      let d := p / 256
      let k1 := (((k.putGrp { g with ingress := none }).releaseIngress d (p % 256) pg g.cells).passCells id).afterRelease d
        (p % 256) pg (k.freeCells d)
      if d = g.die then k1 else k1.moved g.die (k.freeCells g.die)
    | none => k.settle id
  | none => k

/-- One copy of a group no longer waits (enqueued, acknowledged or dropped); with the last one the ingress charge or
the landing charge ends. -/
def Core.copyGone (k : Core) (id : Nat) : Core :=
  match k.grp id with
  | some g =>
    let k1 := k.putGrp { g with waiting := g.waiting - 1 }
    if g.waiting ≤ 1 then k1.dropIngress id else k1
  | none => k

/-! ### Parking pool (R159, R164) -/

/-- Room for `n` more cells in a pipeline's parking pool, and a free entry (R160). -/
def Core.canPark (k : Core) (d p n : Nat) : Bool :=
  decide (k.rd R.SEQ_PARK_STAT_USED (dw d) p 0 < k.rd R.SEQ_PARK_CFG_ENTRIES (dw d) p 0) &&
    decide (k.rd R.SEQ_PARK_CELLS_USED (dw d) p 0 + n ≤ k.rd R.SEQ_PARK_POOL_CELLS (dw d) p 0)

/-- Move a group's charge from its ingress account to a parking pool, taking one parking entry. -/
def Core.parkGrp (k : Core) (id p : Nat) : Core :=
  match k.grp id with
  | some g =>
    match g.ingress with
    | some (a, pg) =>
      let d := g.die
      let k1 := (((k.putGrp { g with parked := some p }).releaseIngress (a / 256) (a % 256) pg g.cells).afterRelease (a / 256) (a % 256) pg
        (k.freeCells (a / 256)))
      let used := k1.rd R.SEQ_PARK_STAT_USED (dw d) p 0 + 1
      ((k1.wr R.SEQ_PARK_STAT_USED (dw d) p 0 used).wr R.SEQ_PARK_STAT_PEAK (dw d) p 0
        (max used (k1.rd R.SEQ_PARK_STAT_PEAK (dw d) p 0))).wr R.SEQ_PARK_CELLS_USED (dw d) p 0
          (k1.rd R.SEQ_PARK_CELLS_USED (dw d) p 0 + g.cells)
    | none => k
  | none => k

/-- Free a parking entry and its pool cells. PEAK keeps the number in use until now, which a read may have cleared (R192). -/
def Core.freePark (k : Core) (d p n : Nat) : Core :=
  let used := k.rd R.SEQ_PARK_STAT_USED (dw d) p 0
  ((k.wr R.SEQ_PARK_STAT_PEAK (dw d) p 0 (max used (k.rd R.SEQ_PARK_STAT_PEAK (dw d) p 0))).wr R.SEQ_PARK_STAT_USED (dw d) p 0
    (used - 1)).wr R.SEQ_PARK_CELLS_USED (dw d) p 0 (k.rd R.SEQ_PARK_CELLS_USED (dw d) p 0 - n)

/-- Return a parked or held group to its ingress account (R164). -/
def Core.unparkGrp (k : Core) (id : Nat) : Core :=
  match k.grp id with
  | some g =>
    match g.parked, g.ingress with
    | some p, some (a, pg) =>
      let k1 := (((k.putGrp { g with parked := none }).freePark g.die p g.cells).returnIngress (a / 256) (a % 256) pg g.cells).afterRelease
        (a / 256) (a % 256) pg (k.freeCells (a / 256))
      if a / 256 = g.die then k1 else k1.moved g.die (k.freeCells g.die)
    | _, _ => k
  | none => k

/-- A packet is dropped before any copy was made: its cells leave whatever holds them. -/
def Core.freeGrp (k : Core) (id : Nat) : Core :=
  match k.grp id with
  | some g =>
    match g.parked with
    | some p => (((k.putGrp { g with parked := none, ingress := none, waiting := 0 }).freePark g.die p g.cells)).settle id
    | none => (k.putGrp { g with waiting := 0 }).dropIngress id
  | none => k

/-- Charge a copy's cells to an egress account (R316). -/
def Core.chargeEgress (k : Core) (c : Copy) (l q : Nat) : Core :=
  match k.grp c.grp with
  | some g =>
    let n := cellsOf c.frame.length
    ((k.putGrp { g with egress := g.egress ++ [(l * 16 + q, n)] }).tw T.BUF_Q_DEPTH (dw g.die) 0 (l * 16 + q)
      (k.egE g.die l q + n)).queueEval g.die l q
  | none => k

/-- Release a copy's charge to an egress account: cells its minimum carried pass on, or are free (R779). -/
def Core.releaseEgress (k : Core) (c : Copy) (l q : Nat) : Core :=
  match k.grp c.grp with
  | some g =>
    let acc := l * 16 + q
    let n := cellsOf c.frame.length
    let k1 := (k.putGrp { g with egress := g.egress.erase (acc, n) }).tw T.BUF_Q_DEPTH (dw g.die) 0 acc (k.egE g.die l q - n)
    ((k1.passCells c.grp).queueEval g.die l q).moved g.die (k.freeCells g.die)
  | none => k

end Sys2Proof.Machine
end

