-- ==== Sys2Proof/Machine/Operands.lean ====
section
/-!
DEFINITION. The microword's fields (R125, R127), its source operands (R128), its destinations (R129, R216) and the
containers of the header vector (R196, R197).
-/
namespace Sys2Proof.Machine

/-! ### Fields of the microword (R125) -/

/-- SEQ, the next-address operation. -/
def wSeq (w : Nat) : Nat := bits w 3 0
/-- TARGET. -/
def wTarget (w : Nat) : Nat := bits w 15 4
/-- COND. -/
def wCond (w : Nat) : Nat := bits w 21 16
/-- CYCLES. -/
def wCycles (w : Nat) : Nat := bits w 23 22
/-- WAITSEL. -/
def wWaitsel (w : Nat) : Nat := bits w 29 24
/-- KEYSEL select j. -/
def wKeysel (w j : Nat) : Nat := bits w (30 + 6 * j + 5) (30 + 6 * j)
/-- TABLE. -/
def wTable (w : Nat) : Nat := bits w 58 54
/-- LOOKUP_EN. -/
def wLookup (w : Nat) : Bool := bit w 59 == 1
/-- EDIT. -/
def wEdit (w : Nat) : Nat := bits w 203 172
/-- DISP kind. -/
def wDispKind (w : Nat) : Nat := bits w 211 208
/-- DISP operand container. -/
def wDispCont (w : Nat) : Nat := 48 + bits w 207 204
/-- TELEM. -/
def wTelem (w : Nat) : Nat := bits w 219 212

/-- The fields of ALU k (R127): opcode, write mode, container, sources. -/
structure AluField where
  op : Nat
  mode : Nat
  cont : Nat
  srcA : Nat
  srcB : Nat
  deriving DecidableEq, Repr

/-- ALU field k with base bit 60 + 28k. -/
def aluField (w k : Nat) : AluField :=
  let b := 60 + 28 * k
  ⟨bits w (b + 27) (b + 22), bits w (b + 21) (b + 20), bits w (b + 19) (b + 14), bits w (b + 13) (b + 7),
   bits w (b + 6) b⟩

/-! ### Source operands (R128) -/

/-- What a source may read besides the vector: the lookup result and status, the follower's nanoseconds, and the
pseudo-random draws, of which each ALU of each pass takes its own pair. -/
structure SrcEnv where
  res : List Word
  hit : Bool
  poisoned : Bool
  error : Bool
  ns : Word
  /-- Number of the first draw of this pass. -/
  draw : Nat

/-- The environment of the next pass: four further draws. -/
def SrcEnv.nextPass (e : SrcEnv) : SrcEnv := { e with draw := e.draw + 4 }

/-- The lookup status as code 0x44 reads it. -/
def statusWord (hit poisoned error : Bool) : Word :=
  BitVec.ofNat 32 (b2n hit + 2 * b2n poisoned + 4 * b2n error)

/-- A source operand of ALU `i` (R128). -/
def SrcEnv.read (e : SrcEnv) (v : List Word) (code i : Nat) : Word :=
  if code < 0x40 then v.getD code 0
  else if code < 0x44 then e.res.getD (code - 0x40) 0
  else if code = 0x44 then statusWord e.hit e.poisoned e.error
  else if code = 0x45 then e.ns
  else if code = 0x46 then BitVec.ofNat 32 (Config.freeValue (e.draw + i))
  else if code = 0x47 then 0
  else BitVec.ofNat 32 (code - 0x48)

/-! ### Destinations (R129, R216) and containers (R197) -/

/-- The bits of a container that hold fields; the reserved bits of 56 and 62 read zero (R197). -/
def contMask (c : Nat) : Word := if c = 56 then 0x0F3777FF#32 else if c = 62 then 0x000007FF#32 else 0xFFFFFFFF#32

/-- Write a result into a container in a write mode; PG of container 56 (bits [14:12]) keeps its value, and reserved bits stay
zero (R197). -/
def writeCont (v : List Word) (c mode : Nat) (r : Word) : List Word :=
  let old := v.getD c 0
  let new : Word := match mode with
    | 0 => r
    | 1 => (old &&& 0xFFFF0000#32) ||| (r &&& 0x0000FFFF#32)
    | 2 => (old &&& 0x0000FFFF#32) ||| (r <<< 16)
    | _ => old
  v.set c ((if c = 56 then (new &&& ~~~0x00007000#32) ||| (old &&& 0x00007000#32) else new) &&& contMask c)

/-- The containers the ALUs of a word write. -/
def aluWrites (w : Nat) : List Nat :=
  ((List.range 4).filter fun i => (aluField w i).op != 0 && (aluField w i).mode != 3).map fun i => (aluField w i).cont

/-- Bits [hi:lo] of a container. -/
def cont (v : List Word) (c hi lo : Nat) : Nat := bits (v.getD c 0).toNat hi lo

/-- The 128-bit key of a word: four containers (R132). -/
def key128 (w : Nat) (v : List Word) : List Word := (List.range 4).map fun j => v.getD (wKeysel w j) 0

/-- The 256-bit key of a word: four pairs of containers (R133). -/
def key256 (w : Nat) (v : List Word) : List Word :=
  (List.range 4).flatMap fun j => [v.getD (wKeysel w j) 0, v.getD (wKeysel w j + 1) 0]

/-- Container 56, IN_INFO, at parse (R197). -/
def inInfo (host : Bool) (recirc tc pg port : Nat) : Word :=
  BitVec.ofNat 32 (b2n host * 2 ^ 27 + recirc * 2 ^ 24 + tc * 2 ^ 16 + pg * 2 ^ 12 + port)

/-- Container 63, EG_INFO, at egress entry (R197). -/
def egInfo (cut replica mirror : Bool) (queue port : Nat) : Word :=
  BitVec.ofNat 32 (b2n cut * 2 ^ 18 + b2n replica * 2 ^ 17 + b2n mirror * 2 ^ 16 + queue * 2 ^ 12 + port)

end Sys2Proof.Machine
end

