-- ==== Sys2Proof/Machine/Flags.lean ====
section
/-!
DEFINITION. The ALUs: the result and carry of every opcode (R214, R215), the condition flags they form (R131), the
passes that CYCLES buys (R130, R153, R154), and the branch conditions of COND (R149).
-/
namespace Sys2Proof.Machine

/-- Feed one byte to a reflected CRC-32 register with the given reflected polynomial. -/
def crcByte (poly crc byte : Nat) : Nat :=
  (List.range 8).foldl (fun c _ => if c % 2 = 1 then (c / 2) ^^^ poly else c / 2) (crc ^^^ byte)

/-- CRC-32C of bytes: polynomial 0x1EDC_6F41 reflected, Init and XorOut all ones (R214 HASH). -/
def crc32c (bytes : List Nat) : Nat :=
  (bytes.foldl (crcByte 0x82F63B78) 0xFFFFFFFF) ^^^ 0xFFFFFFFF

/-- The Ethernet frame check sequence of bytes. -/
def crc32 (bytes : List Nat) : Nat :=
  (bytes.foldl (crcByte 0xEDB88320) 0xFFFFFFFF) ^^^ 0xFFFFFFFF

/-- The four bytes of a word, least significant first. -/
def leBytes (v : Nat) : List Nat := [v % 256, v / 256 % 256, v / 65536 % 256, v / 16777216 % 256]

/-- What one ALU forms: its result, its carry, and whether it is a NOP (which writes nothing). -/
structure AluOut where
  res : Word
  carry : Bool
  nop : Bool
  deriving DecidableEq, Repr

/-- The last bit a right shift by `n` moves out. -/
def shiftedOut (a : Word) (n : Nat) : Bool := decide (n ≠ 0) && a.getLsbD (n - 1)

/-- Index of the lowest 1 bit, 32 when there is none. -/
def lowestOne (a : Word) : Nat := ((List.range 32).find? fun i => a.getLsbD i).getD 32

/-- Bits [lo+w−1:lo] of `d` replaced by `a`'s low `w` bits; bits above 31 fall off (BFI). -/
def insertBits (d a : Word) (lo w : Nat) : Word :=
  let m : Word := BitVec.ofNat 32 ((2 ^ w - 1) * 2 ^ lo)
  (d &&& ~~~m) ||| ((a <<< lo) &&& m)

/-- The ALU opcodes of R214; `d` is the destination container, BFI's third source. An opcode the table reserves, which
no loaded image holds, does as NOP. -/
def alu (op : Nat) (a b d : Word) : AluOut :=
  let sh := b.toNat % 32
  let w := b.toNat / 32 % 32 + 1
  let of (r : Word) (c : Bool) : AluOut := ⟨r, c, false⟩
  let sum := a.toNat + b.toNat
  let lt := decide (a.toNat < b.toNat)
  match op with
  | 0x01 => of a false
  | 0x02 => of (a + b) (decide (2 ^ 32 ≤ sum))
  | 0x03 => of (a - b) lt
  | 0x04 => of (if 2 ^ 32 ≤ sum then 0xFFFFFFFF#32 else a + b) (decide (2 ^ 32 ≤ sum))
  | 0x05 => of (if lt then 0 else a - b) lt
  | 0x06 => of (a &&& b) false
  | 0x07 => of (a ||| b) false
  | 0x08 => of (a ^^^ b) false
  | 0x09 => of (a &&& ~~~b) false
  | 0x0A => of (a <<< sh) (decide (sh ≠ 0) && a.getLsbD (32 - sh))
  | 0x0B => of (a >>> sh) (shiftedOut a sh)
  | 0x0C => of (a.sshiftRight sh) (shiftedOut a sh)
  | 0x0D => of (a.rotateLeft sh) false
  | 0x0E => of (if lt then a else b) false
  | 0x0F => of (if lt then b else a) false
  | 0x10 => of (if a = b then 1 else 0) false
  | 0x11 => of (if lt then 1 else 0) false
  | 0x12 => of (if a.toInt < b.toInt then 1 else 0) false
  | 0x13 => of ((a >>> sh) &&& BitVec.ofNat 32 (2 ^ w - 1)) false
  | 0x14 => of (BitVec.ofNat 32 (crc32c (leBytes a.toNat ++ leBytes b.toNat))) false
  | 0x15 => of (insertBits d a sh w) false
  | 0x16 => of (BitVec.ofNat 32 (a.toNat % 2 ^ 16 * (b.toNat % 2 ^ 17) / 2 ^ 16)) false
  | 0x17 => of (BitVec.ofNat 32 ((List.range 32).countP fun i => a.getLsbD i)) false
  | 0x18 => of (BitVec.ofNat 32 (lowestOne a)) false
  | 0x19 =>
    let s := a.toNat % 2 ^ 16 + b.toNat % 2 ^ 16
    of (BitVec.ofNat 32 (if 2 ^ 16 ≤ s then s - 2 ^ 16 + 1 else s)) (decide (2 ^ 16 ≤ s))
  | _ => ⟨0, false, true⟩

/-- The condition flags of one ALU: zero, negative, carry. A NOP forms zero = 1, negative = 0, carry = 0 (R131). -/
structure AluFlags where
  zero : Bool
  neg : Bool
  carry : Bool
  deriving DecidableEq, Repr

/-- The flags of an ALU's outcome. -/
def AluOut.flags (o : AluOut) : AluFlags :=
  if o.nop then ⟨true, false, false⟩ else ⟨o.res == 0, o.res.getLsbD 31, o.carry⟩

/-- One ALU of a word: sources from `src`, the write onto `dst`. Container 56's PG bits do not change (R197). -/
def aluStep (env : SrcEnv) (word : Nat) (i : Nat) (src dst : List Word) : List Word × AluFlags :=
  let f := aluField word i
  let o := alu f.op (env.read src f.srcA i) (env.read src f.srcB i) (src.getD f.cont 0)
  (if o.nop then dst else writeCont dst f.cont f.mode o.res, o.flags)

/-- A parallel pass: all four ALUs read the vector as it stood at stage entry; a higher ALU's write stands (R130). -/
def passParallel (env : SrcEnv) (word : Nat) (v : List Word) : List Word × List AluFlags :=
  (List.range 4).foldl (fun s i =>
    let r := aluStep env word i v s.1
    (r.1, s.2 ++ [r.2])) (v, [])

/-- A chained pass: ALU k reads what ALUs 0 to k − 1 wrote (R153). -/
def passChained (env : SrcEnv) (word : Nat) (v : List Word) : List Word × List AluFlags :=
  (List.range 4).foldl (fun s i =>
    let r := aluStep env word i s.1 s.1
    (r.1, s.2 ++ [r.2])) (v, [])

/-- `n` chained passes; the flags are the last pass's (R154). Each pass draws its own pseudo-random values. -/
def passes (word : Nat) : Nat → SrcEnv → List Word → List Word × List AluFlags
  | 0, _, v => (v, List.replicate 4 ⟨true, false, false⟩)
  | 1, env, v => passChained env word v
  | n + 1, env, v => passes word n env.nextPass (passChained env word v).1

/-- The ALU work of a word: one parallel pass at CYCLES 0, else 1, 2 or 4 chained passes (R153). -/
def runAlus (env : SrcEnv) (word : Nat) (v : List Word) : List Word × List AluFlags :=
  match wCycles word with
  | 0 => passParallel env word v
  | 1 => passes word 1 env v
  | 2 => passes word 2 env v
  | _ => passes word 4 env v

/-- What COND looks at besides the ALU flags: packet flags at stage entry, lookup status, park and replay marks, and
the pipeline's software flags (R149). -/
structure CondEnv where
  flags : Nat
  hit : Bool
  poisoned : Bool
  error : Bool
  timedOut : Bool
  swflags : Nat
  recirculated : Bool
  replayed : Bool

/-- The branch conditions of R149; a reserved code, which no loaded BR_FLAG word holds, is false. -/
def condTrue (e : CondEnv) (alus : List AluFlags) (c : Nat) : Bool :=
  let a (i : Nat) : AluFlags := alus.getD i ⟨true, false, false⟩
  if c < 0x08 then bit e.flags c == 1
  else if c < 0x10 then bit e.flags (c - 0x08) == 0
  else if c < 0x14 then (a (c - 0x10)).zero
  else if c < 0x18 then (a (c - 0x14)).neg
  else if c < 0x1C then (a (c - 0x18)).carry
  else if c = 0x1C then e.hit
  else if c = 0x1D then e.poisoned
  else if c = 0x1E then e.error
  else if c = 0x1F then e.timedOut
  else if c < 0x30 then bit e.swflags (c - 0x20) == 1
  else if c = 0x30 then e.recirculated
  else if c = 0x31 then e.replayed
  else false

/-- The packet flags after FLAGSET (R141): 0 keep, 1 set, 2 clear, 3 toggle. -/
def flagset (word flags : Nat) : Nat :=
  (List.range 8).foldl (fun s i =>
    let b := bit flags i
    let u := bits word (220 + 2 * i + 1) (220 + 2 * i)
    s + 2 ^ i * (if u = 0 then b else if u = 1 then 1 else if u = 2 then 0 else 1 - b)) 0

end Sys2Proof.Machine
end

