-- ==== Sys2Proof/Machine/Parser.lean ====
section
/-!
DEFINITION. The parser (R205 to R213): the transition entry's fields (R208), one parse step (R209), the whole parse
with its error codes (R211), and the header vector it builds (R196, R203).
-/
namespace Sys2Proof.Machine

/-- An entry of PRS_TCAM as a 256-bit number; its fields are those of R208. -/
def Core.prsEntry (k : Core) (d p i : Nat) : Nat := k.td T.PRS_TCAM_ENTRY (dw d) p i

/-- Byte `i` of the frame as the parser sees it: zero beyond the frame's end or byte 255 (R206). -/
def seenByte (frame : List Byte) (i : Nat) : Nat := if i < 256 then (frame.getD i 0).toNat else 0

/-- `w` bytes from `i`, first byte most significant (R203). -/
def beBytes (frame : List Byte) (i : Nat) : Nat → Nat
  | 0 => 0
  | w + 1 => beBytes frame i w * 256 + seenByte frame (i + w)

/-- The entry matches a state and a lookahead (R207). -/
def prsMatch (e state la : Nat) : Bool :=
  bit e 131 == 1 && ((state ^^^ bits e 7 0) &&& bits e 15 8) == 0 && ((la ^^^ bits e 47 16) &&& bits e 79 48) == 0

/-- The parser's running state (R206, R201). -/
structure ParseState where
  state : Nat
  la : Nat
  start : Nat
  vec : List Word
  binds : List (Nat × Nat × Nat)
  valid : Nat
  offsets : Nat
  hdrs : List (Nat × Nat × Nat)
  deriving DecidableEq, Repr

/-- How a parse ended: an error code of R211 (0 for none) and the entry offset of a FINAL entry. -/
structure ParseEnd where
  st : ParseState
  err : Nat
  entry : Nat
  deriving DecidableEq, Repr

/-- The error of bytes up to `e` that are needed: 2 beyond the frame's end, 3 beyond byte 255 within the frame. -/
def absent (len e : Nat) : Nat := if len < e then 2 else if 256 < e then 3 else 0

/-- Extract field k of an entry: EN, SRC, CONT, bytes. -/
def extField (e k : Nat) : Bool × Nat × Nat × Nat :=
  let x := bits e (136 + 15 * k + 14) (136 + 15 * k)
  (bit x 14 == 1, bits x 13 8, bits x 7 2, 2 ^ bits x 1 0)

/-- The extracts of an entry, lowest first so that a higher one overrides; the first absent one ends the step. -/
def runExtracts (frame : List Byte) (e : Nat) (s : ParseState) : Except Nat ParseState :=
  (List.range 4).foldlM (fun s k =>
    let (en, src, c, w) := extField e k
    if !en then .ok s
    else
      let at' := s.start + src
      match absent frame.length (at' + w) with
      | 0 => .ok { s with
          vec := s.vec.set c (BitVec.ofNat 32 (beBytes frame at' w))
          binds := (s.binds.filter (·.1 != c)) ++ [(c, at', w)] }
      | n => .error n) s

/-- The header length by LEN_MODE, or the error of the byte it reads or of a zero length (R208, R209, R211). The header
end is examined after the extracts, in the order of R209 (DEDUCED). -/
def headerLen (frame : List Byte) (e start : Nat) : Except Nat Nat :=
  let at' := start + bits e 109 104
  let b := seenByte frame at'
  let get (n : Nat) : Except Nat Nat := match absent frame.length (at' + 1) with
    | 0 => .ok n
    | c => .error c
  let len : Except Nat Nat := match bits e 95 94 with
    | 0 => .ok (bits e 103 96)
    | 1 => get (4 * (b % 16))
    | 2 => get (8 * (b + 1))
    | _ => get (4 * (b / 16))
  match len with
  | .ok 0 => .error 5
  | r => r

/-- One parse step with a matching entry: the new state, and the entry offset when the entry is FINAL (R209). -/
def parseStep (frame : List Byte) (e : Nat) (s : ParseState) : Except Nat (ParseState × Option Nat) := do
  let len ← headerLen frame e s.start
  let s1 ← runExtracts frame e s
  if absent frame.length (s.start + len) ≠ 0 then .error (absent frame.length (s.start + len)) else
  let h := bits e 114 110
  let s2 : ParseState := if bit e 115 = 1 then
      { s1 with valid := s1.valid ||| 2 ^ h, hdrs := (s1.hdrs.filter (·.1 != h)) ++ [(h, s.start, len)] }
    else s1
  let m := bits e 118 116
  let s3 : ParseState := if m ≠ 0 then
      { s2 with offsets := s2.offsets - bits s2.offsets (8 * m - 1) (8 * m - 8) * 2 ^ (8 * m - 8)
                  + (s.start % 256) * 2 ^ (8 * m - 8) }
    else s2
  let s4 : ParseState := { s3 with start := s.start + len }
  if bit e 119 = 1 then .ok (s4, some (bits e 130 120))
  else .ok ({ s4 with state := bits e 87 80, la := bits e 93 88 }, none)

/-- The parse, at most 16 steps (R210, R211). `ue` says which transition entry, if any, reads uncorrectable. -/
def Core.parseLoop (k : Core) (d p : Nat) (frame : List Byte) (ue : Option Nat) : Nat → ParseState → ParseEnd
  | 0, s => ⟨s, 4, 0⟩
  | n + 1, s =>
    let la := beBytes frame (s.start + s.la) 4
    match (List.range 256).find? fun i => prsMatch (k.prsEntry d p i) s.state la with
    | none => ⟨s, 1, 0⟩
    | some i =>
      if ue = some i then ⟨s, 6, 0⟩
      else match parseStep frame (k.prsEntry d p i) s with
        | .error c => ⟨s, c, 0⟩
        | .ok (s', some entry) => ⟨s', 0, entry⟩
        | .ok (s', none) => k.parseLoop d p frame ue n s'

/-- The parse of a frame by the parser of a pipeline, from the start state of its half (R210). -/
def Core.parse (k : Core) (d p : Nat) (egress : Bool) (frame : List Byte) (ue : Option Nat) : ParseEnd :=
  let st := k.rd (if egress then R.PRS_CFG_EG_START else R.PRS_CFG_IN_START) (dw d) p 0
  let la := k.rd (if egress then R.PRS_CFG_EG_LA else R.PRS_CFG_IN_LA) (dw d) p 0
  k.parseLoop d p frame ue 16 ⟨st, la, 0, List.replicate 64 0, [], 0, 0, []⟩

/-- Count a parse error and raise its event; an uncorrectable entry raises event bit 0 too (R211, R247). -/
def Core.parseErrors (k : Core) (d p : Nat) (e : ParseEnd) : Core :=
  if e.err = 0 then k
  else
    let k1 := (k.bump R.PRS_ERR_CNT (dw d) p (e.err - 1) 1).raise (dw d) (0x10 + p) 1
    if e.err = 6 then (k1.ueFound (dw d) 2).raise (dw d) (0x10 + p) 0 else k1

/-- Containers 57, 58 and 59 of a parse (R197). -/
def parseInfo (e : ParseEnd) (frameLen : Nat) : List Word :=
  ((e.st.vec.set 57 (BitVec.ofNat 32 (e.st.state * 2 ^ 24 + e.err * 2 ^ 16 + frameLen % 2 ^ 14))).set 58
    (BitVec.ofNat 32 e.st.valid)).set 59 (BitVec.ofNat 32 e.st.offsets)

/-- The ingress header vector after a parse (R196): scratch zero, IN_INFO, timestamps, EG_CTL and EG_INFO zero. -/
def ingressVector (e : ParseEnd) (frameLen : Nat) (info ns sec : Word) : List Word :=
  (((parseInfo e frameLen).set 56 info).set 60 ns).set 61 sec

/-- The egress header vector (R196): the bridged containers and EG_INFO over the egress parse. -/
def egressVector (e : ParseEnd) (frameLen : Nat) (b : Bridged) (info : Word) : List Word :=
  (((((((parseInfo e frameLen).set 54 b.c54).set 55 b.c55).set 56 b.c56).set 60 b.c60).set 61 b.c61).set 62 b.c62).set 63
    info

end Sys2Proof.Machine
end

