-- ==== Sys2Proof/Machine/Rebuild.lean ====
section
/-!
DEFINITION. Edits and the header rebuild (R217 to R223, R340): what EDIT changes at once, what it records, and the frame
the rebuild makes.
-/
namespace Sys2Proof.Machine

/-! ### EDIT at the end of a stage (R218, R219) -/

/-- VCOPY: `n` containers at once from `s` to `d`. -/
def vcopy (v : List Word) (s d n : Nat) : List Word :=
  (List.range n).foldl (fun u i => writeCont u (d + i) 0 (v.getD (s + i) 0)) v

/-- VCLEAR: `n` containers from `s` become zero. -/
def vclear (v : List Word) (s n : Nat) : List Word :=
  (List.range n).foldl (fun u i => writeCont u (s + i) 0 0) v

/-- The edit that opcodes 0x4 to 0x7 record; HDR_REMOVE of a header that is not valid records nothing. -/
def editRec (e : Nat) (valid : Nat) : Option EditRec :=
  match bits e 31 28 with
  | 0x4 => if bit valid (bits e 27 23) = 1 then some (.remove (bits e 27 23)) else none
  | 0x5 => some (.insert (bits e 27 20) (bits e 19 15) (bit e 14 == 1)
      (if bit e 8 = 1 then some (bits e 13 9) else none))
  | 0x6 => some (.fieldSet (bits e 27 22) (bits e 21 17) (bits e 16 9) (2 ^ bits e 8 7))
  | 0x7 => some (.fixup (bits e 27 23) (bits e 22 21))
  | _ => none

/-- Apply a word's EDIT to a packet (R219): VCOPY and VCLEAR change the vector, the others record an edit. -/
def Pkt.applyEdit (p : Pkt) (word : Nat) : Pkt :=
  let e := wEdit word
  match bits e 31 28 with
  | 0x1 =>
    let n := bits e 15 12 + 1
    { p with vec := vcopy p.vec (bits e 27 22) (bits e 21 16) n,
             written := p.written ++ (List.range n).map (bits e 21 16 + ·) }
  | 0x2 =>
    let s := bits e 27 22
    let n := bits e 21 18 + 1
    { p with vec := vclear p.vec s n,
             binds := p.binds.filter fun b => !(decide (s ≤ b.1) && decide (b.1 < s + n)) }
  | _ => match editRec e (p.vec.getD 58 0).toNat with
    | some r => { p with edits := p.edits ++ [r] }
    | none => p

/-! ### Bytes of a frame -/

/-- A number as `w` bytes, first byte most significant. -/
def toBe (v : Nat) : Nat → List Byte
  | 0 => []
  | w + 1 => toBe (v / 256) w ++ [BitVec.ofNat 8 v]

/-- Overwrite bytes from `at'` on; bytes past the end are left out. -/
def putBytes (f : List Byte) (at' : Nat) (b : List Byte) : List Byte :=
  (f.take at' ++ b ++ f.drop (at' + b.length)).take f.length

/-- `w` bytes from `i` as a number, zero beyond the end. -/
def getBe (f : List Byte) (i w : Nat) : Nat :=
  (List.range w).foldl (fun n j => n * 256 + (f.getD (i + j) 0).toNat) 0

/-- Ones'-complement sum of the 16-bit words of bytes. -/
def sum16 (b : List Byte) : Nat :=
  (List.range ((b.length + 1) / 2)).foldl (fun s i =>
    let t := s + getBe b (2 * i) 2
    if 65536 ≤ t then t - 65535 else t) 0

/-- The Internet checksum of bytes. -/
def inetSum (b : List Byte) : Nat := 65535 - sum16 b

/-- The four FCS bytes of a frame body, least significant first as they are sent. -/
def fcsOf (body : List Byte) : List Byte :=
  (leBytes (crc32 (body.map (·.toNat)))).map (BitVec.ofNat 8)

/-- The FCS a stomped frame ends with: the bitwise inverse (R366). -/
def badFcsOf (body : List Byte) : List Byte := (fcsOf body).map (~~~ ·)

/-- A frame without its last four bytes. -/
def bodyOf (f : List Byte) : List Byte := f.take (f.length - 4)

/-- The bytes of a copy's frame before its FCS; a frame cut short has none (R366). -/
def Copy.body (c : Copy) : List Byte := if c.short then c.frame else bodyOf c.frame

/-- A frame given a new FCS. -/
def withFcs (body : List Byte) : List Byte := body ++ fcsOf body

/-- A frame cut to `n` bytes with a new FCS (R235, mirror truncation). DESIGN CHOICE: the `n` bytes include the new FCS. -/
def truncFrame (f : List Byte) (n : Nat) : List Byte := if n = 0 ∨ f.length ≤ n then f else withFcs (f.take (n - 4))

/-! ### The rebuild (R220 to R223) -/

/-- A place in the header table: start and length. -/
abbrev HdrTab := List (Nat × Nat × Nat)

/-- Start and length of header `h`, when it is valid. -/
def HdrTab.at (t : HdrTab) (h : Nat) : Option (Nat × Nat) := (t.find? (·.1 == h)).map fun x => (x.2.1, x.2.2)

/-- Structural edits, FIELD_SETs and FIXUPs stay within R220. -/
def editsWithinLimits (es : List EditRec) : Bool :=
  decide ((es.countP fun e => match e with | .remove _ | .insert .. => true | _ => false) ≤ 4) &&
  decide ((es.countP fun e => match e with | .fieldSet .. => true | _ => false) ≤ 8) &&
  decide ((es.countP fun e => match e with | .fixup .. => true | _ => false) ≤ 4)

/-- Step 1 of R221: write bound containers back that the half has written (R204). DESIGN CHOICE: the write-backs come in the
order of the extracts and before the FIELD_SETs, so that of two writes to a byte the later one of that order stands. -/
def writeBacks (vec : List Word) (binds : List (Nat × Nat × Nat)) (written : List Nat) (f : List Byte) : List Byte :=
  binds.foldl (fun f b =>
    if written.contains b.1 then putBytes f b.2.1 (toBe (vec.getD b.1 0).toNat b.2.2) else f) f

/-- Step 1 of R221: FIELD_SET edits at header positions as parsed; one outside its header fails the rebuild. DESIGN CHOICE: so does
one that names a header that is not valid. -/
def fieldSets (vec : List Word) (t : HdrTab) (es : List EditRec) (f : List Byte) : Option (List Byte) :=
  es.foldlM (fun f e => match e with
    | .fieldSet c h o w =>
      match t.at h with
      | some (s, n) => if o + w ≤ n then some (putBytes f (s + o) (toBe (vec.getD c 0).toNat w)) else none
      | none => none
    | _ => some f) f

/-- Remove header `h` (step 2 of R221): its bytes go and later headers move up. -/
def removeHdr (h : Nat) (f : List Byte) (t : HdrTab) : List Byte × HdrTab :=
  match t.at h with
  | some (s, n) => (f.take s ++ f.drop (s + n),
      (t.filter (·.1 != h)).map fun x => if s < x.2.1 then (x.1, x.2.1 - n, x.2.2) else x)
  | none => (f, t)

/-- The bytes of a template with its fields filled from containers (R222, R248). DESIGN CHOICE: of a field that runs past
LENGTH the bytes within the template are filled; a field stored with WIDTH 3 while EN was 0, and enabled since, is 8 bytes
wide, its container in the last four. -/
def Core.template (k : Core) (d p t : Nat) (vec : List Word) : List Byte :=
  let raw := k.td T.HVX_TPL_ENTRY (dw d) p t
  let ctl := k.td T.HVX_TPL_ENTRY (dw d) p (256 + t)
  let len := bits ctl 6 0
  let base := (List.range len).map fun i => BitVec.ofNat 8 (raw / 2 ^ (8 * i))
  (List.range 8).foldl (fun b j =>
    let w := bits ctl (32 * (j + 1) + 31) (32 * (j + 1))
    if bit w 31 = 1 then putBytes b (bits w 13 8) (toBe (vec.getD (bits w 21 16) 0).toNat (2 ^ bits w 1 0)) else b) base

/-- Insert a template at an anchor (step 3 of R221): before or after header `h`, which must be valid. DESIGN CHOICE: a header that
step 2 removed is not valid. -/
def insertHdr (tpl : List Byte) (h : Nat) (before : Bool) (setBit : Option Nat) (f : List Byte) (t : HdrTab) :
    Option (List Byte × HdrTab) :=
  match t.at h with
  | none => none
  | some (s, n) =>
    let at' := if before then s else s + n
    let moved := t.map fun x => if at' ≤ x.2.1 then (x.1, x.2.1 + tpl.length, x.2.2) else x
    some (f.take at' ++ tpl ++ f.drop at',
      match setBit with
      | some b => (moved.filter (·.1 != b)) ++ [(b, at', tpl.length)]
      | none => moved)

/-- One FIXUP (step 4 of R221), on the rebuilt frame without its FCS. DESIGN CHOICE: one of a header that is not valid has no
effect. -/
def fixup (h kind : Nat) (f : List Byte) (t : HdrTab) : List Byte :=
  match t.at h with
  | none => f
  | some (s, n) =>
    let csum (f : List Byte) : List Byte :=
      let g := putBytes f (s + 10) (toBe 0 2)
      putBytes g (s + 10) (toBe (inetSum ((g.drop s).take n)) 2)
    match kind with
    | 0 => csum f
    | 1 => csum (putBytes f (s + 2) (toBe (f.length - s) 2))
    | 2 => putBytes f (s + 4) (toBe (f.length - s - 40) 2)
    | _ => putBytes (putBytes f (s + 4) (toBe (f.length - s) 2)) (s + 6) (toBe 0 2)

/-- Mark ECN CE on an ECT packet at the IPv4 or IPv6 header the egress parse found (R340); answers the frame and
whether it was marked. -/
def markCe (v4 v6 : Nat) (f : List Byte) (t : HdrTab) : List Byte × Bool :=
  match t.at v4, t.at v6 with
  | some (s, n), _ =>
    let b := getBe f (s + 1) 1
    if b % 4 = 1 ∨ b % 4 = 2 then
      let f1 := putBytes f (s + 1) (toBe (b / 4 * 4 + 3) 1)
      let f2 := putBytes f1 (s + 10) (toBe 0 2)
      (putBytes f2 (s + 10) (toBe (inetSum ((f2.drop s).take n)) 2), true)
    else (f, false)
  | none, some (s, _) =>
    let b := getBe f (s + 1) 1
    let ecn := b / 16 % 4
    if ecn = 1 ∨ ecn = 2 then (putBytes f (s + 1) (toBe (b - ecn * 16 + 48) 1), true) else (f, false)
  | none, none => (f, false)

/-- The rebuilt frame body and header table before telemetry and FCS, or none when the rebuild cannot complete
(R221, R223): the inputs are the vector, bindings, written containers, header table, recorded edits and the body. -/
def Core.rebuildBody (k : Core) (d p : Nat) (pk : Pkt) (body : List Byte) : Option (List Byte × HdrTab) :=
  if !editsWithinLimits pk.edits then none
  else
    match fieldSets pk.vec pk.hdrs pk.edits (writeBacks pk.vec pk.binds pk.written body) with
    | none => none
    | some f1 =>
      let r2 := pk.edits.foldl (fun r e => match e with
        | .remove h => removeHdr h r.1 r.2
        | _ => r) (f1, pk.hdrs)
      let r3 := pk.edits.foldlM (fun r e => match e with
        | .insert t a b s =>
          let tpl := k.template d p t pk.vec
          if tpl.isEmpty then none else insertHdr tpl a b s r.1 r.2
        | _ => some r) r2
      match r3 with
      | none => none
      | some (f3, t3) =>
        if body.length + 128 < f3.length then none
        else some (pk.edits.foldl (fun f e => match e with
          | .fixup h kd => fixup h kd f t3
          | _ => f) f3, t3)

end Sys2Proof.Machine
end

