-- ==== Sys2Proof/Machine/CatOps.lean ====
section
/-!
DEFINITION. The lookup tables (R251 to R306): the Catalogue's buckets, placement with relocation, lookups, learns and
messages; the prefix table's longest match; the filter table's first match.
-/
namespace Sys2Proof.Machine

/-! ### Buckets (R257) -/

/-- Reverse the order of 32 bits. -/
def rev32 (v : Nat) : Nat := (List.range 32).foldl (fun r i => r * 2 + bit v i) 0

/-- CRC-32C with another Init, given unreflected (R257). -/
def crc32cInit (init : Nat) (bytes : List Nat) : Nat :=
  (bytes.foldl (crcByte 0x82F63B78) (rev32 init)) ^^^ 0xFFFFFFFF

/-- The bytes of a key, lowest first: 16, or 32 for a 256-bit key. -/
def keyBytes (wide : Bool) (key : Nat) : List Nat :=
  (List.range (if wide then 32 else 16)).map fun i => key / 2 ^ (8 * i) % 256

/-- A key from its 32-bit words, lowest first. -/
def keyOf (ws : List Word) : Nat := ws.foldr (fun w n => w.toNat + 2 ^ 32 * n) 0

/-- The candidate buckets b0 and b1 (R257). -/
def buckets (seed : Nat) (wide : Bool) (key : Nat) : Nat × Nat :=
  let b0 := crc32c (keyBytes wide key) % 65536
  let b1 := crc32cInit (seed * 0x10001) (keyBytes wide key) % 65536
  (b0, if b1 = b0 then b0 ^^^ 1 else b1)

/-- The buckets of a key on a die. -/
def Core.catBuckets (k : Core) (d : Nat) (wide : Bool) (key : Nat) : Nat × Nat :=
  buckets (k.rd R.CAT_CFG_HASH_SEED (dw d) 0 0) wide key

/-! ### Entries -/

/-- The entry of a die for a key of a width (R256, R258). -/
def Core.catFind (k : Core) (d : Nat) (wide : Bool) (key : Nat) : Option CatEnt :=
  k.tables.ents.find? fun e => e.die == d && e.wide == wide && e.key == key

/-- Replace the entry at its place. -/
def Core.catPut (k : Core) (e : CatEnt) : Core :=
  { k with tables := { k.tables with
      ents := k.tables.ents.map fun x => if x.die = e.die ∧ x.idx = e.idx then e else x } }

/-- Add an entry. -/
def Core.catAdd (k : Core) (e : CatEnt) : Core :=
  { k with tables := { k.tables with ents := k.tables.ents ++ [e] } }

/-- Remove the entry of a die for a key. -/
def Core.catRemove (k : Core) (d : Nat) (wide : Bool) (key : Nat) : Core :=
  { k with tables := { k.tables with
      ents := k.tables.ents.filter fun e => !(e.die == d && e.wide == wide && e.key == key) } }

/-- The entry that takes slot `i` of a die. -/
def occupant (es : List CatEnt) (d i : Nat) : Option CatEnt :=
  es.find? fun e => e.die == d && (e.idx == i || (e.wide && e.idx + 1 == i))

/-- The places of a bucket for an entry: its 4 slots, or the lower slots of its 2 pairs. -/
def placesOf (b : Nat) (wide : Bool) : List Nat := if wide then [4 * b, 4 * b + 2] else [4 * b, 4 * b + 1, 4 * b + 2, 4 * b + 3]

/-- The slots a place takes. -/
def slotsAt (i : Nat) (wide : Bool) : List Nat := if wide then [i, i + 1] else [i]

/-- A place is free. -/
def placeFree (es : List CatEnt) (d i : Nat) (wide : Bool) : Bool :=
  (slotsAt i wide).all fun s => (occupant es d s).isNone

/-- The entries that stand in a place. -/
def standing (es : List CatEnt) (d i : Nat) (wide : Bool) : List CatEnt :=
  (((slotsAt i wide).filterMap fun s => occupant es d s).foldl
    (fun a e => if a.any (·.idx == e.idx) then a else a ++ [e]) [])

/-- Move an entry: copy to the target, then clear the old slot (R260). -/
def moveEnt (es : List CatEnt) (d src tgt : Nat) : List CatEnt :=
  es.map fun e => if e.die = d ∧ e.idx = src then { e with idx := tgt } else e

/-- The ways to make a place free by moving what stands in it to alternate buckets, within `budget` moves (`fuel` bounds the
depth), each as the entries after the moves and the moves left. The moves run from the far end backwards; no move lands on
a slot in `ban` or on the place itself. -/
def makeRoom (bk : CatEnt → Nat × Nat) (d : Nat) : Nat → Nat → List Nat → List CatEnt → Nat → Bool → List (List CatEnt × Nat)
  | 0, budget, _, es, i, wide => if placeFree es d i wide then [(es, budget)] else []
  | fuel + 1, budget, ban, es, i, wide =>
    (standing es d i wide).foldl (fun ways e => ways.flatMap fun (es, left) =>
      let b := bk e
      let other := if e.idx / 4 = b.1 then b.2 else b.1
      let taken := ban ++ slotsAt i wide ++ slotsAt e.idx e.wide
      let ps := (placesOf other e.wide).filter fun p => !((slotsAt p e.wide).any fun s => taken.contains s)
      if left = 0 then []
      else ps.flatMap fun p => (makeRoom bk d fuel (left - 1) taken es p e.wide).map fun q => (moveEnt q.1 d e.idx p, q.2))
      [(es, budget)]

/-- Find a place for a key on a die: a free place of b0 or b1; else one that a relocation of the fewest moves, at most 8,
makes free; else a stash place; else none (R258, R260). Answers the place, the entries and the moves made. -/
def findPlace (bk : CatEnt → Nat × Nat) (es : List CatEnt) (d : Nat) (b : Nat × Nat) (wide : Bool) :
    Option (Nat × List CatEnt × Nat) :=
  let ps := placesOf b.1 wide ++ placesOf b.2 wide
  match ps.find? fun p => placeFree es d p wide with
  | some p => some (p, es, 0)
  | none =>
    let path := (List.range 8).findSome? fun n => ps.findSome? fun p =>
      (makeRoom bk d (n + 1) (n + 1) [] es p wide).head?.map fun q => (p, q.1, n + 1 - q.2)
    match path with
    | some r => some r
    | none =>
      let st := (List.range 32).map (262144 + ·)
      ((st.filter fun p => !wide || p % 2 == 0).find? fun p => placeFree es d p wide).map fun p => (p, es, 0)

/-- Insert or replace a key's entry on a die; answers none when it cannot be placed (R260). -/
def Core.catPlace (k : Core) (e : CatEnt) : Option Core :=
  match k.catFind e.die e.wide e.key with
  | some old => some (k.catPut { e with idx := old.idx, hit := old.hit, mark := old.mark })
  | none =>
    let bk (x : CatEnt) := k.catBuckets x.die x.wide x.key
    (findPlace bk k.tables.ents e.die (bk e) e.wide).map fun (p, es, m) =>
      (({ k with tables := { k.tables with ents := es } }).catAdd { e with idx := p }).bump R.CAT_RELOC_CNT (dw e.die) 0 0 m

/-- Slots in use on a die, stash included (CAT_OCC). -/
def Core.catSlots (k : Core) (d : Nat) : Nat :=
  k.tables.ents.foldl (fun n e => if e.die = d then n + (if e.wide then 2 else 1) else n) 0

/-! ### Messages and records -/

/-- The 80-bit follower time of a change (R277). -/
def Core.followTime (k : Core) : Nat := k.time.sec * 2 ^ 32 + k.time.ns

/-- Put a message on the sender's control channel. -/
def Core.catSend (k : Core) (m : CatMsg) : Core :=
  { k with tables := { k.tables with msgs := k.tables.msgs ++ [m] } }

/-- The message that tells the other dies of an entry. -/
def learnMsg (e : CatEnt) (software : Bool) (time : Nat) : CatMsg :=
  ⟨.learn, e.die, e.wide, e.key, e.data, e.static, software, time, true, none⟩

/-- The message that tells the other dies to delete a key. -/
def deleteMsg (src : Nat) (wide : Bool) (key : Nat) (software : Bool) : CatMsg :=
  ⟨.delete, src, wide, key, 0, false, software, 0, true, none⟩

/-- The recent-learn record of a die for a key. -/
def Core.catRec (k : Core) (d : Nat) (wide : Bool) (key : Nat) : Option CatRec :=
  k.tables.recs.find? fun r => r.die == d && r.wide == wide && r.key == key

/-- Keep a recent-learn record, dropping the die's oldest when it holds 2,048 (R281). -/
def Core.catRemember (k : Core) (r : CatRec) : Core :=
  let rest := k.tables.recs.filter fun x => !(x.die == r.die && x.wide == r.wide && x.key == r.key)
  let mine := rest.filter (·.die == r.die)
  if mine.length < 2048 then { k with tables := { k.tables with recs := rest ++ [r] } }
  else
    match mine.head? with
    | some o => ({ k with tables := { k.tables with recs := (rest.erase o) ++ [r] } }).bump R.CAT_REC_EVICT_CNT (dw r.die) 0 0 1
    | none => k

/-- Forget a key's record. -/
def Core.catForget (k : Core) (d : Nat) (wide : Bool) (key : Nat) : Core :=
  { k with tables := { k.tables with
      recs := k.tables.recs.filter fun x => !(x.die == d && x.wide == wide && x.key == key) } }

/-- A key is under a learn lock of its die: a learn waits for it, or a software command on it runs (R275). -/
def Core.catLocked (k : Core) (d : Nat) (wide : Bool) (key : Nat) : Bool :=
  (k.tables.learns.any fun l => l.die == d && l.wide == wide && l.key == key) ||
    (k.tables.cmds.any fun c => c.die == d && c.started && !c.deep && c.wide == wide && c.key == key &&
      (c.op == 1 || c.op == 2))

/-- Learn locks in use on a die. -/
def Core.catLocksUsed (k : Core) (d : Nat) : Nat :=
  k.tables.learns.countP (·.die == d) +
    k.tables.cmds.countP fun c => c.die == d && c.started && !c.deep && (c.op == 1 || c.op == 2)

/-! ### Lookups -/

/-- What a lookup returns (R135, R263): four words and the status. -/
structure Found where
  res : List Word
  hit : Bool
  poisoned : Bool
  error : Bool
  deriving DecidableEq, Repr

/-- A miss. -/
def Found.miss : Found := ⟨[0, 0, 0, 0], false, false, false⟩

/-- The two words of 64-bit data. -/
def dataWords (v : Nat) : List Word := [BitVec.ofNat 32 v, BitVec.ofNat 32 (v / 2 ^ 32)]

/-- What a hit on an entry returns (R263). -/
def catFound (e : CatEnt) : Found :=
  ⟨dataWords e.data ++ [BitVec.ofNat 32 (b2n e.static * 2 ^ 31 + e.home * 2 ^ 28 + b2n e.learned * 2 ^ 27 + e.idx), 0],
   true, false, false⟩

/-- Set an entry's hit bit; a rise on an entry of another home queues or merges a touch (R285, R286). -/
def Core.catHit (k : Core) (e : CatEnt) : Core :=
  if e.hit then k
  else
    let k1 := k.catPut { e with hit := true }
    if e.home = e.die then k1
    else if k1.tables.touches.any fun t => t.1 == e.die && t.2.2.1 == e.wide && t.2.2.2 == e.key then k1
    else if k1.tables.touches.countP (·.1 == e.die) < 512 then
      { k1 with tables := { k1.tables with touches := k1.tables.touches ++ [(e.die, e.home, e.wide, e.key)] } }
    else (k1.bump R.CAT_TOUCH_DROP_CNT (dw e.die) 0 0 1).raise (dw e.die) 0x20 4

/-- A source miss: learn the key, or count why not (R274 to R276). -/
def Core.catLearn (k : Core) (d : Nat) (wide : Bool) (key data : Nat) : Core :=
  let us := k.time.now / 1000
  let r := k.tables.lrnRate.get d
  let used := if r / 64 = us then r % 64 else 0
  if k.catLocked d wide key then k.bump R.CAT_LRN_DUP_CNT (dw d) 0 0 1
  else if 64 ≤ k.catLocksUsed d ∨ k.rd R.CAT_LRN_RATE_LIMIT (dw d) 0 0 ≤ used ∨
      256 ≤ k.tables.learns.countP (·.die == d) then
    (k.bump R.CAT_LRN_DROP_CNT (dw d) 0 0 1).raise (dw d) 0x20 0
  else { k with tables := { k.tables with
      learns := k.tables.learns ++ [⟨d, wide, key, data, k.followTime⟩]
      lrnRate := k.tables.lrnRate.set d (us * 64 + used + 1) } }

/-- A source hit with other data under the mask: a station move of a dynamic entry, a violation of a static one
(R274). -/
def Core.catStation (k : Core) (e : CatEnt) (data mask : Nat) : Core :=
  if ((e.data ^^^ data) &&& mask) = 0 then k
  else if e.static then (k.bump R.CAT_STATIC_VIOL_CNT (dw e.die) 0 0 1).raise (dw e.die) 0x20 3
  else
    let e' := { e with data := data, home := e.die }
    let t := k.followTime
    (((k.catPut e').catRemember ⟨e.die, e.wide, e.key, e.die, false, t, k.time.now⟩).bump R.CAT_MOVE_CNT (dw e.die) 0 0 1).catSend
      (learnMsg e' false t)

/-- A repair is of the entry in a slot. -/
def CatRepair.covers (r : CatRepair) (d i : Nat) : Bool := r.die == d && decide (r.idx ≤ i) && decide (i < r.idx + r.slots)

/-- An entry reads uncorrectable (R264, R595): the local copy is invalidated, with the event, and asked for from the peer: by
its key, or with its bucket when a key word is lost. -/
def Core.catUe (k : Core) (e : CatEnt) (keyLost : Bool) : Core :=
  let k1 := ((k.catRemove e.die e.wide e.key).ueFound (dw e.die) 5).raise (dw e.die) 0x20 2
  let ask : CatRepair := ⟨e.die, e.idx, if e.wide then 2 else 1, if keyLost then none else some (e.wide, e.key), false, k.time.now⟩
  { k1 with tables := { k1.tables with repairs := k1.tables.repairs ++ [ask] } }

/-- The uncorrectable entry a lookup meets: in a slot it compares (R258), a key word lost or the entry of the key itself. -/
def Core.catStruck (k : Core) (d : Nat) (wide : Bool) (key : Nat) (ue : Option (Nat × Bool)) : Option (CatEnt × Bool) :=
  match ue with
  | none => none
  | some (i, lost) =>
    let b := k.catBuckets d wide key
    ((occupant k.tables.ents d i).filter fun e => (i / 4 == b.1 || i / 4 == b.2 || decide (262144 ≤ i)) &&
      (lost || (e.wide == wide && e.key == key))).map (·, lost)

/-- A scrub pass has found the slot a lookup meets uncorrectable in the same instant (R605): the lookup has its own outcome, and the
containment and the repair stand. -/
def Core.catStruckBefore (k : Core) (d : Nat) (wide : Bool) (key : Nat) (ue : Option (Nat × Bool)) : Bool :=
  match ue with
  | none => false
  | some (i, lost) =>
    let b := k.catBuckets d wide key
    (i / 4 == b.1 || i / 4 == b.2 || decide (262144 ≤ i)) && k.tables.repairs.any fun r =>
      r.covers d i && r.since == k.time.now && (lost || r.key.isNone || r.key == some (wide, key))

/-- A Catalogue lookup of pipeline `p`, stage `s` (R258, R263, R264, R273, R285): the result and the core after it.
`ue` names a slot that is uncorrectable, and says whether in a key word. -/
def Core.catLookup (k : Core) (d p s : Nat) (wide : Bool) (key : Nat) (learned : Nat → Nat → Nat)
    (ue : Option (Nat × Bool)) : Core × Found :=
  let source := k.rd R.CAT_LRN_CFG_EN (dw d) 0 p == 1 && k.rd R.CAT_CFG_LRN_EN (dw d) 0 0 == 1 &&
    k.rd R.CAT_LRN_CFG_STAGE (dw d) 0 p == s
  let data := learned (k.rd R.CAT_LRN_CFG_DATA_HI (dw d) 0 p) (k.rd R.CAT_LRN_CFG_DATA_LO (dw d) 0 p)
  let k0 := k.count (dw d) 2 0 0 1
  match k0.catStruck d wide key ue with
  | some (e, lost) => (k0.catUe e lost, { Found.miss with error := true })
  | none =>
    if k0.catStruckBefore d wide key ue then (k0, { Found.miss with error := true })
    else match k0.catFind d wide key with
    | none => (if source then k0.catLearn d wide key data else k0, .miss)
    | some e =>
      let k1 := k0.count (dw d) 2 1 0 1
      let k2 := if source ∨ k.rd R.CAT_CFG_AGE_ANY (dw d) 0 0 = 1 then k1.catHit e else k1
      let k3 := if source then
          match k2.catFind d wide key with
          | some e2 => k2.catStation e2 data (k.rd R.CAT_LRN_MASK (dw d) 0 p)
          | none => k2
        else k2
      (k3, catFound e)

/-- The bits of an address a prefix compares: its top `len` of `w`. -/
def prefixMatch (w addr paddr len : Nat) : Bool := addr / 2 ^ (w - len) == paddr / 2 ^ (w - len)

/-- The longest matching prefix of a die (R296, R297). -/
def Core.lpmBest (k : Core) (d : Nat) (v6 : Bool) (vrf addr : Nat) : Option LpmEnt :=
  (k.tables.lpm.filter fun e => e.die == d && e.v6 == v6 && (v6 || e.vrf == vrf) &&
      prefixMatch (if v6 then 128 else 32) addr e.addr e.len).foldl
    (fun best e => match best with
      | none => some e
      | some b => if b.len < e.len then some e else some b) none

/-- A prefix's store word is poisoned (R570). -/
def Core.lpmPoison (k : Core) (e : LpmEnt) : Core :=
  { k with tables := { k.tables with lpm := k.tables.lpm.map fun x => if x = e then { x with ue := true } else x } }

/-- Ask the peer for a prefix (R597), unless it has been asked for (R605). -/
def Core.askPrefix (k : Core) (e : LpmEnt) (pass : Bool) : Core :=
  if k.tables.prefixAsks.any fun r => r.die == e.die && r.v6 == e.v6 && r.vrf == e.vrf && r.addr == e.addr && r.len == e.len then k
  else { k with tables := { k.tables with
      prefixAsks := k.tables.prefixAsks ++ [⟨e.die, e.v6, e.vrf, e.addr, e.len, pass⟩] } }

/-- A prefix lookup (R297): data, matched length; a prefix that reads uncorrectable misses with error. -/
def Core.lpmLookup (k : Core) (d : Nat) (v6 : Bool) (key : Nat) (ue : Bool) : Core × Found :=
  let k0 := k.count (dw d) 2 5 0 1
  let addr := if v6 then key % 2 ^ 128 else key % 2 ^ 32
  match k0.lpmBest d v6 (key / 2 ^ 32 % 2 ^ 16) addr with
  | none => (k0, .miss)
  | some e =>
    if e.ue then (k0, { Found.miss with error := true })
    else if ue then (((k0.lpmPoison e).askPrefix e false).ueFound (dw d) 6 |>.raise (dw d) 0x24 1, { Found.miss with error := true })
    else (k0, ⟨dataWords e.data ++ [BitVec.ofNat 32 e.len, 0], true, false, false⟩)

/-- A filter lookup: the lowest matching entry's action (R301, R303). The TCAM row compares. -/
def Core.fltLookup (k : Core) (d : Nat) (key : Nat) : Core × Found :=
  let k0 := k.count (dw d) 2 6 0 1
  let hits := k0.tables.flt.filter fun e => e.die == d && e.valid && (((key ^^^ e.rowValue) &&& e.rowMask) == 0)
  match hits.foldl (fun best e => match best with
      | none => some e
      | some (b : FltEnt) => if e.idx < b.idx then some e else some b) none with
  | none => (k0, .miss)
  | some e => (k0, ⟨dataWords e.action ++ [BitVec.ofNat 32 e.idx, 0], true, false, false⟩)

/-- The 320-bit filter key (R302): the word's key, then the six containers FLT_XSEL names for the pipeline and half. -/
def Core.fltKey (k : Core) (d p : Nat) (egress : Bool) (key128 : Nat) (v : List Word) : Nat :=
  let i := 2 * p + b2n egress
  let sel (f : Fld) : Nat := (v.getD (k.rd f (dw d) 0 i) 0).toNat
  key128 + 2 ^ 128 * (sel R.FLT_XSEL_A_SEL0 + 2 ^ 32 * (sel R.FLT_XSEL_A_SEL1 + 2 ^ 32 * (sel R.FLT_XSEL_A_SEL2 +
    2 ^ 32 * (sel R.FLT_XSEL_B_SEL3 + 2 ^ 32 * (sel R.FLT_XSEL_B_SEL4 + 2 ^ 32 * sel R.FLT_XSEL_B_SEL5)))))

end Sys2Proof.Machine
end

