-- ==== Sys2Proof/Machine/Gate.lean ====
section
/-!
DEFINITION. Who may access what (R3, R71, R75, R80, R81, R85, R86, R92, R102, R103, R687, R733): the verdict on an
access, and the one operation through which every command that is a register write takes its effect.
-/
namespace Sys2Proof.Machine

/-- What becomes of an access: it is served; it completes with zeros or a discard and no error; or it also sets ACC_ERR
on a page. -/
inductive Verdict where
  | ok
  | silent
  | error (w page : Nat)
  deriving DecidableEq, Repr

/-- The fused rights of a master to a class, or the default of R102 while the matrix is not programmed. Bit 0 is read,
bit 1 (only together with bit 0) write; 0b10 acts as none (R101). -/
def Core.rights (k : Core) (m : Master) (cls : Nat) : Nat :=
  match k.pack.matrix with
  | some mx => mx.getD m.id 0 / 2 ^ (2 * cls) % 4
  | none => match m with
    | .pf f => if f = 0 then 3 else if cls = 9 then 3 else if cls = 0 ∨ cls = 8 then 1 else 0
    | _ => 3

/-- The rights allow the access. -/
def Core.allows (k : Core) (m : Master) (cls : Nat) (write : Bool) : Bool :=
  let r := k.rights m cls
  if write then r == 3 else r == 3 || r == 1

/-- The mailbox channel whose page this is (R732), and its sender's master ID. -/
def channelOf (w page : Nat) : Option Nat :=
  if w = 0 ∧ 0xB0 ≤ page ∧ page ≤ 0xBC then some (page - 0xB0) else none

/-- The master ID of a channel's sender (R732). -/
def senderId (ch : Nat) : Nat := if ch < 4 then ch else if ch < 12 then ch + 4 else 5

/-- A page R75 assigns, which on this part is not a mailbox page of an absent die (R733). -/
def Core.pageExists (k : Core) (w page : Nat) : Bool :=
  (blockOf w page).isSome &&
    (match channelOf w page with
     | some ch => !(decide (4 ≤ ch ∧ ch < 12)) || k.populated (ch - 4)
     | none => true)

/-- The part serves BAR0 accesses of the functions once configuration space answers (R686, R688), and the debug port's
while it is enabled (R714); other masters are inside the part. -/
def Core.serves (k : Core) (m : Master) : Bool :=
  match m with
  | .pf _ => k.pack.hostUp
  | .debug => k.pack.debugOn
  | _ => true

/-- IND_ADDR and IND_CMD of the SEQ window: an indirect read needs read rights only (R187). -/
def seqReadAddr (w page off : Nat) : Bool :=
  w != 0 && decide (8 ≤ page ∧ page < 16) && (off == 0x200 || off == 0x204)

/-- The verdict on an access of one aligned register of window `w` (0 Meridian, d + 1 port die), page and offset. -/
def Core.verdict (k : Core) (m : Master) (w page off : Nat) (write : Bool) : Verdict :=
  if !k.serves m then .silent
  else if 9 ≤ w then .error 0 0
  else
    let die := w - 1
    match m with
    | .die d =>
      -- R81: a die controller reaches its own window, the locks and its own channel
      let own := decide (w = d.val + 1) || decide (w = 0 ∧ page = 4) ||
        decide (channelOf w page = some (4 + d.val))
      -- where R75 reserves the page there is no header to show the error: the root page of its window does (DESIGN CHOICE)
      if !k.pageExists w page then .error w 0
      else if !own then .error w page
      else if write ∧ 0x100 ≤ off ∧ k.rd R.PAGE_OWNER_VALID w page 0 = 1 ∧
          k.rd R.PAGE_OWNER_OWNER w page 0 ≠ m.id then .error w page
      else .ok
    | _ =>
      if w ≠ 0 ∧ (!k.populated die ∨ !k.released die) then .silent
      else match blockOf w page with
        | none => .error w 0
        | some (_, cls) =>
          if !k.pageExists w page then .error w 0
          else
            let mine := match channelOf w page with
              | some ch => decide (0x100 ≤ off) && (decide (senderId ch = m.id) || decide (m = .mp))
              | none => false
            let other := match channelOf w page with
              | some _ => decide (0x100 ≤ off) && !mine
              | none => false
            if other || (!mine && !k.allows m cls (write && !seqReadAddr w page off)) then .error w page
            else if write ∧ 0x100 ≤ off ∧ k.rd R.PAGE_OWNER_VALID w page 0 = 1 ∧
                k.rd R.PAGE_OWNER_OWNER w page 0 ≠ m.id then .error w page
            else .ok

/-- The verdict on an access through the broadcast window (R72, R81): the check is made once, on port die 0, which every part
has; the window is none of the places a die controller reaches. DESIGN CHOICE: an error shows on port die 0's page, for
writes as for reads. -/
def Core.broadcastVerdict (k : Core) (m : Master) (page off : Nat) (write : Bool) : Verdict :=
  match m with
  | .die _ => .error 1 (if k.pageExists 1 page then page else 0)
  | _ => k.verdict m 1 page off write

/-- The effect of a register write at a page and offset: `f` when the access is served, otherwise a discard with the
error the verdict names (R86, R103). -/
def Core.writeAt (k : Core) (m : Master) (w page off : Nat) (f : Core → Core) : Core :=
  match k.verdict m w page off true with
  | .ok => f k
  | .silent => k
  | .error ew ep => k.accErr ew ep m off

/-- The effect of a register read. -/
def Core.readAt (k : Core) (m : Master) (w page off : Nat) (f : Core → Core) : Core :=
  match k.verdict m w page off false with
  | .ok => f k
  | .silent => k.emit (.readData m.id (regAddr w page off) 0)
  | .error ew ep => (k.accErr ew ep m off).emit (.readData m.id (regAddr w page off) 0)

/-- The part runs: powered, out of cold reset, its clocks not stopped by a thermal trip (R671, R679, R683). -/
def Core.live (k : Core) : Bool := k.pack.power && !k.pack.sysRst && !k.pack.tripped

/-- A meaning that changes only the core; a part that does not run does nothing. -/
def State.onCore (s : State) (f : Core → Core) : State := if s.core.live then { s with core := f s.core } else s

/-- A meaning that is a register write. -/
def State.write (s : State) (m : Master) (w page off : Nat) (f : Core → Core) : State :=
  s.onCore fun k => k.writeAt m w page off f

/-- A meaning that is a register write, through port die `d`'s window or through the broadcast window. -/
def State.writeVia (s : State) (m : Master) (broadcast : Bool) (d page off : Nat) (f : Core → Core) : State :=
  if broadcast then
    s.onCore fun k => match k.broadcastVerdict m page off true with
      | .ok => f k
      | .silent => k
      | .error ew ep => k.accErr ew ep m off
  else s.write m (dw d) page off f

/-- A meaning that is a register read. -/
def State.read (s : State) (m : Master) (w page off : Nat) (f : Core → Core) : State :=
  s.onCore fun k => k.readAt m w page off f

/-- An indirect operation runs on the page (PAGE_STATUS.BUSY, which every IND_STATUS.BUSY of the page mirrors). -/
def Core.indBusy (k : Core) (w page : Nat) : Bool := k.io.ind.any fun o => o.win == w && o.page == page

/-- A meaning that is a whole write through an indirect window: discarded with ACC_ERR while the page is busy (R97). -/
def State.window (s : State) (m : Master) (w page off : Nat) (f : Core → Core) : State :=
  s.write m w page off fun k => if k.indBusy w page then k.accErr w page m off else f k

/-- The outcome of a command: the next state. -/
def done (s : State) : Host.Outcome State Fault Refusal := .next s

end Sys2Proof.Machine
end

