-- ==== Sys2Proof/Machine/Catalogue.lean ====
section
/-!
DEFINITION. The Catalogue's commands: hardware learns, the messages between dies, sweeps, and the command engine
(R259 to R289, R308 to R312).
-/
namespace Sys2Proof.Machine

/-! ### Learns and messages -/

/-- Apply a learn on a die, the die's own or a message's (R282, R283): a recent record decides by origin, time and
home; without one the entry is replaced, but a hardware learn never replaces a static entry. Answers the core, and
false when the entry could not be placed. -/
def Core.catApply (k : Core) (e : CatEnt) (software : Bool) (time : Nat) : Core × Bool :=
  let d := e.die
  let place (k : Core) : Core × Bool :=
    match k.catPlace e with
    | some k1 => (k1.catRemember ⟨d, e.wide, e.key, e.home, software, time, k.time.now⟩, true)
    | none => (k, false)
  match k.catRec d e.wide e.key with
  | some r =>
    let k1 := k.bump R.CAT_CONFLICT_CNT (dw d) 0 0 1
    let wins := if software ≠ r.software then software
      else if time ≠ r.time then decide (time < r.time)
      else decide (e.home < r.home)
    if wins then place k1 else (k1, true)
  | none =>
    match k.catFind d e.wide e.key with
    | some old =>
      if old.static ∧ ¬ software then (k.bump R.CAT_STATIC_VIOL_CNT (dw d) 0 0 1, true) else place k
    | none => place k

/-- HW_LEARN (R274, R278): the update engine of die `d` inserts the oldest waiting learn with HOME = d and LEARNED = 1,
releases its lock and sends a hardware learn message; when it cannot place the entry it drops the learn. -/
def Core.hwLearn (k : Core) (d : Nat) : Core :=
  match k.tables.learns.find? (·.die == d) with
  | none => k
  | some l =>
    let k0 := { k with tables := { k.tables with learns := k.tables.learns.erase l } }
    let e : CatEnt := ⟨d, 0, l.wide, l.key, l.data, false, true, d, true, false⟩
    -- with no entry there is none to contest: the key is inserted (R274)
    let r := if (k0.catFind d l.wide l.key).isSome then k0.catApply e false l.time
      else (k0.catForget d l.wide l.key).catApply e false l.time
    match r with
    | (k1, true) =>
      if (k1.catFind d l.wide l.key).any fun x => x.home == d && x.data == l.data then
        ((k1.bump R.CAT_LRN_CNT (dw d) 0 0 1).count (dw d) 2 2 0 1).catSend (learnMsg e false l.time)
      else k1
    | (k1, false) => (k1.bump R.CAT_LRN_FULL_CNT (dw d) 0 0 1).raise (dw d) 0x20 1

/-- HW_LEARN. -/
def execHwLearn (d : Fin 8) (s : State) : Host.Outcome State Fault Refusal := done (s.onCore fun k => k.hwLearn d)

/-- The dies a message is copied to: every other populated die that is not fenced (R268, R279). -/
def Core.peers (k : Core) (d : Nat) : List Nat := k.dieList.filter fun x => x != d && !k.fenced x

/-- LEARN_MESSAGE_FORWARD (R279): the Meridian die takes the oldest message on a control channel and copies it to every
other populated die; a touch or a reject goes to the die it names, unless that die is fenced. DESIGN CHOICE: a message a die
had put on its channel before it was fenced is still copied and applied; R67 does not say what becomes of it. -/
def Core.catForward (k : Core) : Core :=
  match k.tables.msgs.find? (·.atSender) with
  | none => k
  | some m =>
    let rest := k.tables.msgs.erase m
    let copies := match m.dst with
      | some d => if k.fenced d then [] else [{ m with atSender := false }]
      | none => (k.peers m.src).map fun d => { m with atSender := false, dst := some d }
    { k with tables := { k.tables with msgs := rest ++ copies } }

/-- LEARN_MESSAGE_FORWARD. -/
def execLearnMessageForward (s : State) : Host.Outcome State Fault Refusal := done (s.onCore Core.catForward)

/-- The oldest message that has arrived for a die. -/
def Core.catInbox (k : Core) (d : Nat) : Option CatMsg :=
  k.tables.msgs.find? fun m => !m.atSender && m.dst == some d

/-- Take a message away. -/
def Core.catTake (k : Core) (m : CatMsg) : Core :=
  { k with tables := { k.tables with msgs := k.tables.msgs.erase m } }

/-- Die `d` has applied a software message of `src` for a key (R269): a delete counts for a DELETE, and for an INSERT that was
rejected and is being removed everywhere (R270 status 6); a learn for an INSERT that stands. -/
def Core.catAck (k : Core) (src d : Nat) (wide : Bool) (key : Nat) (delete : Bool) : Core :=
  { k with tables := { k.tables with cmds := k.tables.cmds.map fun c =>
      if c.die = src ∧ c.started ∧ c.wide = wide ∧ c.key = key ∧ (c.op == 2 || c.rejected) = delete then
        { c with waiting := c.waiting.erase d } else c } }

/-- Another die has rejected the INSERT that runs on `src` for a key: it answers PEER_REJECT once every other die has
applied the delete (R270, R277). -/
def Core.catRejected (k : Core) (src : Nat) (wide : Bool) (key : Nat) : Core :=
  { k with tables := { k.tables with cmds := k.tables.cmds.map fun c =>
      if c.die = src ∧ c.started ∧ c.wide = wide ∧ c.key = key ∧ c.op = 1 then
        { c with waiting := k.peers src, rejected := true } else c } }

/-- LEARN_MESSAGE_APPLY (R277, R282, R283): die `d` applies the learn message at the head of its arrivals; one it
cannot place is rejected to the home die. -/
def Core.learnApply (k : Core) (d : Nat) : Core :=
  match k.catInbox d with
  | some m =>
    if m.kind = .learn then
      let e : CatEnt := ⟨d, 0, m.wide, m.key, m.data, m.static, !m.software, m.src, false, false⟩
      match (k.catTake m).catApply e m.software m.time with
      | (k1, true) =>
        let k2 := k1.count (dw d) 2 3 0 1
        if m.software then k2.catAck m.src d m.wide m.key false else k2
      | (k1, false) => k1.catSend { m with kind := .reject, src := d, atSender := true, dst := some m.src }
    else k
  | none => k

/-- LEARN_MESSAGE_APPLY. -/
def execLearnMessageApply (d : Fin 8) (s : State) : Host.Outcome State Fault Refusal :=
  done (s.onCore fun k => k.learnApply d)

/-- LEARN_REJECT (R277): the home die deletes the entry everywhere, counts, and reports by origin. -/
def Core.learnReject (k : Core) (d : Nat) : Core :=
  match k.catInbox d with
  | some m =>
    if m.kind = .reject then
      let k1 := ((((k.catTake m).catRemove d m.wide m.key).catForget d m.wide m.key).bump R.CAT_LRN_FULL_CNT (dw d) 0 0 1).catSend
        (deleteMsg d m.wide m.key m.software)
      if m.software then k1.catRejected d m.wide m.key else k1.raise (dw d) 0x20 1
    else k
  | none => k

/-- LEARN_REJECT. -/
def execLearnReject (d : Fin 8) (s : State) : Host.Outcome State Fault Refusal :=
  done (s.onCore fun k => k.learnReject d)

/-- DELETE_MESSAGE_APPLY (R284): a delete removes the entry only when it names the sender as HOME; a software delete
removes it whatever its home and erases the key's record. -/
def Core.deleteApply (k : Core) (d : Nat) : Core :=
  match k.catInbox d with
  | some m =>
    if m.kind = .delete then
      let k1 := k.catTake m
      if m.software then ((k1.catRemove d m.wide m.key).catForget d m.wide m.key).catAck m.src d m.wide m.key true
      else match k1.catFind d m.wide m.key with
        | some e => if e.home = m.src then k1.catRemove d m.wide m.key else k1.bump R.CAT_STALE_DEL_CNT (dw d) 0 0 1
        | none => k1.bump R.CAT_STALE_DEL_CNT (dw d) 0 0 1
    else k
  | none => k

/-- DELETE_MESSAGE_APPLY. -/
def execDeleteMessageApply (d : Fin 8) (s : State) : Host.Outcome State Fault Refusal :=
  done (s.onCore fun k => k.deleteApply d)

/-- TOUCH_SEND (R286, R314): die `d` sends its oldest queued touch to the entry's home, or discards it when the home is
fenced. -/
def Core.touchSend (k : Core) (d : Nat) : Core :=
  match k.tables.touches.find? (·.1 == d) with
  | none => k
  | some t =>
    let k1 := { k with tables := { k.tables with touches := k.tables.touches.erase t } }
    if k.fenced t.2.1 then k1
    else k1.catSend ⟨.touch, d, t.2.2.1, t.2.2.2, 0, false, false, 0, true, some t.2.1⟩

/-- TOUCH_SEND. -/
def execTouchSend (d : Fin 8) (s : State) : Host.Outcome State Fault Refusal := done (s.onCore fun k => k.touchSend d)

/-- TOUCH_APPLY (R286): the home die sets its hit bit for the key; a touch that finds no entry is discarded. -/
def Core.touchApply (k : Core) (d : Nat) : Core :=
  match k.catInbox d with
  | some m =>
    if m.kind = .touch then
      match k.catFind d m.wide m.key with
      | some e => (k.catTake m).catPut { e with hit := true }
      | none => k.catTake m
    else k
  | none => k

/-- TOUCH_APPLY. -/
def execTouchApply (d : Fin 8) (s : State) : Host.Outcome State Fault Refusal := done (s.onCore fun k => k.touchApply d)

/-- LEARN_RECORD_EXPIRE (R281): records of die `d` older than 4 µs go. -/
def Core.recExpire (k : Core) (d : Nat) : Core :=
  { k with tables := { k.tables with
      recs := k.tables.recs.filter fun r => !(r.die == d && decide (r.at' + 4000 ≤ k.time.now)) } }

/-- LEARN_RECORD_EXPIRE. -/
def execLearnRecordExpire (d : Fin 8) (s : State) : Host.Outcome State Fault Refusal :=
  done (s.onCore fun k => k.recExpire d)

/-! ### Sweeps (R287 to R289) -/

/-- The sweeper visits one entry. `prevail`: slots whose hit bit a lookup or a touch sets in the removal cycle itself; such an
entry survives with the bit set (R289, R314). -/
def Core.sweepEnt (k : Core) (prevail : List Nat) (e : CatEnt) : Core :=
  if e.static ∨ k.fenced e.home then k
  else if e.home ≠ e.die then k.catPut { e with hit := false }
  else if e.hit then k.catPut { e with hit := false, mark := false }
  else if ¬ e.mark then k.catPut { e with mark := true }
  else if prevail.contains e.idx then k.catPut { e with hit := true }
  else ((k.catRemove e.die e.wide e.key).bump R.CAT_AGE_DEL_CNT (dw e.die) 0 0 1).catSend (deleteMsg e.die e.wide e.key false)

/-- One pass over the entries of a die. -/
def Core.sweep (k : Core) (d : Nat) (prevail : List Nat) : Core :=
  (k.tables.ents.filter (·.die == d)).foldl (fun k e => k.sweepEnt prevail e) k

/-- SWEEP_PASS (R287): while CAT_SWEEP_CFG.EN is 1 and no pause stands, die `d`'s sweeper makes a pass. -/
def execSweepPass (d : Fin 8) (prevail : List (Fin 262176)) (s : State) : Host.Outcome State Fault Refusal :=
  done (s.onCore fun k =>
    if k.rd R.CAT_SWEEP_CFG_EN (dw d) 0 0 = 1 ∧ k.rd R.CAT_STATUS_SWEEP_PAUSED (dw d) 0 0 = 0 then
      k.sweep d (prevail.map (·.val)) else k)

/-! ### The command engine (R265 to R272) -/

/-- Post a response and its event (R267, R311). -/
def Core.catRespond (k : Core) (r : CatRsp) : Core :=
  ({ k with tables := { k.tables with rsps := k.tables.rsps ++ [r] } }).raise (dw r.die) 0x21 0

/-- A plain response of a command. -/
def CatCmd.rsp (c : CatCmd) (status : Nat) : CatRsp := ⟨c.die, c.tag, status, 0, false, false, false, 0, 0, 0, 0⟩

/-- A response that returns an entry. -/
def CatCmd.rspEnt (c : CatCmd) (e : CatEnt) (cursor : Nat) : CatRsp :=
  ⟨c.die, c.tag, 0, e.home, e.static, e.wide, e.hit, e.key, e.data, cursor, 0⟩

/-- How a command runs on its own die: it is finished with a response, or waits for the other dies. -/
inductive CatRun where
  | finished (r : CatRsp)
  | waits (dies : List Nat) (removed : Nat)

/-- INSERT on the issuing die (R268). -/
def Core.runInsert (k : Core) (c : CatCmd) : Core × CatRun :=
  if c.noReplace ∧ (k.catFind c.die c.wide c.key).isSome then (k, .finished (c.rsp 3))
  else
    let t := k.followTime
    let e : CatEnt := ⟨c.die, 0, c.wide, c.key, c.data, c.static, false, c.die, false, false⟩
    match k.catPlace e with
    | none => (k, .finished (c.rsp 2))
    | some k1 => ((k1.catRemember ⟨c.die, c.wide, c.key, c.die, true, t, k.time.now⟩).catSend (learnMsg e true t),
        .waits (k.peers c.die) 0)

/-- DELETE on the issuing die (R268, R284). -/
def Core.runDelete (k : Core) (c : CatCmd) : Core × CatRun :=
  match k.catFind c.die c.wide c.key with
  | none => (k, .finished (c.rsp 1))
  | some _ => (((k.catRemove c.die c.wide c.key).catForget c.die c.wide c.key).catSend
      (deleteMsg c.die c.wide c.key true), .waits (k.peers c.die) 0)

/-- SEARCH (R264, R268). -/
def Core.runSearch (k : Core) (c : CatCmd) : Core × CatRun :=
  match k.catFind c.die c.wide c.key with
  | none => (k, .finished (c.rsp 1))
  | some e => if c.ue then (k.catUe e false, .finished (c.rsp 7)) else (k, .finished (c.rspEnt e 0))

/-- NEXT (R268, R271): the first valid entry from the cursor upward that matches under the masks. -/
def Core.runNext (k : Core) (c : CatCmd) : Core × CatRun :=
  let ms := k.tables.ents.filter fun e => e.die == c.die && decide (c.cursor ≤ e.idx) &&
    ((e.key &&& c.kmask) == (c.key &&& c.kmask)) && ((e.data &&& c.dmask) == (c.data &&& c.dmask))
  if 262175 < c.cursor then (k, .finished (c.rsp 5))
  else match ms.foldl (fun best e => match best with
      | none => some e
      | some (b : CatEnt) => if e.idx < b.idx then some e else some b) none with
  | none => (k, .finished (c.rsp 4))
  | some e => if c.ue then (k.catUe e false, .finished (c.rsp 7)) else (k, .finished (c.rspEnt e (e.idx + 1)))

/-- The entries FLUSH_BY_PORT removes (R268). -/
def flushes (c : CatCmd) (e : CatEnt) : Bool :=
  e.data % 2 ^ 11 == c.data % 2 ^ 11 && ((e.key &&& c.kmask) == (c.key &&& c.kmask)) && (!e.static || c.inclStatic)

/-- FLUSH_BY_PORT on all dies (R268, R272). -/
def Core.runFlush (k : Core) (c : CatCmd) : Core × CatRun :=
  let n := k.tables.ents.countP fun e => e.die == c.die && flushes c e
  ({ k with tables := { k.tables with ents := k.tables.ents.filter fun e => !(!k.fenced e.die && flushes c e) } },
    .waits [] n)

/-- SWEEP_CTRL on all dies (R268): 0 pause, 1 resume, 2 a pass now. -/
def Core.runSweepCtrl (k : Core) (c : CatCmd) : Core × CatRun :=
  let dies := k.dieList.filter fun d => !k.fenced d
  match c.data % 4 with
  | 0 => (dies.foldl (fun k d => k.wr R.CAT_STATUS_SWEEP_PAUSED (dw d) 0 0 1) k, .waits [] 0)
  | 1 => (dies.foldl (fun k d => k.wr R.CAT_STATUS_SWEEP_PAUSED (dw d) 0 0 0) k, .waits [] 0)
  | 2 => (dies.foldl (fun k d => k.sweep d ((c.prevail.filter (·.1.val == d)).map (·.2.val))) k, .waits [] 0)
  | _ => (k, .finished (c.rsp 5))

/-- Run a command of the Catalogue proper on its own die; a fenced die refuses (R270 status 5). -/
def Core.catRunOne (k : Core) (c : CatCmd) : Core × CatRun :=
  if k.fenced c.die then (k, .finished (c.rsp 5))
  else match c.op with
    | 1 => k.runInsert c
    | 2 => k.runDelete c
    | 3 => k.runSearch c
    | 4 => k.runNext c
    | 5 => k.runFlush c
    | 6 => k.runSweepCtrl c
    | _ => (k, .finished (c.rsp 5))

/-- The staging registers of a die as a command (R265, R311). -/
def Core.catStage (k : Core) (d op tag : Nat) (deep wide static noReplace inclStatic ue : Bool) : CatCmd :=
  let ws (f : Fld) : Nat := (List.range 8).foldr (fun j n => k.rd f (dw d) 0 j + 2 ^ 32 * n) 0
  let w (f : Fld) : Nat := if wide then ws f else ws f % 2 ^ 128
  ⟨d, op, tag, deep, wide, static, noReplace, inclStatic, w R.CAT_CMD_KEY, w R.CAT_CMD_KMASK,
   k.rd64 R.CAT_CMD_DATA_LO R.CAT_CMD_DATA_HI (dw d) 0 0, k.rd64 R.CAT_CMD_DMASK_LO R.CAT_CMD_DMASK_HI (dw d) 0 0,
   k.rd R.CAT_CMD_CURSOR (dw d) 0 0, false, [], false, 0, ue, [], 0, []⟩

end Sys2Proof.Machine
end

