-- ==== Sys2Proof/Machine/CatCmds.lean ====
section
/-!
DEFINITION. The Catalogue command engine with its deep commands (R265 to R272, R294), the prefix commands (R298 to R300)
and the filter table's commands (R304, R305).
-/
namespace Sys2Proof.Machine

/-! ### Deep commands (R294) -/

/-- The candidate lines of a key (R291). -/
def Core.deepLines (k : Core) (d key : Nat) : Nat × Nat :=
  let n := 2 ^ (k.rd R.CAT_DEEP_CFG_SIZE_LOG2 (dw d) 0 0 - 1)
  let a := crc32c (keyBytes false key) % n
  let b := crc32cInit (k.rd R.CAT_DEEP_CFG_SEED (dw d) 0 0 * 0x10001) (keyBytes false key) % n
  (a, if b = a then a ^^^ 1 else b)

/-- Half `h` of a line: a 32-byte entry (R290). -/
def halfOf (line h : Nat) : Nat := line / 2 ^ (256 * h) % 2 ^ 256

/-- A line with half `h` replaced. -/
def setHalf (line h e : Nat) : Nat := line - halfOf line h * 2 ^ (256 * h) + e * 2 ^ (256 * h)

/-- An entry's words: key, data, valid (R290). -/
def deepEntry (key data : Nat) : Nat := key + data * 2 ^ 128 + 2 ^ 192

/-- The entry is valid and holds the key. -/
def deepIs (e key : Nat) : Bool := bit e 192 == 1 && e % 2 ^ 128 == key

/-- The four places of a key, as (line, half). -/
def Core.deepPlaces (k : Core) (d key : Nat) : List (Nat × Nat) :=
  let l := k.deepLines d key
  [(l.1, 0), (l.1, 1), (l.2, 0), (l.2, 1)]

/-- The entry at a place of region 1 of the lines store. -/
def Core.deepAt (k : Core) (lines : SMap) (pl : Nat × Nat) : Nat := halfOf (lines.get (k.lineKey 1 pl.1)) pl.2

/-- The lines store with a place overwritten. -/
def Core.deepSet (k : Core) (lines : SMap) (pl : Nat × Nat) (e : Nat) : SMap :=
  lines.set (k.lineKey 1 pl.1) (setHalf (lines.get (k.lineKey 1 pl.1)) pl.2 e)

/-- Free a place by a chain of at most `n` copy-then-clear moves (R294). -/
def Core.deepRoom (k : Core) (d : Nat) : Nat → SMap → Nat × Nat → Option SMap
  | 0, lines, pl => if bit (k.deepAt lines pl) 192 = 0 then some lines else none
  | n + 1, lines, pl =>
    let e := k.deepAt lines pl
    if bit e 192 = 0 then some lines
    else
      let ps := (k.deepPlaces d (e % 2 ^ 128)).filter (·.1 != pl.1)
      match ps.find? fun q => bit (k.deepAt lines q) 192 == 0 with
      | some q => some (k.deepSet (k.deepSet lines q e) pl 0)
      | none => ps.findSome? fun q => (k.deepRoom d n lines q).map fun ls => k.deepSet (k.deepSet ls q e) pl 0

/-- Run a deep command (R294, R616): REFUSED off the lowest unfenced die or without the memory, UE on a poisoned line
that it does not rewrite. -/
def Core.runDeep (k : Core) (c : CatCmd) : Core × CatRsp :=
  let lowest := (k.dieList.find? fun d => !k.fenced d).getD 8
  if c.wide ∨ c.die ≠ lowest ∨ ¬ k.deepOn c.die ∨ c.op ∉ [1, 2, 3] then (k, c.rsp 5)
  else
    let ls := k.deepLines c.die c.key
    let (k1, _, p1) := (k.poisonPair ls c.poisoned).readLine 1 ls.1
    let (k2, _, p2) := k1.readLine 1 ls.2
    let k2 := if p1 ∨ p2 then k2.raise (dw c.die) 0x23 1 else k2
    let ps := k2.deepPlaces c.die c.key
    let found := ps.find? fun q => deepIs (k2.deepAt k2.cxl.lines q) c.key
    if (p1 ∨ p2) ∧ c.op ≠ 1 then (k2, c.rsp 7)
    else match c.op, found with
      | 3, some q => (k2, { c.rsp 0 with key := c.key, data := k2.deepAt k2.cxl.lines q / 2 ^ 128 % 2 ^ 64 })
      | 3, none => (k2, c.rsp 1)
      | 2, some q =>
        (k2.writeLine 1 q.1 (setHalf (k2.cxl.lines.get (k2.lineKey 1 q.1)) q.2 0), c.rsp 0)
      | 2, none => (k2, c.rsp 1)
      | _, some q =>
        if c.noReplace then (k2, c.rsp 3)
        else (k2.writeLine 1 q.1 (setHalf (k2.cxl.lines.get (k2.lineKey 1 q.1)) q.2 (deepEntry c.key c.data)), c.rsp 0)
      | _, none =>
        let place (ls : SMap) (q : Nat × Nat) (moves : Nat) : Core × CatRsp :=
          -- each move writes the copy and clears the place (R294)
          let kw := if moves = 0 then k2 else (k2.spend 1 (128 * moves)).regionWrote 1 (128 * moves)
          let k3 := { kw with cxl := { kw.cxl with lines := ls } }
          (k3.writeLine 1 q.1 (setHalf (ls.get (k3.lineKey 1 q.1)) q.2 (deepEntry c.key c.data)), c.rsp 0)
        match ps.find? fun q => bit (k2.deepAt k2.cxl.lines q) 192 == 0 with
        | some q => place k2.cxl.lines q 0
        | none =>
          match (List.range 8).findSome? fun n => ps.findSome? fun q =>
              (k2.deepRoom c.die (n + 1) k2.cxl.lines q).map fun ls => (ls, q, n + 1) with
          | some (ls, q, moves) => place ls q moves
          | none => (k2, c.rsp 2)

/-! ### The engine -/

/-- Run the head command of a die's queue when it may start: not started, the response FIFO has room (R267), and region 1's
bucket holds what a deep command reads (R613). -/
def Core.catStep (k : Core) (d : Nat) : Core :=
  match k.tables.cmds.find? (·.die == d) with
  | none => k
  | some c =>
    if c.started ∨ 16 ≤ k.tables.rsps.countP (·.die == d) then k
    else if c.deep ∧ k.deepOn d ∧ k.tokens 1 < 128 then k
    else
      let rest := { k.cesFound (dw d) c.ces with tables := { k.tables with cmds := k.tables.cmds.erase c } }
      if c.deep then
        let r := rest.runDeep c
        r.1.catRespond r.2
      else match rest.catRunOne c with
        | (k1, .finished r) => k1.catRespond r
        | (k1, .waits ds n) =>
          { k1 with tables := { k1.tables with
              cmds := { c with started := true, waiting := ds, removed := n } :: k1.tables.cmds } }

/-- Run queued commands in order until one waits, the FIFO is full or the queue is empty: at most 16 (R265). -/
def Core.catDrain (k : Core) (d : Nat) : Nat → Core
  | 0 => k
  | n + 1 => (k.catStep d).catDrain d n

/-- A write of CAT_CMD_OP (R265, R266): through the broadcast window it is discarded with ACC_ERR on page 0x021 of port
die 0; to a full queue it is discarded, counted and sets ACC_ERR; otherwise the command is queued and the engine runs. DESIGN
CHOICE: a command that has started and waits for other dies holds its place in the queue of 16 until its response is
posted. -/
def Core.catSubmit (k : Core) (m : Master) (c : CatCmd) (broadcast : Bool) : Core :=
  if broadcast then k.accErr 1 0x21 m 0x154
  else if 16 ≤ k.tables.cmds.countP (·.die == c.die) then
    ((k.bump R.CAT_CMD_STAT_OVF_CNT (dw c.die) 0 0 1).accErr (dw c.die) 0x21 m 0x154).raise (dw c.die) 0x21 1
  else ({ k with tables := { k.tables with cmds := k.tables.cmds ++ [c] } }).catDrain c.die 16

/-- The write of CAT_CMD_OP with an opcode on a die. -/
def catCommand (m : Master) (d op : Nat) (tag : Nat) (deep wide static noReplace inclStatic ue broadcast : Bool)
    (ces : List (Fin 4096 × Fin 8)) (s : State) (poisoned : Fin 4 := 0) : State :=
  s.writeVia m broadcast d 0x21 0x154 fun k =>
    k.catSubmit m { k.catStage d op tag deep wide static noReplace inclStatic ue with
      ces := ces, poisoned := poisoned.val } broadcast

/-- CAT_INSERT (R268). -/
def execCatInsert (m : Master) (d : Fin 8) (tag : Fin 256) (wide static noReplace broadcast : Bool) (s : State) :
    Host.Outcome State Fault Refusal :=
  done (catCommand m d 1 tag false wide static noReplace false false broadcast [] s)

/-- CAT_DELETE (R268). -/
def execCatDelete (m : Master) (d : Fin 8) (tag : Fin 256) (wide broadcast : Bool) (s : State) :
    Host.Outcome State Fault Refusal :=
  done (catCommand m d 2 tag false wide false false false false broadcast [] s)

/-- CAT_SEARCH (R268); `ue` says the entry it reads is uncorrectable, `ces` what correctable errors it meets. -/
def execCatSearch (m : Master) (d : Fin 8) (tag : Fin 256) (wide ue broadcast : Bool) (ces : List (Fin 4096 × Fin 8)) (s : State) :
    Host.Outcome State Fault Refusal :=
  done (catCommand m d 3 tag false wide false false false ue broadcast ces s)

/-- CAT_NEXT (R268, R271). -/
def execCatNext (m : Master) (d : Fin 8) (tag : Fin 256) (ue broadcast : Bool) (ces : List (Fin 4096 × Fin 8)) (s : State) :
    Host.Outcome State Fault Refusal :=
  done (catCommand m d 4 tag false true false false false ue broadcast ces s)

/-- CAT_FLUSH_BY_PORT (R268, R272). -/
def execCatFlushByPort (m : Master) (d : Fin 8) (tag : Fin 256) (inclStatic broadcast : Bool) (s : State) :
    Host.Outcome State Fault Refusal :=
  done (catCommand m d 5 tag false true false false inclStatic false broadcast [] s)

/-- A SWEEP_CTRL command with its action in CAT_CMD_DATA_LO (R268). -/
def sweepCtrl (m : Master) (d tag action : Nat) (broadcast : Bool) (s : State)
    (prevail : List (Fin 8 × Fin 262176) := []) : State :=
  s.writeVia m broadcast d 0x21 0x154 fun k =>
    k.catSubmit m { k.catStage d 6 tag false false false false false false with
      data := action, prevail := prevail } broadcast

/-- SWEEP_PAUSE: SWEEP_CTRL action 0 (R268). -/
def execSweepPause (m : Master) (d : Fin 8) (tag : Fin 256) (broadcast : Bool) (s : State) :
    Host.Outcome State Fault Refusal := done (sweepCtrl m d tag 0 broadcast s)

/-- SWEEP_RESUME: SWEEP_CTRL action 1 (R268). -/
def execSweepResume (m : Master) (d : Fin 8) (tag : Fin 256) (broadcast : Bool) (s : State) :
    Host.Outcome State Fault Refusal := done (sweepCtrl m d tag 1 broadcast s)

/-- SWEEP_START_NOW: SWEEP_CTRL action 2 (R268). `prevail`: die and slot of the entries whose hit bit a lookup or a touch
sets in the removal cycle itself (R289, R314). -/
def execSweepStartNow (m : Master) (d : Fin 8) (tag : Fin 256) (broadcast : Bool) (prevail : List (Fin 8 × Fin 262176))
    (s : State) : Host.Outcome State Fault Refusal := done (sweepCtrl m d tag 2 broadcast s prevail)

/-- CAT_DEEP_INSERT (R294). -/
def execCatDeepInsert (m : Master) (d : Fin 8) (tag : Fin 256) (noReplace broadcast : Bool) (poisoned : Fin 4) (s : State) :
    Host.Outcome State Fault Refusal :=
  done (catCommand m d 1 tag true false false noReplace false false broadcast [] s poisoned)

/-- CAT_DEEP_DELETE (R294). -/
def execCatDeepDelete (m : Master) (d : Fin 8) (tag : Fin 256) (broadcast : Bool) (poisoned : Fin 4) (s : State) :
    Host.Outcome State Fault Refusal :=
  done (catCommand m d 2 tag true false false false false false broadcast [] s poisoned)

/-- CAT_DEEP_SEARCH (R294). -/
def execCatDeepSearch (m : Master) (d : Fin 8) (tag : Fin 256) (broadcast : Bool) (poisoned : Fin 4) (s : State) :
    Host.Outcome State Fault Refusal :=
  done (catCommand m d 3 tag true false false false false false broadcast [] s poisoned)

/-- Every die the command waits for has applied or rejected the change (a die fenced meanwhile no longer counts). -/
def Core.catAnswered (k : Core) (c : CatCmd) : Bool := c.waiting.all k.fenced

/-- CAT_CMD_RESPONSE_POST (R269): the multi-die command at the head of die `d`'s queue posts its response once all dies
have applied or rejected the change, and the next commands run. -/
def Core.catPost (k : Core) (d : Nat) : Core :=
  match k.tables.cmds.find? (·.die == d) with
  | some c =>
    if c.started ∧ k.catAnswered c then
      (({ k with tables := { k.tables with cmds := k.tables.cmds.erase c } }).catRespond
        { c.rsp (if c.rejected then 6 else 0) with removed := c.removed }).catDrain d 16
    else k
  | none => k

/-- CAT_CMD_RESPONSE_POST. -/
def execCatCmdResponsePost (d : Fin 8) (s : State) : Host.Outcome State Fault Refusal :=
  done (s.onCore fun k => k.catPost d)

/-- CAT_RSP_POP (R311): discard the head response; the engine may start again (R267). -/
def execCatRspPop (m : Master) (d : Fin 8) (s : State) : Host.Outcome State Fault Refusal :=
  done (s.write m (dw d) 0x21 0x15C fun k =>
    match k.tables.rsps.find? (·.die == d.val) with
    | some r => ({ k with tables := { k.tables with rsps := k.tables.rsps.erase r } }).catDrain d 16
    | none => k)

/-- DEEP_CFG_WRITE (R295): SEED or SIZE_LOG2 under EN = 1 is discarded with ACC_ERR; a write that sets EN is discarded
with CFG_ERR when region 1 is not enabled or too small; a reserved SIZE_LOG2 keeps the field and sets CFG_ERR (R25).
Through the broadcast window it reaches every populated die. -/
def Core.deepCfg (k : Core) (m : Master) (d : Nat) (en : Bool) (seed size : Nat) : Core :=
  let w := dw d
  let on := k.rd R.CAT_DEEP_CFG_EN w 0 0 = 1
  let changes := seed ≠ k.rd R.CAT_DEEP_CFG_SEED w 0 0 ∨ size ≠ k.rd R.CAT_DEEP_CFG_SIZE_LOG2 w 0 0
  let bad := size < 10 ∨ 24 < size
  let sz := if bad then k.rd R.CAT_DEEP_CFG_SIZE_LOG2 w 0 0 else size
  if on ∧ en ∧ changes then k.accErr w 0x23 m 0x100
  else if en ∧ ¬ on ∧ (k.rd R.CXL_REG_EN 0 0 1 = 0 ∨ k.rd R.CXL_REG_SIZE 0 0 1 * 268435456 < 2 ^ sz * 32) then
    k.cfgErr w 0x23 m 0x100
  else
    let k1 := if on then k.wr R.CAT_DEEP_CFG_EN w 0 0 (b2n en)
      else ((k.wr R.CAT_DEEP_CFG_EN w 0 0 (b2n en)).wr R.CAT_DEEP_CFG_SEED w 0 0 seed).wr R.CAT_DEEP_CFG_SIZE_LOG2 w 0 0 sz
    let k1 := if en then k1 else { k1 with cxl := { k1.cxl with deepStuck := k1.cxl.deepStuck.filter (· != d) } }
    let k2 := if on ∧ changes then k1.accErr w 0x23 m 0x100 else k1
    if bad ∧ ¬ on then k2.cfgErr w 0x23 m 0x100 else k2

/-- DEEP_CFG_WRITE. -/
def execDeepCfgWrite (m : Master) (d : Fin 8) (broadcast en : Bool) (seed : Fin 65536) (size : Fin 32) (s : State) :
    Host.Outcome State Fault Refusal :=
  done (s.writeVia m broadcast d 0x23 0x100 fun k =>
    if broadcast then k.dieList.foldl (fun k x => k.deepCfg m x en seed size) k else k.deepCfg m d en seed size)

/-! ### Prefix commands (R298 to R300) -/

/-- The exact prefix of a die. -/
def Core.lpmFind (k : Core) (d : Nat) (v6 : Bool) (vrf addr len : Nat) : Option LpmEnt :=
  k.tables.lpm.find? fun e => e.die == d && e.v6 == v6 && e.vrf == vrf && e.len == len &&
    prefixMatch (if v6 then 128 else 32) addr e.addr len

/-- Units in use on a die (R296, LPM_OCC). -/
def Core.lpmUnits (k : Core) (d : Nat) : Nat :=
  k.tables.lpm.foldl (fun n e => if e.die = d then n + (if e.v6 then 3 else 1) else n) 0

/-- Post an LPM response and its event. -/
def Core.lpmRespond (k : Core) (r : LpmRsp) : Core :=
  ({ k with tables := { k.tables with lpmRsps := k.tables.lpmRsps ++ [r] } }).raise (dw r.die) 0x24 0

/-- Run one LPM command on a die (R296, R298, R300). -/
def Core.lpmRun (k : Core) (c : LpmCmd) : Core :=
  let d := c.die
  let rsp (st len data : Nat) : LpmRsp := ⟨d, c.tag, st, len, data⟩
  let badField := (if c.v6 then decide (128 < c.len) || decide (c.vrf ≠ 0) else decide (32 < c.len))
  if badField ∨ (¬ c.broadcast ∧ (c.op = 1 ∨ c.op = 2)) then k.lpmRespond (rsp 5 0 0)
  else match c.op with
    | 1 =>
      match k.lpmFind d c.v6 c.vrf c.addr c.len with
      | some e => ({ k with tables := { k.tables with
          lpm := k.tables.lpm.map fun x => if x = e then { x with data := c.data, ue := false } else x } }).lpmRespond
            (rsp 0 0 0)
      | none =>
        if k.lpmUnits d + (if c.v6 then 3 else 1) ≤ 196608 then
          let e : LpmEnt := ⟨d, c.v6, c.vrf, c.addr, c.len, c.data, false⟩
          ({ k with tables := { k.tables with lpm := k.tables.lpm ++ [e] } }).lpmRespond (rsp 0 0 0)
        else (k.lpmRespond (rsp 2 0 0)).raise (dw d) 0x24 2
    | 2 =>
      match k.lpmFind d c.v6 c.vrf c.addr c.len with
      | some e => ({ k with tables := { k.tables with lpm := k.tables.lpm.erase e } }).lpmRespond (rsp 0 0 0)
      | none => k.lpmRespond (rsp 1 0 0)
    | 3 =>
      match k.lpmFind d c.v6 c.vrf c.addr c.len with
      | some e => k.lpmRespond (rsp (if e.ue then 7 else 0) e.len e.data)
      | none => k.lpmRespond (rsp 1 0 0)
    | 4 =>
      match k.lpmBest d c.v6 c.vrf c.addr with
      | some e => k.lpmRespond (rsp (if e.ue then 7 else 0) e.len e.data)
      | none => k.lpmRespond (rsp 1 0 0)
    | _ => k.lpmRespond (rsp 5 0 0)

/-- Run a die's queued LPM commands in order while its response FIFO of 8 has room (R299, R300). -/
def Core.lpmDrain (k : Core) (d : Nat) : Nat → Core
  | 0 => k
  | n + 1 =>
    match k.tables.lpmCmds.find? (·.die == d) with
    | none => k
    | some c =>
      if 8 ≤ k.tables.lpmRsps.countP (·.die == d) then k
      else (({ k with tables := { k.tables with lpmCmds := k.tables.lpmCmds.erase c } }).lpmRun c).lpmDrain d n

/-- A die's LPM queue is full. -/
def Core.lpmFull (k : Core) (d : Nat) : Bool := decide (8 ≤ k.tables.lpmCmds.countP (·.die == d))

/-- The staging registers of die `d` as an LPM command. -/
def Core.lpmStage (k : Core) (d op tag len : Nat) (v6 broadcast : Bool) : LpmCmd :=
  let addr := (List.range 4).foldr (fun j n => k.rd R.LPM_CMD_ADDR (dw d) 0 j + 2 ^ 32 * n) 0
  ⟨d, op, tag, v6, len, k.rd R.LPM_CMD_VRF (dw d) 0 0, if v6 then addr else addr % 2 ^ 32,
   k.rd64 R.LPM_CMD_DATA_LO R.LPM_CMD_DATA_HI (dw d) 0 0, broadcast, k.time.now⟩

/-- Queue an LPM command on a die. -/
def Core.lpmHold (k : Core) (c : LpmCmd) : Core := { k with tables := { k.tables with lpmCmds := k.tables.lpmCmds ++ [c] } }

/-- Queue an LPM command on a die and run. -/
def Core.lpmQueue (k : Core) (c : LpmCmd) : Core := (k.lpmHold c).lpmDrain c.die 8

/-- The dies whose oldest LPM command has waited 5 µs run (R299). -/
def Core.lpmDue (k : Core) : Core :=
  k.dieList.foldl (fun k d => match k.tables.lpmCmds.find? (·.die == d) with
    | some c => if c.since + 5000 ≤ k.time.now then k.lpmDrain d 8 else k
    | none => k) k

/-- A write of LPM_CMD_OP (R299): through a die window to that die, or through the broadcast window to every populated
unfenced die or to none; full queues set ACC_ERR. A broadcast command is still in progress on the dies of `late` (R68): they
hold it, and run it before their next LPM command or response, or when 5 µs have passed. -/
def Core.lpmSubmit (k : Core) (m : Master) (d op tag len : Nat) (v6 broadcast : Bool) (late : Nat) : Core :=
  if broadcast then
    let dies := k.dieList.filter fun x => !k.fenced x
    let full := dies.filter k.lpmFull
    if full.isEmpty then dies.foldl (fun k x =>
        let c := k.lpmStage x op tag len v6 true
        if bit late x = 1 then k.lpmHold c else k.lpmQueue c) k
    else full.foldl (fun k x => k.accErr (dw x) 0x24 m 0x120) k
  else if k.lpmFull d then k.accErr (dw d) 0x24 m 0x120
  else k.lpmQueue (k.lpmStage d op tag len v6 false)

/-- The write of LPM_CMD_OP. -/
def lpmCommand (m : Master) (d op tag len : Nat) (v6 broadcast : Bool) (late : Nat) (s : State) : State :=
  s.writeVia m broadcast d 0x24 0x120 fun k => k.lpmSubmit m d op tag len v6 broadcast late

/-- LPM_INSERT (R298). -/
def execLpmInsert (m : Master) (d : Fin 8) (tag len : Fin 256) (v6 broadcast : Bool) (late : Fin 256) (s : State) :
    Host.Outcome State Fault Refusal := done (lpmCommand m d 1 tag len v6 broadcast late s)

/-- LPM_DELETE (R298). -/
def execLpmDelete (m : Master) (d : Fin 8) (tag len : Fin 256) (v6 broadcast : Bool) (late : Fin 256) (s : State) :
    Host.Outcome State Fault Refusal := done (lpmCommand m d 2 tag len v6 broadcast late s)

/-- LPM_SEARCH (R298). -/
def execLpmSearch (m : Master) (d : Fin 8) (tag len : Fin 256) (v6 broadcast : Bool) (late : Fin 256) (s : State) :
    Host.Outcome State Fault Refusal := done (lpmCommand m d 3 tag len v6 broadcast late s)

/-- LPM_LOOKUP_CMD (R298). -/
def execLpmLookupCmd (m : Master) (d : Fin 8) (tag len : Fin 256) (v6 broadcast : Bool) (late : Fin 256) (s : State) :
    Host.Outcome State Fault Refusal := done (lpmCommand m d 4 tag len v6 broadcast late s)

/-- LPM_RSP_POP (R300). -/
def execLpmRspPop (m : Master) (d : Fin 8) (s : State) : Host.Outcome State Fault Refusal :=
  done (s.write m (dw d) 0x24 0x128 fun k =>
    match k.tables.lpmRsps.find? (·.die == d.val) with
    | some r => ({ k with tables := { k.tables with lpmRsps := k.tables.lpmRsps.erase r } }).lpmDrain d 8
    | none => k)

/-! ### The filter table (R304, R305) -/

/-- The filter entry of a die at an index; an index never written holds an invalid entry of zeros. -/
def Core.fltGet (k : Core) (d i : Nat) : FltEnt :=
  (k.tables.flt.find? fun e => e.die == d && e.idx == i).getD ⟨d, i, 0, 0, 0, false, 0, 0⟩

/-- Put a filter entry. -/
def Core.fltPut (k : Core) (e : FltEnt) : Core :=
  { k with tables := { k.tables with
      flt := (k.tables.flt.filter fun x => !(x.die == e.die && x.idx == e.idx)) ++ [e] } }

/-- The staged value or mask (R304). -/
def Core.fltStaged (k : Core) (d : Nat) (f : Fld) : Nat :=
  (List.range 10).foldr (fun j n => k.rd f (dw d) 0 j + 2 ^ 32 * n) 0

/-- Write a filter entry on one die: with `commit` value, mask and action together, else action and VALID only. -/
def Core.fltWrite (k : Core) (d i action : Nat) (valid commit : Bool) : Core :=
  let e := k.fltGet d i
  if commit then
    let v := k.fltStaged d R.FLT_STAGE_VAL
    let mk := k.fltStaged d R.FLT_STAGE_MASK
    k.fltPut { e with value := v, mask := mk, rowValue := v, rowMask := mk, action := action, valid := valid }
  else k.fltPut { e with action := action, valid := valid }

/-- A filter write that reaches die `d`: discarded with ACC_ERR while the window of the die is busy (R97). -/
def Core.fltWindow (k : Core) (m : Master) (d i action : Nat) (valid commit : Bool) : Core :=
  if k.indBusy (dw d) 0x27 then k.accErr (dw d) 0x27 m 0x204 else k.fltWrite d i action valid commit

/-- The shadow of a filter entry is uncorrectable (R305): the entry loses VALID and is logged. -/
def Core.fltShadowUe (k : Core) (d i : Nat) : Core :=
  let k1 := ((k.fltPut { k.fltGet d i with valid := false }).bump R.FLT_UE_CNT (dw d) 0 0 1).ueFound (dw d) 7
  let k2 := if k.rd R.FLT_UE_LOG_VALID (dw d) 0 0 = 0 then
      (k1.wr R.FLT_UE_LOG_INDEX (dw d) 0 0 i).wr R.FLT_UE_LOG_VALID (dw d) 0 0 1
    else k1
  k2.raise (dw d) 0x26 1

/-- FILTER_BG_COMPARE (R305): while FLT_BG_CFG.EN is 1 the pass compares row `i` of die `d`, found to hold `rowValue`
and `rowMask`, with its shadow, found correct, correctable or
uncorrectable. A differing row is rewritten and counted; with an
uncorrectable shadow the entry loses VALID and is logged. -/
def Core.fltCompare (k' : Core) (d i rowValue rowMask : Nat) (shadow : Ecc) : Core :=
  if k'.rd R.FLT_BG_CFG_EN (dw d) 0 0 = 0 then k'
  else
    let k := if shadow = .ce then k'.ceFound (dw d) 0x26 0 7 else k'
    let e := k.fltGet d i
    if shadow = .ue then k.fltShadowUe d i
    else if rowValue ≠ e.value ∨ rowMask ≠ e.mask then
      (((k.fltPut { e with rowValue := e.value, rowMask := e.mask }).bump R.FLT_BG_FIX_CNT (dw d) 0 0 1).ceFound
        (dw d) 0x26 0 7).raise (dw d) 0x26 0
    else k

/-- FILTER_BG_COMPARE. -/
def execFilterBgCompare (d : Fin 8) (i : Fin 16384) (rowValue rowMask : BitVec 320) (shadow : Ecc) (s : State) :
    Host.Outcome State Fault Refusal :=
  done (s.onCore fun k => k.fltCompare d i rowValue.toNat rowMask.toNat shadow)

end Sys2Proof.Machine
end

