-- ==== Sys2Proof/Machine/FocMath.lean ====
section
/-!
DEFINITION. The exact arithmetic of Focus (R458, R459, R469 to R472): element types, their decoding to exact multiples
of the accumulator's weight, combination, and the one rounding at the root.
-/
namespace Sys2Proof.Machine

/-- Element bytes of a type (R457, R458). -/
def elemSize (ty : Nat) : Nat := if ty = 0 ∨ ty = 2 then 4 else if ty = 1 then 8 else if ty = 3 ∨ ty = 4 then 2 else 1

/-- Accumulator bytes per element, A (R469). -/
def accSize (op ty : Nat) : Nat := if op ≠ 0 then elemSize ty else if ty = 2 ∨ ty = 3 then 40 else 12

/-- The type is an integer. -/
def isInt (ty : Nat) : Bool := ty == 0 || ty == 1

/-- Exponent bits of a floating-point type. -/
def expBits (ty : Nat) : Nat := if ty = 2 ∨ ty = 3 then 8 else if ty = 4 ∨ ty = 6 then 5 else 4

/-- Fraction bits. -/
def fracBits (ty : Nat) : Nat := if ty = 2 then 23 else if ty = 3 then 7 else if ty = 4 then 10 else if ty = 5 then 3 else 2

/-- How far the type's smallest subnormal lies above the weight of value bit 0: 16 for bf16, else 0 (R469). -/
def baseShift (ty : Nat) : Nat := if ty = 3 then 16 else 0

/-- The canonical NaN (R471). -/
def canonNan (ty : Nat) : Nat :=
  if ty = 2 then 0x7FC00000 else if ty = 3 then 0x7FC0 else if ty = 4 then 0x7E00 else if ty = 5 then 0x7F else 0x7E

/-- Magnitude bits of a pattern, and its sign. -/
def magOf (ty v : Nat) : Nat := v % 2 ^ (expBits ty + fracBits ty)

/-- The sign bit of a pattern. -/
def negOf (ty v : Nat) : Bool := bit v (expBits ty + fracBits ty) == 1

/-- The magnitude pattern of infinity; E4M3 has none, and its place holds the NaN. -/
def infMag (ty : Nat) : Nat :=
  if ty = 5 then 0x7F else (2 ^ expBits ty - 1) * 2 ^ fracBits ty

/-- The pattern is a NaN. -/
def isNan (ty v : Nat) : Bool := if ty = 5 then magOf ty v == 0x7F else decide (infMag ty < magOf ty v)

/-- The pattern is an infinity. -/
def isInf (ty v : Nat) : Bool := ty != 5 && magOf ty v == infMag ty

/-- The exact magnitude of a finite pattern, in weights of value bit 0 (R469). -/
def exactMag (ty v : Nat) : Nat :=
  let e := magOf ty v / 2 ^ fracBits ty
  let f := magOf ty v % 2 ^ fracBits ty
  (if e = 0 then f else (2 ^ fracBits ty + f) * 2 ^ (e - 1)) * 2 ^ baseShift ty

/-- A pattern of `n` bits as a signed integer. -/
def signedOf (n v : Nat) : Int := if v % 2 ^ n < 2 ^ (n - 1) then (v % 2 ^ n : Nat) else (v % 2 ^ n : Nat) - (2 : Int) ^ n

/-- The bit pattern of a signed integer. -/
def patternOf (n : Nat) (v : Int) : Nat := (v % (2 : Int) ^ n).toNat

/-- An element's SUM contribution to an accumulator (R470). -/
def sumAcc (ty v : Nat) : Acc :=
  if isInt ty then ⟨signedOf (8 * elemSize ty) v, 0⟩
  else if isNan ty v then ⟨0, 1⟩
  else if isInf ty v then ⟨0, if negOf ty v then 4 else 2⟩
  else
    let m : Int := exactMag ty v
    ⟨if negOf ty v then -m else m, if negOf ty v && m == 0 then 8 else 0⟩

/-- Two SUM accumulators together: values add, NAN, PINF and NINF combine by OR, ALLNZ by AND (R470, R473). -/
def addAcc (a b : Acc) : Acc := ⟨a.val + b.val, ((a.flags ||| b.flags) &&& 7) ||| (a.flags &&& b.flags &&& 8)⟩

/-- Value bits of a SUM accumulator (R469). -/
def valueBits (ty : Nat) : Nat := if ty = 2 ∨ ty = 3 then 316 else 92

/-- An accumulator as the bytes of its word (R469, R476): the value below, the flag bits at the top. DESIGN CHOICE (log 146):
the bytes are in little-endian order, as elements are under R458, and NAN is the lowest flag bit. -/
def accBytes (op ty : Nat) (a : Acc) : List Byte :=
  if op = 0 then leSeq (patternOf (valueBits ty) a.val + a.flags * 2 ^ valueBits ty) (accSize op ty)
  else leSeq a.val.toNat (elemSize ty)

/-- The accumulator of a word's bytes. -/
def accOfBytes (op ty : Nat) (b : List Byte) : Acc :=
  let v := leNat b
  if op = 0 then ⟨signedOf (valueBits ty) v, v / 2 ^ valueBits ty % 16⟩ else ⟨v, 0⟩

/-- The accumulators of `n` elements in the bytes of a partial. -/
def accsOfBytes (op ty n : Nat) (b : List Byte) : List Acc :=
  (List.range n).map fun i => accOfBytes op ty ((b.drop (i * accSize op ty)).take (accSize op ty))

/-- The order of MIN and MAX: signed integers; floating point by value with −0 below +0 (R472). -/
def orderKey (ty v : Nat) : Int :=
  if isInt ty then signedOf (8 * elemSize ty) v
  else if negOf ty v then -(magOf ty v : Int) - 1 else magOf ty v

/-- Two native accumulators together under MIN, MAX, AND or OR (R472). -/
def combineNative (op ty a b : Nat) : Nat :=
  match op with
  | 3 => a &&& b
  | 4 => a ||| b
  | _ =>
    if !isInt ty && (isNan ty a || isNan ty b) then canonNan ty
    else if op = 1 then (if orderKey ty a ≤ orderKey ty b then a else b)
    else (if orderKey ty a ≤ orderKey ty b then b else a)

/-- One element as an accumulator of its own. -/
def accOf (op ty v : Nat) : Acc := if op = 0 then sumAcc ty v else ⟨v, 0⟩

/-- Two accumulators together. -/
def combine (op ty : Nat) (a b : Acc) : Acc :=
  if op = 0 then addAcc a b else ⟨combineNative op ty a.val.toNat b.val.toNat, 0⟩

/-- Element-wise combination; the accumulators of a chunk that has none yet are the other's. -/
def combineAll (op ty : Nat) (a b : List Acc) : List Acc :=
  if a.isEmpty then b else List.zipWith (combine op ty) a b

/-- The elements of a payload, each little-endian (R458). -/
def elements (ty : Nat) (payload : List Byte) : List Nat :=
  let n := elemSize ty
  (List.range (payload.length / n)).map fun i =>
    (List.range n).foldr (fun j v => (payload.getD (i * n + j) 0).toNat + 256 * v) 0

/-- A magnitude rounded to nearest, ties to even, at `sh` bits. -/
def rne (n sh : Nat) : Nat :=
  let q := n / 2 ^ sh
  let r := n % 2 ^ sh
  if 2 ^ sh < 2 * r ∨ (2 * r = 2 ^ sh ∧ q % 2 = 1 ∧ sh ≠ 0) then q + 1 else q

/-- The magnitude pattern of a magnitude rounded to a type with gradual underflow, the exponent unbounded (R471). -/
def roundMag (ty n : Nat) : Nat :=
  let sh := max (baseShift ty) (Nat.log2 n - fracBits ty)
  (sh - baseShift ty) * 2 ^ fracBits ty + rne n sh

/-- RESULT flags of R457 as bits: integer saturation 8, overflow 4, NaN 2. -/
def flagSat : Nat := 8
/-- Overflow to infinity or NaN. -/
def flagOvf : Nat := 4
/-- NaN in the result. -/
def flagNan : Nat := 2

/-- The rounding of a SUM element (R471): its pattern and its RESULT flags. -/
def roundSum (ty : Nat) (fp8Sat : Bool) (a : Acc) : Nat × Nat :=
  if isInt ty then
    let n := 8 * elemSize ty
    let hi : Int := 2 ^ (n - 1) - 1
    let lo : Int := -(2 ^ (n - 1))
    if hi < a.val then (patternOf n hi, flagSat) else if a.val < lo then (patternOf n lo, flagSat) else (patternOf n a.val, 0)
  else
    let sign := 2 ^ (expBits ty + fracBits ty)
    if bit a.flags 0 = 1 ∨ (bit a.flags 1 = 1 ∧ bit a.flags 2 = 1) then (canonNan ty, flagNan)
    else if bit a.flags 1 = 1 then (infMag ty, 0)
    else if bit a.flags 2 = 1 then (sign + infMag ty, 0)
    else if a.val = 0 then (if bit a.flags 3 = 1 then sign else 0, 0)
    else
      let m := roundMag ty a.val.natAbs
      let s := if a.val < 0 then sign else 0
      if m < infMag ty then (s + m, 0)
      else if ty = 5 then (if fp8Sat then (s + 0x7E, 0) else (canonNan 5, flagOvf + flagNan))
      else (s + infMag ty, flagOvf)

/-- The result of one element (R471, R472). -/
def roundElem (op ty : Nat) (fp8Sat : Bool) (a : Acc) : Nat × Nat :=
  if op = 0 then roundSum ty fp8Sat a
  else
    let v := a.val.toNat
    if !isInt ty && (op == 1 || op == 2) && isNan ty v then (canonNan ty, flagNan) else (v, 0)

/-- The payload and flags of a RESULT. -/
def roundAll (op ty : Nat) (fp8Sat : Bool) (acc : List Acc) : List Byte × Nat :=
  let rs := acc.map (roundElem op ty fp8Sat)
  (rs.flatMap fun r => (List.range (elemSize ty)).map fun i => BitVec.ofNat 8 (r.1 / 2 ^ (8 * i)),
   rs.foldl (fun f r => f ||| r.2) 0)

/-! ### The Focus header (R457, R460, R462) -/

/-- A Focus header's fields. -/
structure FocHdr where
  version : Nat
  op : Nat
  ty : Nat
  ctx : Nat
  member : Nat
  seq : Nat
  count : Nat
  /-- The header check is right. -/
  good : Bool
  deriving DecidableEq, Repr

/-- The header check of 16 header bytes given as a number (R457). -/
def focCheck (h : Nat) : Nat :=
  crc32c ((toBe (h / 2 ^ 28 * 2 ^ 28) 16).map (·.toNat)) % 2 ^ 28

/-- The Focus header at a byte offset. -/
def focHdr (f : List Byte) (at' : Nat) : FocHdr :=
  let h := getBe f at' 16
  ⟨bits h 127 124, bits h 123 120, bits h 119 116, bits h 111 96, bits h 95 84, bits h 83 64, bits h 63 52 + 1,
   focCheck h == bits h 27 0⟩

/-- A Focus header for a RESULT or an ERROR: `last` is the element count field (R457). -/
def mkFocHdr (op ty flags ctx16 seq last : Nat) : List Byte :=
  let h := ((((((1 * 16 + op) * 16 + ty) * 16 + flags) * 65536 + ctx16) * 4096 + 0xFFF) * 2 ^ 20 + seq % 2 ^ 20) * 2 ^ 64
    + last * 2 ^ 52
  toBe (h + focCheck h) 16

/-- The payload of a contribution whose header stands at an offset: UDP length less 24 bytes after the header. -/
def focPayload (f : List Byte) (at' : Nat) : List Byte := (f.drop (at' + 16)).take (getBe f (at' - 8 + 4) 2 - 24)

/-- The header of a contribution passes the first checks of R466: check, version, op, type, R458, R459, R462. -/
def focValid (udpPort : Nat) (f : List Byte) (at' : Nat) : Bool :=
  let h := focHdr f at'
  let len := getBe f (at' - 8 + 4) 2
  decide (8 ≤ at') && decide (at' + 16 ≤ f.length) && getBe f (at' - 8 + 2) 2 == udpPort && h.good && h.version == 1 &&
    decide (h.op ≤ 4) && decide (h.ty ≤ 6) && (decide (h.op ≤ 2) || isInt h.ty) &&
    decide (24 ≤ len) && len - 24 == h.count * elemSize h.ty && decide (len - 24 ≤ 4096) &&
    decide (at' + 16 + (len - 24) + 4 ≤ f.length)

/-! ### Frames the part builds (R481, R771) -/

/-- A frame from a template whose last 8 bytes are a UDP header, with the bytes after it: IP and UDP lengths and
checksums fixed, FCS appended. -/
def buildUdp (tpl : List Byte) (v6 : Bool) (ipOfs : Nat) (rest : List Byte) : List Byte :=
  let u := tpl.length - 8
  let udpLen := 8 + rest.length
  let f0 := tpl ++ rest
  let f1 := putBytes (putBytes f0 (u + 4) (toBe udpLen 2)) (u + 6) (toBe 0 2)
  let f2 := if v6 then putBytes f1 (ipOfs + 4) (toBe (f1.length - ipOfs - 40) 2)
    else
      let g := putBytes (putBytes f1 (ipOfs + 2) (toBe (f1.length - ipOfs) 2)) (ipOfs + 10) (toBe 0 2)
      putBytes g (ipOfs + 10) (toBe (inetSum ((g.drop ipOfs).take (4 * ((tpl.getD ipOfs 0).toNat % 16)))) 2)
  let addrs := if v6 then (f2.drop (ipOfs + 8)).take 32 else (f2.drop (ipOfs + 12)).take 8
  let pseudo := addrs ++ (if v6 then toBe udpLen 4 ++ toBe 17 4 else toBe 17 2 ++ toBe udpLen 2)
  let sum := inetSum (pseudo ++ f2.drop u)
  withFcs (putBytes f2 (u + 6) (toBe (if sum = 0 then 65535 else sum) 2))

end Sys2Proof.Machine
end

