-- ==== Sys2Proof/Machine/FocOps.lean ====
section
/-!
DEFINITION. The Focus engine's shared operations (R453 to R490): contexts and members, the window, accumulators,
completion, failure and what a failure leaves to be sent.
-/
namespace Sys2Proof.Machine

/-! ### Contexts (R453 to R456, R461, R497) -/

/-- A field of a context slot on a die. -/
def Core.ctx (k : Core) (f : TFld) (d slot : Nat) : Nat := k.td f (dw d) 0 slot

/-- The slot is ACTIVE on the die. -/
def Core.ctxActive (k : Core) (d slot : Nat) : Bool := k.ctx T.FOC_CTX_STATE d slot == 1

/-- The context field a header of the slot's context carries: GEN, root and slot (R457). -/
def Core.ctxField (k : Core) (d slot : Nat) : Nat :=
  k.ctx T.FOC_CTX_GEN d slot * 4096 + k.ctx T.FOC_CTX_ROOT d slot * 512 + slot

/-- The dies of a context's set, from its root's entry. -/
def Core.ctxDies (k : Core) (root slot : Nat) : List Nat :=
  (List.range 8).filter fun x => bit (k.ctx T.FOC_CTX_DIESET root slot) x == 1

/-- The slot is ACTIVE on the die with the context and generation named. -/
def Core.ctxIs (k : Core) (d c gen : Nat) : Bool :=
  k.ctxActive d (c % 512) && k.ctx T.FOC_CTX_ROOT d (c % 512) == c / 512 && k.ctx T.FOC_CTX_GEN d (c % 512) == gen

/-- The window size W (R464). -/
def Core.ctxW (k : Core) (d slot : Nat) : Nat := 2 ^ k.ctx T.FOC_CTX_W_LOG2 d slot

/-- The distance of a chunk from the base (R464). -/
def Core.chunkDist (k : Core) (d slot seq : Nat) : Nat := (seq + 2 ^ 20 - k.ctx T.FOC_CTX_BASE d slot) % 2 ^ 20

/-- A chunk is ahead of the window. -/
def Core.ahead (k : Core) (d slot seq : Nat) : Bool :=
  decide (k.ctxW d slot ≤ k.chunkDist d slot seq) && decide (k.chunkDist d slot seq < 2 ^ 19)

/-- A chunk is in the window and not yet closed there. -/
def Core.inWindow (k : Core) (d slot seq : Nat) : Bool :=
  decide (k.chunkDist d slot seq < k.ctxW d slot) && !k.foc.closed.contains (d, slot, seq)

/-- The valid member entries of a slot on a die: (member, port). -/
def Core.members (k : Core) (d slot : Nat) : List (Nat × Nat) :=
  ((List.range (k.ctx T.FOC_CTX_MBR_COUNT d slot)).map (k.ctx T.FOC_CTX_MBR_BASE d slot + ·)).filterMap fun i =>
    if k.td T.FOC_MBR_VALID (dw d) 0 i = 1 then some (k.td T.FOC_MBR_MEMBER (dw d) 0 i, k.td T.FOC_MBR_PORT (dw d) 0 i)
    else none

/-- Log the first failure or poisoning of a die (FOC_EVT_LOG). -/
def Core.focLog (k : Core) (d code c : Nat) : Core :=
  if k.rd R.FOC_EVT_LOG_VALID (dw d) 0 0 = 1 then k
  else ((k.wr R.FOC_EVT_LOG_VALID (dw d) 0 0 1).wr R.FOC_EVT_LOG_CODE (dw d) 0 0 code).wr R.FOC_EVT_LOG_CTX (dw d) 0 0 c

/-! ### Failure (R487 to R490) -/

/-- What a frame of the context takes from its root's entry and template. -/
def Core.focInj (k : Core) (root slot : Nat) : FocInj :=
  let x (f : TFld) : Nat := k.ctx f root slot
  let bytes := k.td T.FOC_TPL_BYTES (dw root) 0 slot
  ⟨x T.FOC_CTX_TYPE, (List.range (x T.FOC_CTX_TPL_LEN)).map fun i => BitVec.ofNat 8 (bytes / 2 ^ (8 * i)),
   x T.FOC_CTX_TPL_V6 == 1, x T.FOC_CTX_IP_OFS, x T.FOC_CTX_PIPE, x T.FOC_CTX_RES_PG, x T.FOC_CTX_RES_TC,
   x T.FOC_CTX_RES_SRC_PORT⟩

/-- The open chunk of a slot on a die with a number. -/
def Core.chunkAt (k : Core) (d slot seq : Nat) : Option Chunk :=
  k.foc.chunks.find? fun x => x.die == d && x.slot == slot && x.seq == seq

/-- Replace a chunk. -/
def Core.putChunk (k : Core) (c : Chunk) : Core :=
  { k with foc := { k.foc with chunks := k.foc.chunks.map fun x =>
      if x.die = c.die ∧ x.slot = c.slot ∧ x.seq = c.seq then c else x } }

/-- The root's oldest open chunk, by distance from its base: of those that are not complete where there are any. -/
def Core.oldestOpen (k : Core) (root slot : Nat) : Option Chunk :=
  let mine := k.foc.chunks.filter fun x => x.die == root && x.slot == slot
  (if mine.all (·.complete) then mine else mine.filter (!·.complete)).foldl (fun best x =>
    match best with
    | none => some x
    | some b => if k.chunkDist root slot x.seq < k.chunkDist root slot b.seq then some x else some b) none

/-- A set of members as a bitmap. -/
def memberMap (ms : List Nat) : Nat := ms.eraseDups.foldl (fun n m => n + 2 ^ m) 0

/-- Members of a die whose contribution to a chunk its bitmap lacks. -/
def Core.focMissing (k : Core) (d slot seq : Nat) : List Nat :=
  let have' := match k.chunkAt d slot seq with
    | some x => x.members
    | none => []
  ((k.members d slot).map (·.1)).filter fun m => !have'.contains m

/-- What the root cannot confirm of a chunk (R488): its own missing members, every member of a die that is not done, and
members that are down. For code 1 the other dies are asked, so their members start unmarked. -/
def Core.unconfirmed (k : Core) (root slot seq : Nat) (ask : Bool) : List Nat :=
  let doneSet := match k.chunkAt root slot seq with
    | some x => x.doneDies
    | none => 0
  let others := ((k.ctxDies root slot).filter fun x => x != root && bit doneSet x == 0).flatMap fun x =>
    (k.members x slot).map (·.1)
  let down := (k.foc.down.filter (·.1 == root * 512 + slot)).map (·.2)
  k.focMissing root slot seq ++ (if ask then [] else others) ++ down

/-- Mark a context FAILED on a die, with its log and event (R487); a die on which it has already failed is left alone. A slot
that has just been poisoned (code 3) is no longer ACTIVE there. -/
def Core.markFailed (k : Core) (x c code : Nat) : Core :=
  let slot := c % 512
  if ¬ k.ctxActive x slot ∧ code ≠ 3 then k else
  let k1 := if k.ctxActive x slot then k.tw T.FOC_CTX_STATE (dw x) 0 slot 2 else k
  let k2 := if code = 1 then k1.tbump T.FOC_CSTAT_TIMEOUT (dw x) 0 slot 1 else k1
  (k2.focLog x code c).raise (dw x) 0x60 0

/-- Queue the ERROR of a context (R488). -/
def Core.focError (k : Core) (c code : Nat) : Core :=
  let root := c / 512
  let slot := c % 512
  let seq := match k.oldestOpen root slot with
    | some x => x.seq
    | none => k.ctx T.FOC_CTX_BASE root slot
  let asked := if code = 1 then (k.ctxDies root slot).filter fun x => x != root else []
  let gen := k.ctx T.FOC_CTX_GEN root slot
  let e : FocErr := ⟨root, c, gen, seq, code, memberMap (k.unconfirmed root slot seq (code == 1)), asked, k.time.now,
    k.focInj root slot⟩
  let asks := (asked.filter fun x => !k.fenced x).map fun x => (⟨.ask, root, x, c, seq, gen⟩ : FocMsg)
  { k with foc := { k.foc with errors := k.foc.errors ++ [e], msgs := k.foc.msgs ++ asks } }

/-- A context fails (R487, R489): one ERROR from the root, unless the root is fenced or the context has failed there before, and
FAILED on every die of the set that is not fenced. -/
def Core.focFail (k : Core) (c code : Nat) : Core :=
  let root := c / 512
  let slot := c % 512
  let dies := k.ctxDies root slot
  let k1 := if k.fenced root ∨ (code ≠ 3 ∧ ¬ k.ctxActive root slot) then k else k.focError c code
  dies.foldl (fun k x => if k.fenced x then k else k.markFailed x c code) k1

/-- A slot's stored state is uncorrectable on a die (R490): POISONED there; an ACTIVE context fails with code 3. -/
def Core.focPoison (k : Core) (d slot : Nat) : Core :=
  let c := k.ctx T.FOC_CTX_ROOT d slot * 512 + slot
  let active := k.ctxActive d slot
  let k1 := ((k.tw T.FOC_CTX_STATE (dw d) 0 slot 3).focLog d 3 c).raise (dw d) 0x60 1
  if active then k1.focFail c 3 else k1

/-! ### The context lookup and the wait condition (R461, R465) -/

/-- A Focus-context lookup. -/
def Core.focLookup (k : Core) (d key : Nat) (ue : Bool) : Core × Found :=
  let slot := key % 512
  let x (f : TFld) : Nat := k.ctx f d slot
  let k1 := if ue then (k.ueFound (dw d) 10).focPoison d slot else k
  if k1.ctx T.FOC_CTX_STATE d slot = 3 then (k1, { Found.miss with poisoned := true })
  else if k1.ctxActive d slot ∧ key % 2 ^ 32 = k1.ctxField d slot then
    (k1, ⟨[BitVec.ofNat 32 (x T.FOC_CTX_GEN * 2 ^ 28 + x T.FOC_CTX_OP * 2 ^ 24 + x T.FOC_CTX_TYPE * 2 ^ 20 + x T.FOC_CTX_MCG),
           BitVec.ofNat 32 (x T.FOC_CTX_BASE),
           BitVec.ofNat 32 (x T.FOC_CTX_MEMBERS * 2 ^ 16 + x T.FOC_CTX_DIESET), 0], true, false, false⟩)
  else (k1, .miss)

/-- The offset of the Focus header in a frame: the one recorded in the slot of container 59 that FOC_CFG names (R462). -/
def Core.focOffset (k : Core) (d : Nat) (vec : List Word) : Nat :=
  let s := k.rd R.FOC_CFG_HDR_SLOT (dw d) 0 0
  bits (vec.getD 59 0).toNat (8 * s + 7) (8 * s)

/-- The WAITSEL 0x02 condition (R465): false only for an ahead chunk of the ACTIVE context the operand names. -/
def Core.focAdmits (k : Core) (d : Nat) (vec : List Word) (frame : List Byte) (operand : Nat) : Bool :=
  let c := operand % 4096
  let slot := c % 512
  let h := focHdr frame (k.focOffset d vec)
  !(k.ctxActive d slot && k.ctx T.FOC_CTX_ROOT d slot == c / 512 && h.ctx == k.ctxField d slot && k.ahead d slot h.seq)

/-! ### Contributions, completion, closing (R466, R474, R479) -/

/-- The cells of a partial of `count` elements. -/
def Core.partialCells (k : Core) (d slot count : Nat) : Nat :=
  (count * accSize (k.ctx T.FOC_CTX_OP d slot) (k.ctx T.FOC_CTX_TYPE d slot) + 255) / 256

/-- The chunk is done on its root: its own local members are complete and every other die of the set is in the done-die
set (R479). -/
def Core.rootDone (k : Core) (root slot : Nat) (x : Chunk) : Bool :=
  (x.local' || (k.members root slot).isEmpty) && x.count != 0 &&
    ((k.ctxDies root slot).all fun z => z == root || bit x.doneDies z == 1)

/-- Mark a chunk complete at its root when it is. -/
def Core.checkDone (k : Core) (root slot seq : Nat) : Core :=
  match k.chunkAt root slot seq with
  | some x => if k.rootDone root slot x then k.putChunk { x with complete := true } else k
  | none => k

/-- Open a chunk on a die, or name the element count of one an open notice opened. -/
def Core.openChunk (k : Core) (d slot seq count : Nat) : Core :=
  match k.chunkAt d slot seq with
  | some x => if x.count = 0 then k.putChunk { x with count := count } else k
  | none => { k with foc := { k.foc with chunks := k.foc.chunks ++ [⟨d, slot, seq, count, [], [], false, 0, 0, false, false⟩] } }

/-- Start a chunk's timer at the root, once (R480). -/
def Core.startTimer (k : Core) (d slot seq : Nat) : Core :=
  match k.chunkAt d slot seq with
  | some x => if x.timer = 0 then k.putChunk { x with timer := k.time.now + 1 } else k
  | none => k

/-- Send a Focus message. -/
def Core.focSend (k : Core) (m : FocMsg) : Core := { k with foc := { k.foc with msgs := k.foc.msgs ++ [m] } }

/-- Combine a contribution's payload into its chunk's accumulators. -/
def Core.addContribution (k : Core) (d slot seq member : Nat) (payload : List Byte) : Core :=
  let op := k.ctx T.FOC_CTX_OP d slot
  let ty := k.ctx T.FOC_CTX_TYPE d slot
  match k.chunkAt d slot seq with
  | some x =>
    let vals := (elements ty payload).map (accOf op ty)
    k.putChunk { x with acc := if x.acc.isEmpty then vals else combineAll op ty x.acc vals, members := x.members ++ [member] }
  | none => k

/-- Local completion of a chunk (R474): a partial is due at a non-root die; the root marks its own share done. -/
def Core.localDone (k : Core) (d slot seq : Nat) : Core :=
  match k.chunkAt d slot seq with
  | some x =>
    if ((k.members d slot).all fun m => x.members.contains m.1) = false then k
    else
      let k1 := k.putChunk { x with local' := true }
      let root := k.ctx T.FOC_CTX_ROOT d slot
      if root = d then k1.checkDone d slot seq
      else { k1 with foc := { k1.foc with partials := k1.foc.partials ++
        [⟨d, root * 512 + slot, seq, k.ctx T.FOC_CTX_GEN d slot, k.partialCells d slot x.count, 0, 0, 0, false⟩] } }
  | none => k

/-- The engine reads an uncorrectable accumulator word of an open chunk (R487, R570 class 9). -/
def Core.accUe (k : Core) (d c : Nat) : Core := (k.ueFound (dw d) 9).focFail c 6

/-- Handle a contribution of die `d` (R466); its cells are released by the caller. `ue`: an accumulator word it is added to is
uncorrectable, and the context fails with code 6 (R487). -/
def Core.contribute (k : Core) (p : Contribution) (ue : Bool) : Core :=
  let d := p.die
  let w := dw d
  let slot := p.ctx % 512
  let h := focHdr p.frame p.at'
  let match' := h.ctx == k.ctxField d slot
  if k.rd R.FOC_CFG_EN w 0 0 = 0 then k
  else if p.bad ∨ ¬ focValid (k.rd R.FOC_CFG_UDP_PORT w 0 0) p.frame p.at' then k.bump R.FOC_BAD_HDR_CNT w 0 0 1
  else if ¬ k.ctxActive d slot ∨ k.ctx T.FOC_CTX_ROOT d slot ≠ p.ctx / 512 ∨ ¬ match' then
    if 2 ≤ k.ctx T.FOC_CTX_STATE d slot ∧ match' then k.tbump T.FOC_CSTAT_FAILDROP w 0 slot 1
    else k.bump R.FOC_NOCTX_CNT w 0 0 1
  else if h.op ≠ k.ctx T.FOC_CTX_OP d slot ∨ h.ty ≠ k.ctx T.FOC_CTX_TYPE d slot ∨
      k.ctx T.FOC_CTX_MAXE_M1 d slot + 1 < h.count then k.tbump T.FOC_CSTAT_SHAPE w 0 slot 1
  else if ¬ (k.members d slot).contains (h.member, p.port) then k.bump R.FOC_NOTMEMBER_CNT w 0 0 1
  else if 2 ^ 19 ≤ k.chunkDist d slot h.seq then k.tbump T.FOC_CSTAT_LATE w 0 slot 1
  else if k.ahead d slot h.seq then k.bump R.FOC_AHEAD_DROP_CNT w 0 0 1
  else if ¬ k.inWindow d slot h.seq then k.tbump T.FOC_CSTAT_LATE w 0 slot 1
  else
    let old := k.chunkAt d slot h.seq
    let dup := match old with
      | some x => x.members.contains h.member
      | none => false
    let shape := match old with
      | some x => x.count != 0 && x.count != h.count
      | none => false
    let fresh := match old with
      | some x => x.members.isEmpty
      | none => true
    if dup then k.tbump T.FOC_CSTAT_DUP w 0 slot 1
    else if shape then k.tbump T.FOC_CSTAT_SHAPE w 0 slot 1
    else if ue && !fresh then k.accUe d (k.ctx T.FOC_CTX_ROOT d slot * 512 + slot)
    else
      let root := k.ctx T.FOC_CTX_ROOT d slot
      let k1 := k.openChunk d slot h.seq h.count
      let k2 := if root = d then k1.startTimer d slot h.seq
        else if fresh then k1.focSend ⟨.openNotice, d, root, root * 512 + slot, h.seq, k.ctx T.FOC_CTX_GEN d slot⟩
        else k1
      let k3 := (k2.addContribution d slot h.seq h.member (focPayload p.frame p.at')).tbump T.FOC_CSTAT_CONTRIB w 0 slot 1
      (k3.count w 6 0 0 1).localDone d slot h.seq

/-- Advance a slot's base over the chunks already closed (R464, R479). -/
def Core.advanceBase (k : Core) (d slot : Nat) : Nat → Core
  | 0 => k
  | n + 1 =>
    let b := k.ctx T.FOC_CTX_BASE d slot
    if k.foc.closed.contains (d, slot, b) then
      ({ (k.tw T.FOC_CTX_BASE (dw d) 0 slot ((b + 1) % 2 ^ 20)) with foc := { k.foc with
          closed := k.foc.closed.erase (d, slot, b) } }).advanceBase d slot n
    else k

/-- Close a chunk on a die: its slot is free and the base advances over closed chunks. -/
def Core.closeChunk (k : Core) (d slot seq : Nat) : Core :=
  let foc := { k.foc with
    chunks := k.foc.chunks.filter fun x => !(x.die == d && x.slot == slot && x.seq == seq)
    partials := k.foc.partials.filter fun x => !(x.src == d && x.ctx % 512 == slot && x.seq == seq)
    closed := k.foc.closed ++ [(d, slot, seq)] }
  ({ k with foc := foc }).advanceBase d slot 16

/-! ### Reservation and the end of a context (R483, R485) -/

/-- Accumulator lines a context reserves on each die (R483). -/
def Core.ctxLines (k : Core) (root slot : Nat) : Nat :=
  2 ^ k.ctx T.FOC_CTX_W_LOG2 root slot *
    (((k.ctx T.FOC_CTX_MAXE_M1 root slot + 1) * accSize (k.ctx T.FOC_CTX_OP root slot) (k.ctx T.FOC_CTX_TYPE root slot) +
      63) / 64)

/-- A cell carries a partial of a context. -/
def PCell.isPartialOf (c : Nat) (x : PCell) : Bool :=
  match x.body with
  | .partial' ctx _ _ _ _ _ _ => ctx == c
  | .copy _ => false

/-- A partial cell of the context is in flight or landed and not yet taken. -/
def Core.partialsInFlight (k : Core) (c : Nat) : Bool :=
  ((k.xbar.flight ++ k.xbar.retained).any fun p => p.cells.any (·.isPartialOf c)) || (k.foc.landed.any fun x => x.2.2.isPartialOf c)

/-- Free the reservation of an IDLE slot once no partial cell of it is in flight. -/
def Core.freeLines (k : Core) (c : Nat) : Core :=
  let slot := c % 512
  if k.partialsInFlight c then k
  else k.dieList.foldl (fun k x =>
    let n := k.ctx T.FOC_CTX_RES_LINES x slot
    if n ≠ 0 ∧ k.ctx T.FOC_CTX_STATE x slot = 0 ∧ k.ctx T.FOC_CTX_ROOT x slot = c / 512 then
      (k.tw T.FOC_CTX_RES_LINES (dw x) 0 slot 0).wr R.FOC_ACC_STAT_FREE_LINES (dw x) 0 0
        (k.rd R.FOC_ACC_STAT_FREE_LINES (dw x) 0 0 + n)
    else k) k

/-- Free the reservations of the contexts that some cells, now gone, carried partials of. -/
def Core.freeLinesOf (k : Core) (cells : List PCell) : Core :=
  ((cells.filterMap fun x => match x.body with
    | .partial' ctx _ _ _ _ _ _ => some ctx
    | .copy _ => none).eraseDups).foldl Core.freeLines k

/-- Cells that a gathered partial held are added or discarded: their landing credit returns (R353, R475). -/
def Core.gatherCredit (k : Core) (x : Gather) : Core := if x.bad then k else k.creditBack x.port x.next

/-- Forget everything a context holds: chunks, partials, gathered cells with their landing credit, messages, marks. -/
def Core.forgetCtx (k' : Core) (c : Nat) (dies : List Nat) : Core :=
  let slot := c % 512
  let k := (k'.foc.gather.filter (·.ctx == c)).foldl Core.gatherCredit k'
  { k with foc := { k.foc with
    chunks := k.foc.chunks.filter fun x => !(x.slot == slot && dies.contains x.die)
    closed := k.foc.closed.filter fun x => !(x.2.1 == slot && dies.contains x.1)
    partials := k.foc.partials.filter fun x => x.ctx != c
    gather := k.foc.gather.filter (·.ctx != c)
    msgs := k.foc.msgs.filter fun x => x.ctx != c || x.kind == .ask
    down := k.foc.down.filter fun x => x.1 != c
    failLater := k.foc.failLater.filter (· != c) } }

/-- A down-hold of a port expires (R370, R487, R499): contexts with a member on it fail with code 2, after a RESULT that
is due. -/
def Core.focPortDown (k : Core) (g : Nat) : Core :=
  let d := g / 256
  (List.range 512).foldl (fun k slot =>
    let ms := (k.members d slot).filter (·.2 == g)
    if ¬ k.fenced d ∧ k.ctxActive d slot ∧ ¬ ms.isEmpty then
      let root := k.ctx T.FOC_CTX_ROOT d slot
      let c := root * 512 + slot
      let k1 := { k with foc := { k.foc with down := k.foc.down ++ ms.map fun (m : Nat × Nat) => (c, m.1) } }
      if k.foc.chunks.any fun x => x.die == root && x.slot == slot && x.complete then
        { k1 with foc := { k1.foc with failLater := k1.foc.failLater ++ [c] } }
      else k1.focFail c 2
    else k) k

end Sys2Proof.Machine
end

