-- ==== Sys2Proof/Machine/TimeOps.lean ====
section
/-!
DEFINITION. The sidereal time base (R392 to R410, R443 to R447): the flow of time, the references and their states, the
cycle and its boundaries, steps, and the swaps of ephemeris banks that take effect at a boundary.
-/
namespace Sys2Proof.Machine

/-- The STB page. -/
def stbPage : Nat := 0x70

/-- Change the time base. -/
def Core.onTime (k : Core) (f : Time → Time) : Core := { k with time := f k.time }

/-! ### The flow of time (R393, R406) -/

/-- How much of a slew one nanosecond removes, at most `ppm` millionths: the change and the source after it. -/
def slewStep (ppm : Nat) (s : TimeSrc) : Int × TimeSrc :=
  let room := s.slewRem + 65536 * ppm
  let most := room / 1000000
  let move : Int := if 0 ≤ s.slew then min s.slew most else max s.slew (-most)
  (move, { s with slew := s.slew - move, slewRem := if s.slew = 0 then 0 else room % 1000000 })

/-- The frequency correction in force, in 2^-16 ppb (R393, R396, R401): none in free run, the DPLL's in PPS mode, and
STB_FREQ_ADJ in PTP mode. -/
def Core.freqAdj (k : Core) : Int :=
  match k.rd R.STB_CFG_TOD_SRC 0 0 0 with
  | 0 => 0
  | 1 => k.time.todSrc.rate
  | _ => signed (k.rd R.STB_FREQ_ADJ 0 0 0)

/-- The tracked mains period in 2^-16 ns, 0 before the first edge. -/
def Core.mainsPeriod (k : Core) : Nat := k.time.cycSrc.rate.toNat

/-- θ after `n` more of time: whole periods drop out (R395). -/
def Core.thetaAfter (k : Core) (n : Nat) : Nat :=
  if k.mainsPeriod = 0 then k.time.theta + n else (k.time.theta + n) % k.mainsPeriod

/-- The clock when `flow` of follower time has elapsed. -/
def Time.nowAt (t : Time) (flow : Nat) : Nat := t.now + (flow / 65536 - t.flow / 65536)

/-- Follower time advances by `n` in 2^-16 ns, free of slews: the clock is brought to an instant a command stands for. -/
def Core.pass (k : Core) (n : Nat) : Core :=
  k.onTime fun t => { t with
    now := t.nowAt (t.flow + n), tod := t.tod + n, flow := t.flow + n, elapsed := t.elapsed + n, theta := k.thetaAfter n }

/-- The time base one nanosecond of the reference clock on (R393): time of day and the cycle advance at the corrected rate, slews included.
The phase stays below its wrap, which is CYCLE_BOUNDARY. DESIGN CHOICE (R41, R128, log 124): the follower of every die reads this
one time base, whatever its SYNC bit; the spec bounds its distance by 2 ns and gives no value. -/
def Core.tick (k : Core) : Core :=
  let t := k.time
  let ppm := k.rd R.STB_CFG_SLEW_PPM 0 0 0
  let acc := t.todRem + k.freqAdj
  let (m1, s1) := slewStep ppm t.todSrc
  let (m2, s2) := slewStep ppm t.cycSrc
  let adv : Int := 65536 + acc / 1000000000
  let flow := (t.flow + adv + m1).toNat
  { k with time := { t with
      now := t.nowAt flow
      tod := (t.tod + adv + m1).toNat
      todRem := acc % 1000000000
      flow := flow
      theta := k.thetaAfter adv.toNat
      todSrc := s1
      cycSrc := s2
      elapsed := (t.elapsed + adv + m2 + (if k.rd R.STB_CFG_CYC_SRC 0 0 0 = 0 then m1 else 0)).toNat } }

/-- One nanosecond of the reference clock: the time base goes on, codewords left open fill up with idles, and LPM commands that
have waited their time run. -/
def Core.nanosecond (k : Core) : Core := k.tick.fillTails.lpmDue

/-! ### Source states (R400, R401, R403) -/

/-- The states of R400 as STB_STATUS encodes them. -/
inductive SrcState where
  | free
  | acquiring
  | locked
  | holdover
  deriving DecidableEq, Repr

/-- The code of a state (R445). -/
def SrcState.code : SrcState → Nat
  | .free => 0
  | .acquiring => 1
  | .locked => 2
  | .holdover => 3

/-- The state field of the source of time of day or of the cycle. -/
def stateFld (cyc : Bool) : Fld := if cyc then R.STB_STATUS_CYC_STATE else R.STB_STATUS_TOD_STATE

/-- One source enters a state: entry to HOLDOVER counts and raises its reference-lost event, entry to LOCKED raises its
locked event (R400, R401). -/
def Core.enterOne (k : Core) (cyc : Bool) (st : SrcState) : Core :=
  let old := k.rd (stateFld cyc) 0 0 0
  let k1 := k.wr (stateFld cyc) 0 0 0 st.code
  if old = st.code then k1
  else match st with
    | .holdover => (k1.bump R.STB_HOLD_CNT 0 0 0 1).raise 0 stbPage (if cyc then 1 else 0)
    | .locked => k1.raise 0 stbPage (if cyc then 3 else 2)
    | _ => k1

/-- A source enters a state; while CYC_SRC is 0 the cycle follows time of day (R400). -/
def Core.enter (k : Core) (cyc : Bool) (st : SrcState) : Core :=
  let k1 := k.enterOne cyc st
  if ¬ cyc ∧ k.rd R.STB_CFG_CYC_SRC 0 0 0 = 0 then k1.enterOne true st else k1

/-- The source whose counts a reference drives. -/
def Core.src (k : Core) (cyc : Bool) : TimeSrc := if cyc then k.time.cycSrc else k.time.todSrc

/-- Replace a source's counts. -/
def Core.setSrc (k : Core) (cyc : Bool) (s : TimeSrc) : Core :=
  k.onTime fun t => if cyc then { t with cycSrc := s } else { t with todSrc := s }

/-- The mean of the values kept over the last 10 s of lock, or the last value (R401). -/
def TimeSrc.mean (s : TimeSrc) : Int :=
  if s.hist.isEmpty then s.rate else (s.hist.foldl (fun n h => n + h.2) 0) / (s.hist.length : Int)

/-- Entry to HOLDOVER freezes the frequency at that mean, except that a PTP source keeps its last adjustment (R401,
R402). -/
def Core.holdover (k : Core) (cyc : Bool) : Core :=
  let s := k.src cyc
  (k.setSrc cyc { s with rate := s.mean, good := 0 }).enter cyc .holdover

/-- An expected edge is missing; the second in a row is a loss (R400). The ten periods of STB_MAINS_FREQ begin anew, and it
reads 0 (R404). -/
def Core.missEdge (k : Core) (cyc : Bool) : Core :=
  let s := k.src cyc
  let k1 := k.setSrc cyc { s with missed := s.missed + 1, good := 0, gone := s.gone + 1 }
  let st := k.rd (stateFld cyc) 0 0 0
  let k2 := if cyc then (k1.onTime fun t => { t with periods := [] }).wr R.STB_MAINS_FREQ_MHZ 0 0 0 0 else k1
  if 2 ≤ s.missed + 1 ∧ (st = 1 ∨ st = 2) then k2.holdover cyc else k2

/-- An edge drives its source's state (R400, R403): `within` says its phase error is within the lock limit; a PTP
update has no limit and locks at the first update in ACQUIRING. -/
def Core.goodEdge (k : Core) (cyc within ptp : Bool) : Core :=
  let s := k.src cyc
  let st := k.rd (stateFld cyc) 0 0 0
  if st = 1 then
    let n := if within then s.good + 1 else 0
    if ptp ∨ n = 8 then (k.setSrc cyc { s with missed := 0, good := 0 }).enter cyc .locked
    else k.setSrc cyc { s with missed := 0, good := n }
  else if st = 3 then
    if s.good + 1 = 4 then (k.setSrc cyc { s with missed := 0, good := 0 }).enter cyc .acquiring
    else k.setSrc cyc { s with missed := 0, good := s.good + 1 }
  else k.setSrc cyc { s with missed := 0 }

/-- Keep a value of the last 10 s of lock. -/
def TimeSrc.note (s : TimeSrc) (now : Nat) (v : Int) (locked : Bool) : TimeSrc :=
  { s with rate := v
           hist := if locked then (now, v) :: s.hist.filter (fun h => decide (now ≤ h.1 + 10000000000)) else s.hist }

/-- The source extrapolates on its frozen frequency: it is in HOLDOVER and the present edge does not end that (R401). -/
def Core.holds (k : Core) (cyc : Bool) : Bool := k.rd (stateFld cyc) 0 0 0 == 3 && (k.src cyc).good + 1 != 4

/-- The present edge takes the source out of HOLDOVER and RELOCK has it realigned, or it waits for that already (R403). -/
def Core.realigns (k : Core) (cyc : Bool) : Bool :=
  (k.src cyc).relock || (k.rd (stateFld cyc) 0 0 0 == 3 && k.rd R.STB_CFG_RELOCK 0 0 0 == 1)

/-! ### The cycle (R394, R395, R405) -/

/-- The cycles the mains period is divided into. -/
def Core.cycDiv (k : Core) : Nat := max 1 (k.rd R.STB_CYC_DIV_D 0 0 0)

/-- The nominal length of a cycle in 2^-16 ns, a fraction cut off (R395). -/
def Core.cycleUnits (k : Core) : Nat :=
  if k.rd R.STB_CFG_CYC_SRC 0 0 0 = 0 then k.rd R.STB_CYC_LEN_LEN_NS 0 0 0 * 65536
  else if k.time.cycSrc.rate ≤ 0 then k.time.span
  else k.mainsPeriod / k.cycDiv

/-- The length of the next cycle and the remainder after it: D cycles together last the mains period exactly (R395, R402). -/
def Core.nextCycle (k : Core) : Nat × Nat :=
  if k.rd R.STB_CFG_CYC_SRC 0 0 0 = 0 ∨ k.time.cycSrc.rate ≤ 0 then (k.cycleUnits, 0)
  else
    let n := k.mainsPeriod + k.time.carry
    (n / k.cycDiv, n % k.cycDiv)

/-- The part of a nominal cycle that lies between a boundary of R395 and now, (x × 2^32 − OFS) mod 2^32 of a cycle in 2^-16 ns:
x counts from time of day, or D cycles to the mains period from θ. A slew of the phase that is not yet done stands between the
two (R406). -/
def Core.latticePos (k : Core) : Nat :=
  let len := max 1 k.cycleUnits
  let x := if k.rd R.STB_CFG_CYC_SRC 0 0 0 = 0 then k.time.tod else k.time.theta
  (((x : Int) - len * k.time.ofs / 2 ^ 32 - k.time.cycSrc.slew) % len).toNat

/-- The length of a re-formed cycle that began `late` ago: to the first boundary of R395 that lies at least 0.5 cycle after
its beginning (R405). -/
def Core.reformSpan (k : Core) (late : Nat) : Nat :=
  let len := max 1 k.cycleUnits
  let pos := (k.latticePos + len - late % len) % len
  if len ≤ 2 * (len - pos) then len - pos else 2 * len - pos

/-- Swaps that take effect with cycle `c`: the banks exchange roles and the swap-done event is raised (R417, R447). -/
def Core.applySwap (k : Core) (s : EphSwap) : Core :=
  let w := dw s.die
  let k1 := k.tw T.EPH_PORT_ACTIVE w s.pipe s.l (1 - k.td T.EPH_PORT_ACTIVE w s.pipe s.l)
  let k2 := ((k1.tw T.EPH_PORT_COUNT w s.pipe s.l s.count).tw T.EPH_PORT_SWAP_STATE w s.pipe s.l 2).raise w
    (0x50 + s.pipe) 0
  if k.egr.swapLast.get (s.die * 8 + s.pipe) = s.seq then k2.wr R.EPH_SWAP_STAT_STATE w s.pipe 0 2 else k2

/-- The ports' gates at a boundary: EN as written comes into force (R413), and due swaps are applied (R417). -/
def Core.boundaryGates (k : Core) (cycle : Nat) : Core :=
  let due := k.egr.swapPend.filter (·.at' == cycle)
  let k1 := due.foldl Core.applySwap { k with egr := { k.egr with swapPend := k.egr.swapPend.filter (·.at' != cycle) } }
  { k1 with egr := { k1.egr with gated :=
      (k1.dieList.flatMap fun d => (List.range 256).map fun l => (d, l)).foldl (fun m x =>
        if k1.td T.EPH_PORT_EN (dw x.1) (x.2 / 32) (x.2 % 32) = 1 then m.set (x.1 * 256 + x.2) 1 else m) k1.egr.gated } }

/-- RWD writes of a page come into force (R78); held ones wait (R82). -/
def Core.applyRwd (k : Core) (win page : Nat) : Core :=
  let due := k.io.rwd.filter fun r => r.win == win && r.page == page && !r.held
  let rest := k.io.rwd.filter fun r => !(r.win == win && r.page == page && !r.held)
  let io1 := due.foldl (fun (io : Io) r => { io with regs := io.regs.setField r.key r.width r.rst r.value })
    { k.io with rwd := rest }
  let waits := b2n (rest.any fun r => r.win == win && r.page == page)
  { k with io := io1.wr R.PAGE_STATUS_RWD_PENDING win page 0 waits }

/-- A boundary comes before its time has passed: the clock is brought to it. -/
def Core.toBoundary (k : Core) : Core := k.pass (k.time.span - k.time.elapsed)

/-- The clock at a boundary (R394, R405, R406, R445): phase wraps to 0, the cycle number rises by 1, RWD writes of the STB page
come into force, a pending step and a realignment are added to time of day, and the length of the cycle that begins is set. -/
def Core.boundaryClock (k' : Core) : Core :=
  let k := k'.toBoundary
  let late := k.time.elapsed - k.time.span
  let tods := k.rd R.STB_CFG_CYC_SRC 0 0 0 = 0
  let k1 := k.applyRwd 0 stbPage
  let ofs := k1.rd R.STB_CYC_OFS 0 0 0
  let moved := ofs ≠ k.time.ofs
  let slews := moved ∧ k1.rd R.STB_CFG_RELOCK 0 0 0 = 0
  let k2 := match k1.time.step with
    | some n => ((k1.onTime fun t => { t with tod := (t.tod + n * 65536).toNat, step := none }).wr
        R.STB_STATUS_STEP_PENDING 0 0 0 0).raise 0 stbPage 5
    | none => k1
  let stepped := k1.time.step.isSome ∧ tods
  let shift := (BitVec.ofNat 32 ofs - BitVec.ofNat 32 k.time.ofs).toInt
  let k3 := k2.onTime fun t => { t with
    tod := (t.tod + t.jump).toNat
    jump := 0
    ofs := ofs
    todSrc := { t.todSrc with relock := false }
    cycSrc := { t.cycSrc with
      relock := false
      slew := if slews then t.cycSrc.slew - shift * k2.cycleUnits / 2 ^ 32 else t.cycSrc.slew } }
  let again := stepped ∨ k.time.reform ∨ (moved ∧ ¬ slews) ∨
    (tods ∧ k3.rd R.STB_CYC_LEN_LEN_NS 0 0 0 ≠ k.rd R.STB_CYC_LEN_LEN_NS 0 0 0) ∨
    (¬ tods ∧ k3.rd R.STB_CYC_DIV_D 0 0 0 ≠ k.rd R.STB_CYC_DIV_D 0 0 0)
  let (span, carry) := if again then (k3.reformSpan late, 0) else k3.nextCycle
  k3.onTime fun t => { t with
    cycle := (t.cycle + 1) % 2 ^ 64, elapsed := late, span := max 1 span, carry := carry, reform := false }

/-- CYCLE_BOUNDARY (R394, R405, R417, R445): the clock passes the boundary, and due swaps and gate enables take effect. -/
def Core.cycleBoundary (k : Core) : Core :=
  let k1 := k.boundaryClock
  k1.boundaryGates k1.time.cycle

/-- CYCLE_BOUNDARY. -/
def execCycleBoundary (s : State) : Host.Outcome State Fault Refusal := done (s.onCore Core.cycleBoundary)

/-! ### References -/

/-- The error of the phase at a mains edge in 2^-16 ns: θ is whole, so φ should be −OFS mod 2^32 of some cycle (R395). -/
def Core.mainsErr (k : Core) : Int :=
  let off : Int := signed (k.time.phase + k.time.ofs)
  off * k.time.span / 2 ^ 32

/-- The time and the phase error of a qualified mains edge, and its event of class 11 (R445, R755). -/
def Core.mainsNote (k : Core) : Core :=
  let words := timeWords k.time.tod
  (((List.range 4).foldl (fun k i => k.wr R.STB_MAINS_TS 0 0 i (words.getD i 0)) k).wr R.STB_CYC_PHASE_ERR 0 0 0
    (pattern (k.mainsErr / 65536))).count 0 11 0 0 1

/-- The first mains edge after a selection realigns at once: θ is 0, and the phase stands where R395 has it there (R403). -/
def Core.mainsFresh (k : Core) : Core :=
  let len := max 1 k.cycleUnits
  k.onTime fun t => { t with theta := 0, span := len, carry := 0, elapsed := len * ((2 ^ 32 - t.ofs) % 2 ^ 32) / 2 ^ 32 }

/-- A mains edge that counts disciplines the cycle with the tracked period after it (R395, R401, R403, R406): the first edge in
ACQUIRING after a selection realigns at once, also where HOLDOVER came between the two. -/
def Core.mainsSteer (k : Core) (tracked : Nat) : Core :=
  let s := k.time.cycSrc
  let err := k.mainsErr
  if k.holds true then k
  else
    let st := k.rd R.STB_STATUS_CYC_STATE 0 0 0
    let s1 := { s.note k.time.now (tracked * 65536) (st == 2) with fresh := s.fresh && st == 3 }
    if s.fresh ∧ st ≠ 3 then (k.setSrc true { s1 with slew := 0 }).mainsFresh
    else if k.realigns true then
      (k.setSrc true { s1 with slew := 0, relock := true }).onTime fun t => { t with theta := 0, reform := true }
    else (k.setSrc true { s1 with slew := -err }).onTime fun t => { t with theta := 0 }

/-- MAINS_EDGE (R397, R400, R403, R404, R445): a rising edge that held its level for 100 µs (`held`); `tracked` is the DPLL's
tracked mains period in ns after it. An edge outside 45 to 65 Hz is discarded, counts as a missing edge and raises the
mains-out-of-range event. The last qualified edge is recorded whatever the source of the cycle. -/
def Core.mainsEdge (k : Core) (held : Bool) (tracked : Nat) : Core :=
  if ¬ held then k
  else
    let s := k.time.cycSrc
    let used := k.rd R.STB_CFG_CYC_SRC 0 0 0 ≠ 0
    let gap := k.time.now + 1 - s.last
    let k0 := k.onTime fun t => { t with cycSrc := { s with last := t.now + 1 } }
    if s.last ≠ 0 ∧ (gap * 65 < 1000000000 ∨ 1000000000 < gap * 45) then
      (if used then k0.missEdge true else k0).raise 0 stbPage 4
    else
      let err := k.mainsErr
      let k1 := k0.mainsNote
      if ¬ used then k1
      else
        let ps := if s.last = 0 then k.time.periods else (gap :: k.time.periods).take 10
        let k2 := ((k1.mainsSteer tracked).onTime fun t => { t with periods := ps }).wr R.STB_MAINS_FREQ_MHZ 0 0 0
          (if ps.length = 10 then 10000000000000 / max 1 (ps.foldl (· + ·) 0) else 0)
        k2.goodEdge true (decide (err.natAbs ≤ k.rd R.STB_LOCK_CFG_CYC_LOCK_US 0 0 0 * 65536000)) false

/-- MAINS_EDGE. -/
def execMainsEdge (held : Bool) (tracked : BitVec 32) (s : State) : Host.Outcome State Fault Refusal :=
  done (s.onCore fun k => (k.mainsEdge held tracked.toNat).onTime fun t => { t with mainsEdge := t.now + 1 })

/-- The level of a reference input (R693): high at the instant of a rising edge, else the board's, a free value fresh at each read. -/
def Core.pinLevel (k : Core) (edge j : Nat) : Nat :=
  if edge = k.time.now + 1 then 1 else Config.freeValue (k.time.draws + j) % 2

/-- The corrected time of a PPS edge now, in 2^-16 ns (R398). -/
def Core.ppsTime (k : Core) : Int := k.time.tod - signed (k.rd R.STB_PPS_COMP 0 0 0) * 65536

/-- The distance of a time from the nearest whole second. -/
def secErr (t : Int) : Int := (t + secUnits / 2) % secUnits - secUnits / 2

/-- The time and the phase error of a PPS edge, and its event of class 11 (R445, R755). -/
def Core.ppsNote (k : Core) : Core :=
  let words := timeWords k.ppsTime.toNat
  (((List.range 4).foldl (fun k i => k.wr R.STB_PPS_TS 0 0 i (words.getD i 0)) k).wr R.STB_PHASE_ERR 0 0 0
    (pattern (secErr k.ppsTime / 65536))).count 0 11 1 0 1

/-- A PPS edge disciplines time of day with the DPLL's correction after it (R401, R403, R406): the first in ACQUIRING
after a selection rounds time of day to the nearest whole second at once; one that ends a HOLDOVER with RELOCK 1 leaves that to the next
boundary; any other has its error slewed away. -/
def Core.ppsSteer (k : Core) (rate : Int) : Core :=
  let s := k.time.todSrc
  let err := secErr k.ppsTime
  let tods := k.rd R.STB_CFG_CYC_SRC 0 0 0 = 0
  let st := k.rd R.STB_STATUS_TOD_STATE 0 0 0
  if k.holds false then k.setSrc false { s with last := k.time.now + 1, gone := 0 }
  else
    let s1 := { s.note k.time.now rate (st == 2) with
      last := k.time.now + 1, gone := 0, fresh := s.fresh && st == 3 }
    if s.fresh ∧ st ≠ 3 then
      (k.setSrc false { s1 with slew := 0, relock := false }).onTime fun t => { t with
        tod := (t.tod - err).toNat, jump := 0, reform := t.reform || decide tods }
    else if k.realigns false then
      (k.setSrc false { s1 with slew := 0, relock := true }).onTime fun t => { t with
        jump := -err, reform := t.reform || decide tods }
    else k.setSrc false { s1 with slew := -err }

/-- How late a PPS edge now stands after the `n`-th second since the last one, in ns; the window is ± 1 µs (R398). -/
def Core.ppsLate (k : Core) (n : Nat) : Int := (k.time.now : Int) + 1 - k.time.todSrc.last - n * 1000000000

/-- An edge outside its window: the edge of that window is missing, unless MISSING_EDGE has counted it, and this one begins a new
run of consecutive edges (R398, R400). -/
def Core.ppsStray (k : Core) (rate : Int) (within : Bool) : Core :=
  let k1 := if k.time.todSrc.gone = 0 then k.missEdge false else k
  let st := k1.rd R.STB_STATUS_TOD_STATE 0 0 0
  (k1.setSrc false { k1.time.todSrc with good := b2n (st = 3 || (st = 1 && within)) }).ppsSteer rate

/-- PPS_EDGE (R398, R400, R403, R445): `rate` is the DPLL's frequency correction after it, in 2^-16 ppb. Its time and phase
error are recorded whatever the source of time of day. An edge outside the window of 1 s ± 1 µs after the last one, or after
as many seconds as windows have gone by since, leaves an edge missing. -/
def Core.ppsEdge (k : Core) (rate : Int) : Core :=
  let k1 := k.ppsNote
  if k.rd R.STB_CFG_TOD_SRC 0 0 0 ≠ 1 then k1
  else
    let s := k.time.todSrc
    let inWin := decide (s.last = 0) || decide ((k.ppsLate (s.gone + 1)).natAbs ≤ 1000)
    let within := decide ((secErr k.ppsTime).natAbs ≤ k.rd R.STB_LOCK_CFG_TOD_LOCK_NS 0 0 0 * 65536)
    if inWin then (k1.ppsSteer rate).goodEdge false within false
    else k1.ppsStray rate within

/-- PPS_EDGE. -/
def execPpsEdge (rate : BitVec 32) (s : State) : Host.Outcome State Fault Refusal :=
  done (s.onCore fun k => (k.ppsEdge rate.toInt).onTime fun t => { t with ppsEdge := t.now + 1 })

/-- TEN_MHZ_LOSS (R398): in PPS mode, loss at once. -/
def Core.tenMhzLoss (k : Core) : Core :=
  let st := k.rd R.STB_STATUS_TOD_STATE 0 0 0
  if k.rd R.STB_CFG_TOD_SRC 0 0 0 = 1 ∧ (st = 1 ∨ st = 2) then k.holdover false else k

/-- TEN_MHZ_LOSS. -/
def execTenMhzLoss (s : State) : Host.Outcome State Fault Refusal := done (s.onCore Core.tenMhzLoss)

/-- A PTP update (R399): a reference edge of time of day in PTP mode. -/
def Core.ptpEdge (k : Core) : Core :=
  if k.rd R.STB_CFG_TOD_SRC 0 0 0 = 2 then
    (k.setSrc false { k.time.todSrc with last := k.time.now + 1, gone := 0 }).goodEdge false true true
  else k

/-- FREQ_ADJ_WRITE (R399, R445): a write of STB_FREQ_ADJ. -/
def execFreqAdjWrite (m : Master) (v : Word) (s : State) : Host.Outcome State Fault Refusal :=
  done (s.write m 0 stbPage 0x160 fun k =>
    ((k.wr R.STB_FREQ_ADJ 0 0 0 v.toNat).onTime fun t => { t with
      todSrc := if k.rd R.STB_CFG_TOD_SRC 0 0 0 = 2 then { t.todSrc with rate := v.toInt } else t.todSrc }).ptpEdge)

/-- STEP_GO (R399, R405): the step in STB_STEP_SEC and STB_STEP_NS waits for the next boundary; a new one replaces it. -/
def execStepGo (m : Master) (s : State) : Host.Outcome State Fault Refusal :=
  done (s.write m 0 stbPage 0x16C fun k =>
    ((k.onTime fun t => { t with
        step := some (signed (k.rd R.STB_STEP_SEC 0 0 0) * 1000000000 + signed (k.rd R.STB_STEP_NS 0 0 0)) }).wr
      R.STB_STATUS_STEP_PENDING 0 0 0 1).ptpEdge)


/-- The next window of an expected PPS edge, or the next STB_SERVO.INTERVAL_MS for an update, has gone by since the last one
(R398, R399). -/
def Core.overdue (k : Core) (servo : Bool) : Bool :=
  let s := k.time.todSrc
  if servo then decide ((s.gone + 1) * k.rd R.STB_SERVO_INTERVAL_MS 0 0 0 * 1000000 ≤ k.time.now + 1 - s.last)
  else s.last == 0 || decide (1000 < k.ppsLate (s.gone + 1))

/-- MISSING_EDGE (R398 to R400): an expected edge of a selected reference, or a servo update, has not come; a missing
update also raises its event (R445 bit 6). -/
def Core.missing (k : Core) (r : Reference) : Core :=
  match r with
  | .mains => if k.rd R.STB_CFG_CYC_SRC 0 0 0 = 1 then k.missEdge true else k
  | .pps => if k.rd R.STB_CFG_TOD_SRC 0 0 0 = 1 ∧ k.overdue false then k.missEdge false else k
  | .servo =>
    if k.rd R.STB_CFG_TOD_SRC 0 0 0 = 2 ∧ k.overdue true then (k.missEdge false).raise 0 stbPage 6 else k

/-- MISSING_EDGE. -/
def execMissingEdge (r : Reference) (s : State) : Host.Outcome State Fault Refusal :=
  done (s.onCore fun k => k.missing r)

/-- SOURCE_SELECT (R400, R445): a write of TOD_SRC and CYC_SRC; a changed selection moves its source to FREE or
ACQUIRING; TOD_SRC 3 is reserved. -/
def Core.sourceSelect (k : Core) (m : Master) (tod : Nat) (mains : Bool) : Core :=
  let oldT := k.rd R.STB_CFG_TOD_SRC 0 0 0
  let oldC := k.rd R.STB_CFG_CYC_SRC 0 0 0
  let newT := if tod = 3 then oldT else tod
  let k1 := if tod = 3 then k.cfgErr 0 stbPage m 0x100 else k
  let k2 := (k1.wr R.STB_CFG_TOD_SRC 0 0 0 newT).wr R.STB_CFG_CYC_SRC 0 0 0 (b2n mains)
  let fresh (s : TimeSrc) (last : Nat) : TimeSrc :=
    { s with missed := 0, good := 0, gone := 0, fresh := true, last := last, relock := false, hist := [], slew := 0, slewRem := 0 }
  let k3 := if newT ≠ oldT then
      ((k2.setSrc false (fresh k2.time.todSrc (if newT = 2 then k.time.now + 1 else 0))).onTime fun t => { t with jump := 0 }).enter
        false (if newT = 0 then .free else .acquiring)
    else k2
  if b2n mains = oldC then k3
  else
    let k4 := (k3.setSrc true (fresh k3.time.cycSrc 0)).onTime fun t => { t with reform := true, periods := [] }
    if mains then k4.enterOne true .acquiring
    else
      let follow : SrcState := match k4.rd R.STB_STATUS_TOD_STATE 0 0 0 with
        | 0 => .free
        | 1 => .acquiring
        | 2 => .locked
        | _ => .holdover
      (k4.enterOne true follow).wr R.STB_MAINS_FREQ_MHZ 0 0 0 0

/-- SOURCE_SELECT. -/
def execSourceSelect (m : Master) (tod : Fin 4) (mains : Bool) (s : State) : Host.Outcome State Fault Refusal :=
  done (s.write m 0 stbPage 0x100 fun k => k.sourceSelect m tod mains)

/-! ### Followers and egress timestamps (R407, R409, R446) -/

/-- FOLLOWER_SYNC_LOSS (R446): SYNC falls and the loss-of-SYNC event is raised. -/
def execFollowerSyncLoss (d : Fin 8) (s : State) : Host.Outcome State Fault Refusal :=
  done (s.onCore fun k => (k.wr R.STB_FOL_STATUS_SYNC (dw d) 0 0 0).raise (dw d) 0x5C 1)

/-- FOLLOWER_SYNC_REGAIN (R446): SYNC returns to 1. -/
def execFollowerSyncRegain (d : Fin 8) (s : State) : Host.Outcome State Fault Refusal :=
  done (s.onCore fun k => k.wr R.STB_FOL_STATUS_SYNC (dw d) 0 0 1)

/-- Show the head of a die's egress-timestamp FIFO in its registers (R446). -/
def Core.etsShow (k : Core) (d : Nat) : Core :=
  let mine := k.egr.ets.filter (·.die == d)
  let k1 := k.wr R.STB_ETS_STAT_COUNT (dw d) 0 0 mine.length
  let (port, tag, words) := match mine.head? with
    | some e => (e.port, e.tag, timeWords e.time)
    | none => (0, 0, [])
  let k2 := (k1.wr R.STB_ETS_HDR_PORT (dw d) 0 0 port).wr R.STB_ETS_HDR_TAG (dw d) 0 0 tag
  (List.range 4).foldl (fun k i => k.wr R.STB_ETS_TS (dw d) 0 i (words.getD i 0)) k2

/-- Capture an egress timestamp (R409): with EN and the frame's flag set; a full FIFO of 256 discards and counts. -/
def Core.etsCapture (k : Core) (d l flags tag start : Nat) : Core :=
  if k.rd R.STB_ETS_CFG_EN (dw d) 0 0 = 0 ∨ bit flags (k.rd R.STB_ETS_CFG_FLAG (dw d) 0 0) = 0 then k
  else if 256 ≤ k.egr.ets.countP (·.die == d) then
    (k.bump R.STB_ETS_STAT_OVF_CNT (dw d) 0 0 1).raise (dw d) 0x5C 0
  else
    let at' : Int := start + signed (k.td T.STB_COMP_TX_COMP (dw d) 0 l)
    let e : Ets := ⟨d, d * 256 + l, tag % 65536, at'.toNat⟩
    ({ k with egr := { k.egr with ets := k.egr.ets ++ [e] } }).etsShow d

/-- ETS_POP (R446): discard the head entry. -/
def execEtsPop (m : Master) (d : Fin 8) (s : State) : Host.Outcome State Fault Refusal :=
  done (s.write m (dw d) 0x5C 0x10C fun k =>
    match k.egr.ets.find? (·.die == d.val) with
    | some e => ({ k with egr := { k.egr with ets := k.egr.ets.erase e } }).etsShow d
    | none => k)

end Sys2Proof.Machine
end

