-- ==== Sys2Proof/Machine/SchedOps.lean ====
section
/-!
DEFINITION. Egress service of a port (R411 to R442): ephemeris gates, deficit round robin, shapers, ramp groups, and
policing on stream contexts.
-/
namespace Sys2Proof.Machine

/-! ### Gates (R411 to R419) -/

/-- Entry `i` of a bank of a port: START and MASK (R447). -/
def Core.ephEntry (k : Core) (d p l bank i : Nat) : Nat × Nat :=
  let e := l * 512 + bank * 256 + i
  (k.td T.EPH_LIST_START (dw d) p e, k.td T.EPH_LIST_MASK (dw d) p e)

/-- The list a bank of `count` entries holds; none for a bank that holds no list (R411). -/
def Core.ephBank (k : Core) (d p l bank count : Nat) : Option (List (Nat × Nat)) :=
  if count = 0 then none else some ((List.range count).map (k.ephEntry d p l bank))

/-- The list in force in the cycle that lies `n` cycles ahead, or none when every gate is open then (R411, R413, R415,
R417). -/
def Core.ephAt (k : Core) (d l n : Nat) : Option (List (Nat × Nat)) :=
  let p := l / 32
  let i := l % 32
  let w := dw d
  let on := if n = 0 then k.egr.gated.get (d * 256 + l) = 1 else k.td T.EPH_PORT_EN w p i = 1
  if ¬ on then none
  else
    let act := k.td T.EPH_PORT_ACTIVE w p i
    let due := k.egr.swapPend.find? fun s => s.die == d && s.pipe == p && s.l == i && decide (0 < n) &&
      decide ((s.at' + 2 ^ 64 - k.time.cycle) % 2 ^ 64 ≤ n)
    match due with
    | some s => k.ephBank d p i (1 - act) s.count
    | none => k.ephBank d p i act (k.td T.EPH_PORT_COUNT w p i)

/-- How far gate `q` stays open from phase `from'` of a list: the phase at which it closes, or 2^32 (R411). A list whose
first START lies above the phase has no entry in force there; every gate is then closed. -/
def openUntil (es : List (Nat × Nat)) (q from' : Nat) : Nat :=
  let before := es.filter fun e => decide (e.1 ≤ from')
  match before.getLast? with
  | none => from'
  | some c =>
    if bit c.2 q = 0 then from'
    else
      match (es.filter fun e => decide (from' < e.1)).find? fun e => bit e.2 q == 0 with
      | some e => e.1
      | none => 2 ^ 32

/-- The length of the cycle `n` ahead in 2^-16 ns: the next one as its boundary would set it now, with the step, the
realignment and the new length or divider that wait for it (R405), and nominal ones after it. -/
def Core.spanAt (k : Core) (n : Nat) : Nat :=
  if n = 0 then k.time.span else if n = 1 then k.boundaryClock.time.span else k.boundaryClock.cycleUnits

/-- Gate `q` of a port stays open from phase `from'` of the cycle `n` ahead for `need`, in 2^-16 ns; the interval is
followed into later cycles (R415). `fuel` bounds how many. -/
def Core.openFor (k : Core) (d l q : Nat) : Nat → Nat → Nat → Nat → Bool
  | 0, _, _, need => need == 0
  | fuel + 1, n, from', need =>
    let span := k.spanAt n
    match k.ephAt d l n with
    | none =>
      let rest := (2 ^ 32 - from') * span / 2 ^ 32
      if need ≤ rest then true else k.openFor d l q fuel (n + 1) 0 (need - rest)
    | some es =>
      let till := openUntil es q from'
      let rest := (till - from') * span / 2 ^ 32
      if need ≤ rest then decide (from' < till)
      else if till < 2 ^ 32 then false
      else k.openFor d l q fuel (n + 1) 0 (need - rest)

/-- The time a frame of `len` bytes takes on the port, in 2^-16 ns (R415). -/
def Core.frameUnits (k : Core) (d l len : Nat) : Nat := (len + 20) * 8 * 65536 / max 1 (k.portGbps d l)

/-- The gate test of R415 for a frame of queue `q`. Frames longer than 4,096 cycles are followed no further. -/
def Core.gateAllows (k : Core) (d l q len : Nat) : Bool :=
  k.openFor d l q 4096 0 k.time.phase (k.frameUnits d l len)

/-- The MTU of a port. -/
def Core.mtu (k : Core) (d l : Nat) : Nat := k.td T.PRT_PORT_MTU (dw d) (l / 8) (l % 8)

/-- The longest open interval of a queue in a list of one cycle, joined across its end, in phase units; 2^33 stands for
always open (R416). -/
def longestOpen (es : List (Nat × Nat)) (q : Nat) : Nat :=
  let ends := (es.drop 1).map (·.1) ++ [2 ^ 32]
  let segs := (es.zip ends).map fun x => (bit x.1.2 q, x.2 - x.1.1)
  if segs.all (·.1 == 1) then 2 ^ 33
  else ((segs ++ segs).foldl (fun (r : Nat × Nat) s =>
    if s.1 = 1 then (r.1 + s.2, max r.2 (r.1 + s.2)) else (0, r.2)) (0, 0)).2

/-- The verdict of the validation of R416 on a swap request: a reason and a detail, or the cycle it becomes pending
for. -/
inductive SwapVerdict where
  | refused (reason detail : Nat)
  | accepted (cycle : Nat)
  deriving DecidableEq, Repr

/-- Validate a swap request (R416): the first reason that applies. -/
def Core.validate (k : Core) (s : EphSwap) : SwapVerdict :=
  let l := 32 * s.pipe + s.l
  let shadow := 1 - k.td T.EPH_PORT_ACTIVE (dw s.die) s.pipe s.l
  let es := (List.range s.count).map (k.ephEntry s.die s.pipe s.l shadow)
  let len := if k.rd R.STB_CFG_CYC_SRC 0 0 0 = 0 then k.cycleUnits else k.cycleUnits * 99 / 100
  let c := k.time.cycle
  let dist := (s.at' + 2 ^ 32 - c % 2 ^ 32) % 2 ^ 32
  if s.count = 0 ∨ 256 < s.count then .refused 1 0
  else if (es.headD (0, 0)).1 ≠ 0 then .refused 2 0
  else match (List.range (s.count - 1)).find? fun i =>
      decide ((es.getD (i + 1) (0, 0)).1 ≤ (es.getD i (0, 0)).1) with
    | some i => .refused 3 (i + 1)
    | none =>
      match (List.range 16).find? fun q =>
          k.td T.BUF_Q_MIN (dw s.die) 0 (l * 16 + q) != 0 && longestOpen es q != 2 ^ 33 &&
            decide (longestOpen es q * len / 2 ^ 32 < k.frameUnits s.die l (k.mtu s.die l)) with
      | some q => .refused 4 q
      | none =>
        if s.at' ≠ 0 ∧ (dist = 0 ∨ 2 ^ 31 ≤ dist) then .refused 5 0
        else if k.egr.swapPend.any fun x => x.die == s.die && x.pipe == s.pipe && x.l == s.l then .refused 6 0
        else .accepted ((c + (if s.at' = 0 then 1 else dist)) % 2 ^ 64)

/-- EPH_SWAP_GO (R416, R447): GO asks for a swap of the shadow bank of the port EPH_SWAP_SEL names; STATE reads pending
and REASON 0 until the validation refuses it. -/
def Core.swapGo (k : Core) (d p count : Nat) : Core :=
  let l := k.rd R.EPH_SWAP_SEL_PORT (dw d) p 0
  let n := k.egr.swapLast.get (d * 8 + p) + 1
  let k1 := (((k.wr R.EPH_SWAP_STAT_STATE (dw d) p 0 1).wr R.EPH_SWAP_STAT_REASON (dw d) p 0 0).wr
    R.EPH_SWAP_STAT_DETAIL (dw d) p 0 0).tw T.EPH_PORT_SWAP_STATE (dw d) p l 1
  { k1 with egr := { k1.egr with
      swapReq := k1.egr.swapReq ++ [⟨d, p, l, count, k.rd R.EPH_SWAP_AT (dw d) p 0, n⟩]
      swapLast := k1.egr.swapLast.set (d * 8 + p) n } }

/-- EPH_SWAP_GO. -/
def execEphSwapGo (m : Master) (d p : Fin 8) (count : Fin 512) (s : State) : Host.Outcome State Fault Refusal :=
  done (s.write m (dw d) (0x50 + p.val) 0x108 fun k => k.swapGo d p count)

/-- EPH_SWAP_VALIDATE (R416, R417): the oldest request of a pipeline's page is validated; a refusal raises the
swap-refused event. -/
def Core.swapValidate (k : Core) (d p : Nat) : Core :=
  match k.egr.swapReq.find? fun r => r.die == d && r.pipe == p with
  | none => k
  | some r =>
    let k1 := { k with egr := { k.egr with swapReq := k.egr.swapReq.erase r } }
    match k.validate r with
    | .accepted c => { k1 with egr := { k1.egr with swapPend := k1.egr.swapPend ++ [{ r with at' := c }] } }.tw
        T.EPH_PORT_SWAP_STATE (dw d) p r.l 1
    | .refused why det =>
      let still := k.egr.swapPend.any fun x => x.die == d && x.pipe == p && x.l == r.l
      let k2 := (k1.tw T.EPH_PORT_SWAP_STATE (dw d) p r.l (if still then 1 else 3)).raise (dw d) (0x50 + p) 1
      if k.egr.swapLast.get (d * 8 + p) = r.seq then
        ((k2.wr R.EPH_SWAP_STAT_STATE (dw d) p 0 3).wr R.EPH_SWAP_STAT_REASON (dw d) p 0 why).wr
          R.EPH_SWAP_STAT_DETAIL (dw d) p 0 det
      else k2

/-- EPH_SWAP_VALIDATE. -/
def execEphSwapValidate (d p : Fin 8) (s : State) : Host.Outcome State Fault Refusal :=
  done (s.onCore fun k => k.swapValidate d p)

/-- EPH_ENABLE_WRITE (R413): EN = 0 opens the gates at once; EN = 1 takes effect at the next boundary. -/
def Core.ephEnable (k : Core) (d p l : Nat) (en : Bool) : Core :=
  let k1 := k.tw T.EPH_PORT_EN (dw d) p l (b2n en)
  if en then k1 else { k1 with egr := { k1.egr with gated := k1.egr.gated.set (d * 256 + 32 * p + l) 0 } }

/-- EPH_ENABLE_WRITE. -/
def execEphEnableWrite (m : Master) (d p : Fin 8) (l : Fin 32) (en : Bool) (s : State) :
    Host.Outcome State Fault Refusal :=
  done (s.window m (dw d) (0x50 + p.val) 0x204 fun k => k.ephEnable d p l en)

/-! ### Shapers (R424 to R428, R449) -/

/-- The fields of a shaper: EN, MODE, OVH, RATE, BURST and LEVEL. -/
structure ShpFlds where
  en : TFld
  mode : TFld
  ovh : TFld
  rate : TFld
  burst : TFld
  level : TFld

/-- Queue shapers. -/
def shpQ : ShpFlds :=
  ⟨T.SHP_Q_EN, T.SHP_Q_MODE, T.SHP_Q_OVH, T.SHP_Q_RATE, T.SHP_Q_BURST, T.SHP_Q_LEVEL⟩

/-- Port shapers. -/
def shpPort : ShpFlds :=
  ⟨T.SHP_PORT_EN, T.SHP_PORT_MODE, T.SHP_PORT_OVH, T.SHP_PORT_RATE, T.SHP_PORT_BURST, T.SHP_PORT_LEVEL⟩

/-- A bucket's level in 10^-6 bytes: LEVEL in whole bytes and its carried fraction. -/
def Core.level (k : Core) (f : TFld) (w p i : Nat) : Int :=
  signed (k.td f w p i) * 1000000 + k.egr.frac.get (f.key w p i)

/-- Set a bucket's level. -/
def Core.setLevel (k : Core) (f : TFld) (w p i : Nat) (v : Int) : Core :=
  let k1 := k.tw f w p i (pattern (v / 1000000))
  { k1 with egr := { k1.egr with frac := k1.egr.frac.set (f.key w p i) (v % 1000000).toNat } }

/-- A signed 8-bit overhead. -/
def ovh8 (v : Nat) : Int := (BitVec.ofNat 8 v).toInt

/-- The shaper allows a start (R424): disabled, or its bucket holds 0 or more. -/
def Core.shpAllows (k : Core) (x : ShpFlds) (w p i : Nat) : Bool :=
  k.td x.en.eff w p i == 0 || decide (0 ≤ k.level x.level w p i)

/-- Charge a frame to a shaper (R424). -/
def Core.shpCharge (k : Core) (x : ShpFlds) (w p i len : Nat) : Core :=
  if k.td x.en.eff w p i = 0 then k
  else k.setLevel x.level w p i (k.level x.level w p i - (len + ovh8 (k.td x.ovh.eff w p i)) * 1000000)

/-- The wake of compatibility mode (R427): level becomes min(level, 0). -/
def Core.shpWake (k : Core) (x : ShpFlds) (w p i : Nat) : Core :=
  if k.td x.en.eff w p i = 1 ∧ k.td x.mode.eff w p i = 1 then
    k.setLevel x.level w p i (min (k.level x.level w p i) 0)
  else k

/-- A written shaper configuration comes into force (R428). -/
def Core.shpApply (k : Core) (x : ShpFlds) (w p i : Nat) : Core :=
  let was := k.td x.en.eff w p i
  let now := k.td x.en w p i
  let k1 := [x.en, x.mode, x.ovh, x.rate, x.burst].foldl (fun k f => k.tw f.eff w p i (k.td f w p i)) k
  if now = 0 ∨ was = 0 then k1.setLevel x.level w p i 0
  else k1.setLevel x.level w p i (min (k1.level x.level w p i) ((k1.td x.burst w p i : Int) * 1000000))

/-- One refill of an enabled shaper: 16 ns of its rate, up to BURST (R425). -/
def Core.shpRefill (k : Core) (x : ShpFlds) (w p i : Nat) : Core :=
  if k.td x.en.eff w p i = 0 then k
  else k.setLevel x.level w p i
    (min ((k.td x.burst.eff w p i : Int) * 1000000) (k.level x.level w p i + k.td x.rate.eff w p i * 2))

/-! ### Ramp groups (R429 to R433, R450) -/

/-- A group's level, limit and bucket live in RMP_GRP; group `g` of die `d`. -/
def Core.rmp (k : Core) (f : TFld) (d g : Nat) : Nat := k.td f (dw d) 0 g

/-- The ramp group of a queue, if it belongs to one that is active. -/
def Core.groupOf (k : Core) (d l q : Nat) : Option Nat :=
  let i := l % 32 * 16 + q
  let g := k.td T.SHP_Q_RGRP (dw d) (l / 32) i
  if k.td T.SHP_Q_RGRP_EN (dw d) (l / 32) i = 1 ∧ k.rmp T.RMP_GRP_EN d g = 1 then some g else none

/-- The limit after `n` steps (R430). -/
def Core.rampLimit (k : Core) (d g n : Nat) : Nat :=
  let fl := k.rmp T.RMP_GRP_FLOOR.eff d g
  let ce := k.rmp T.RMP_GRP_CEIL.eff d g
  let steps := k.rmp T.RMP_GRP_RAMP_CYCLES.eff d g * (k.rmp T.RMP_GRP_STEPS.eff d g + 1)
  fl + (ce - fl) * min n steps / max 1 steps

/-- The configuration of a group as it stands written in `from'` comes into force (R433). -/
def Core.rampTake (k from' : Core) (d g : Nat) : Core :=
  [T.RMP_GRP_FLOOR, T.RMP_GRP_CEIL, T.RMP_GRP_RAMP_CYCLES, T.RMP_GRP_STEPS, T.RMP_GRP_BURST].foldl
    (fun k f => k.tw f.eff (dw d) 0 g (from'.rmp f d g)) k

/-- A group's written configuration comes into force (R433). -/
def Core.rampApply (k : Core) (d g : Nat) : Core := k.rampTake k d g

/-- Where the follower stands, as cycle × 2^32 + phase. -/
def Core.phasePos (k : Core) : Nat := k.time.cycle * 2 ^ 32 + k.time.phase

/-- The first step phase after `pos`: the phases of a cycle are j × 2^32 / STEPS (R430). -/
def Core.nextStep (k : Core) (d g pos : Nat) : Nat :=
  let n := k.rmp T.RMP_GRP_STEPS.eff d g + 1
  let j := (List.range n).find? fun j => decide (pos % 2 ^ 32 < j * 2 ^ 32 / n)
  pos / 2 ^ 32 * 2 ^ 32 + (match j with
    | some j => j * 2 ^ 32 / n
    | none => 2 ^ 32)

/-- The follower's phase has reached a step that the group has not yet taken (R432): the same instant on every die. -/
def Core.stepDue (k : Core) (d g : Nat) : Bool :=
  decide (k.nextStep d g (k.egr.rampAt.get (d * 64 + g)) ≤ k.phasePos)

/-- The steps of a group up to now are past. -/
def Core.rampFrom (k : Core) (d g pos : Nat) : Core :=
  { k with egr := { k.egr with rampAt := k.egr.rampAt.set (d * 64 + g) pos } }

/-- RAMP_STEP (R430, R432): at a step phase of the follower, and at no other, a ramping group's n rises by 1 and its limit
follows; at CEIL the group is FULL and the event is raised. -/
def Core.rampStep (k : Core) (d g : Nat) : Core :=
  let w := dw d
  if k.rmp T.RMP_GRP_EN d g = 0 ∨ ¬ k.stepDue d g then k
  else
    let k1 := (k.rampFrom d g (k.nextStep d g (k.egr.rampAt.get (d * 64 + g)))).rampApply d g
    match k.rmp T.RMP_GRP_STATE d g with
    | 1 => k1.tw T.RMP_GRP_LIMIT w 0 g (k1.rmp T.RMP_GRP_FLOOR.eff d g)
    | 0 => k1
    | st =>
      -- the step of a group belongs to no pipeline: a filter leaves it out (R753)
      let k1 := k1.count w 5 3 256 1
      let n := min (k.rmp T.RMP_GRP_STEP_N d g + 1) (2 ^ 24 - 1)
      let lim := k1.rampLimit d g n
      let k2 := (k1.tw T.RMP_GRP_STEP_N w 0 g n).tw T.RMP_GRP_LIMIT w 0 g lim
      if k1.rmp T.RMP_GRP_CEIL.eff d g ≤ lim then
        let k3 := k2.tw T.RMP_GRP_STATE w 0 g 3
        if st = 3 then k3 else k3.raise w 0x58 0
      else k2.tw T.RMP_GRP_STATE w 0 g 2

/-- RAMP_STEP. -/
def execRampStep (d : Fin 8) (g : Fin 64) (s : State) : Host.Outcome State Fault Refusal :=
  done (s.onCore fun k => k.rampStep d g)

/-- A queue holds a copy: waiting, started and not yet sent, or spilled (R431). -/
def Core.queueBusy (k : Core) (d l q : Nat) : Bool :=
  decide (0 < k.egE d l q) || (k.buf.spilled ++ k.buf.fetching).any fun c => c.port == d * 256 + l && c.queue == q

/-- A group is idle: none of its queues holds a copy (R431). -/
def Core.groupIdle (k : Core) (d g : Nat) : Bool :=
  (k.listed T.SHP_Q_RGRP_EN (dw d)).all fun e =>
    k.td T.SHP_Q_RGRP (dw d) e.1 e.2 != g || !k.queueBusy d (32 * e.1 + e.2 / 16) (e.2 % 16)

/-- Whether a group is idle is looked at afresh: its idle time begins, goes on or is broken (R431). -/
def Core.idleEval (k : Core) (d g : Nat) : Core :=
  let was := k.egr.idleSince.get (d * 64 + g)
  let since := if ¬ k.groupIdle d g then 0 else if was = 0 then k.time.now + 1 else was
  { k with egr := { k.egr with idleSince := k.egr.idleSince.set (d * 64 + g) since } }

/-- A queue's group may have become idle. -/
def Core.noteIdle (k : Core) (d l q : Nat) : Core :=
  match k.groupOf d l q with
  | some g => k.idleEval d g
  | none => k

/-- RAMP_IDLE_RESET (R431): a group idle for IDLE_RESET_US without a break enters RESET at FLOOR with level at most 0. -/
def Core.rampIdleReset (k : Core) (d g : Nat) : Core :=
  let w := dw d
  let since := k.egr.idleSince.get (d * 64 + g)
  if k.rmp T.RMP_GRP_EN d g = 1 ∧ k.rmp T.RMP_GRP_STATE d g ≠ 1 ∧ since ≠ 0 ∧ k.groupIdle d g ∧
      k.rmp T.RMP_GRP_IDLE_RESET_US d g * 1000 ≤ k.time.now + 1 - since then
    ((((k.tw T.RMP_GRP_STATE w 0 g 1).tw T.RMP_GRP_STEP_N w 0 g 0).tw T.RMP_GRP_LIMIT w 0 g
      (k.rmp T.RMP_GRP_FLOOR.eff d g)).setLevel T.RMP_GRP_LEVEL w 0 g (min (k.level T.RMP_GRP_LEVEL w 0 g) 0)).raise w 0x58 1
  else k

/-- RAMP_IDLE_RESET. -/
def execRampIdleReset (d : Fin 8) (g : Fin 64) (s : State) : Host.Outcome State Fault Refusal :=
  done (s.onCore fun k => k.rampIdleReset d g)

/-- A disabled group's entry is written (R433): if a step phase has gone by since its last write, what that wrote is in force, and
what is written now waits for the next step phase. -/
def Core.rampKept (k old : Core) (d g : Nat) : Core :=
  (if old.stepDue d g then k.rampTake old d g else k).rampFrom d g k.phasePos

/-- A group's entry has been written (R430, R433, R450): one that is enabled enters RESET at the FLOOR in force with level 0. -/
def Core.rampEnable (k' old : Core) (d g : Nat) : Core :=
  let w := dw d
  let en := k'.rmp T.RMP_GRP_EN d g
  let was := old.rmp T.RMP_GRP_EN d g
  let k := if was = 0 then k'.rampKept old d g else k'
  if en = was then k
  else if en = 0 then
    (((k.tw T.RMP_GRP_STATE w 0 g 0).tw T.RMP_GRP_STEP_N w 0 g 0).tw T.RMP_GRP_LIMIT w 0 g 0).setLevel T.RMP_GRP_LEVEL w 0 g 0
  else
    let k2 := (((k.tw T.RMP_GRP_STATE w 0 g 1).tw T.RMP_GRP_STEP_N w 0 g 0).tw T.RMP_GRP_LIMIT w 0 g
      (k.rmp T.RMP_GRP_FLOOR.eff d g)).setLevel T.RMP_GRP_LEVEL w 0 g 0
    { k2 with egr := { k2.egr with idleSince := k2.egr.idleSince.set (d * 64 + g) 0 } }.idleEval d g

/-- What an enqueue does to the shapers and the ramp group of its queue (R427, R430, R452): `qEmpty`, `pEmpty` say the
queue and the port held no copy before. -/
def Core.wakeQueue (k : Core) (d l q : Nat) (qEmpty pEmpty : Bool) : Core :=
  let w := dw d
  let p := l / 32
  let k1 := if qEmpty then k.shpWake shpQ w p (l % 32 * 16 + q) else k
  let k2 := if pEmpty then k1.shpWake shpPort w p (l % 32) else k1
  match k2.groupOf d l q with
  | some g =>
    let k3 := { k2 with egr := { k2.egr with idleSince := k2.egr.idleSince.set (d * 64 + g) 0 } }
    if k3.rmp T.RMP_GRP_STATE d g = 1 then
      ((k3.tw T.RMP_GRP_STATE w 0 g 2).tw T.RMP_GRP_STEP_N w 0 g 0).rampFrom d g k3.phasePos
    else k3
  | none => k2

/-! ### Deficit round robin (R421 to R423) -/

/-- Qe in bytes (R422). -/
def Core.quantum (k : Core) (d l q : Nat) : Nat :=
  max (k.td T.SCH_QCFG_QUANTUM (dw d) (l / 32) (l % 32 * 16 + q)) ((k.mtu d l + 63) / 64) * 64

/-- What the scheduler sees of a queue that is not empty: its head's length and whether it is eligible (R420). -/
structure QueueView where
  len : Nat
  eligible : Bool
  deriving DecidableEq, Repr

/-- Deficit of a queue. -/
def Core.deficit (k : Core) (d l q : Nat) : Nat := k.td T.SCH_QCFG_DEFICIT (dw d) (l / 32) (l % 32 * 16 + q)

/-- Set the deficit of a queue. -/
def Core.setDeficit (k : Core) (d l q v : Nat) : Core := k.tw T.SCH_QCFG_DEFICIT (dw d) (l / 32) (l % 32 * 16 + q) v

/-- Set a queue's visited mark. -/
def Core.setVisited (k : Core) (d l q v : Nat) : Core :=
  { k with egr := { k.egr with visited := k.egr.visited.set ((d * 256 + l) * 16 + q) v } }

/-- The loop of R422 from queue `q` of a group of `n` queues (q0 to q(n − 1)): the core after it and the queue that
starts. An empty queue loses its deficit and keeps its mark, as R422 writes it. -/
def Core.drr (k : Core) (d l n : Nat) (view : Nat → Option QueueView) : Nat → Nat → Core × Option Nat
  | 0, _ => (k, none)
  | fuel + 1, q =>
    let next := (q + 1) % n
    match view q with
    | none => (k.setDeficit d l q 0).drr d l n view fuel next
    | some v =>
      if v.eligible then
        let mark := k.egr.visited.get ((d * 256 + l) * 16 + q)
        let def' := k.deficit d l q + (if mark = 0 then k.quantum d l q else 0)
        if v.len ≤ def' then
          let k1 := (k.setDeficit d l q (def' - v.len)).setVisited d l q 1
          ({ k1 with egr := { k1.egr with drrCur := k1.egr.drrCur.set (d * 256 + l) q } }, some q)
        else ((k.setDeficit d l q def').setVisited d l q 0).drr d l n view fuel next
      else k.drr d l n view fuel next

/-- The queue a port starts at a frame boundary (R421): the highest eligible strict queue, else by deficit round robin
over one full round and back to the queue it began with. -/
def Core.pickQueue (k : Core) (d l : Nat) (view : Nat → Option QueueView) : Core × Option Nat :=
  let ns := k.td T.SCH_PORT_NSTRICT (dw d) (l / 32) (l % 32)
  match ((List.range ns).map (15 - ·)).find? fun q => (view q).any (·.eligible) with
  | some q => (k, some q)
  | none => if 16 ≤ ns then (k, none) else k.drr d l (16 - ns) view (17 - ns) (k.egr.drrCur.get (d * 256 + l) % (16 - ns))

/-! ### Stream contexts (R434 to R442) -/

/-- The configuration fields of a stream context. -/
def polCfg : List TFld :=
  [T.POL_CTX_EN, T.POL_CTX_AWARE, T.POL_CTX_Y_ACT, T.POL_CTX_R_ACT, T.POL_CTX_RMK_KIND, T.POL_CTX_SEQ_EN, T.POL_CTX_Y_RMK,
   T.POL_CTX_R_RMK, T.POL_CTX_OVH, T.POL_CTX_CIR, T.POL_CTX_PIR, T.POL_CTX_CBS, T.POL_CTX_PBS]

/-- A context's field in force. -/
def Core.pol (k : Core) (f : TFld) (d i : Nat) : Nat := k.td f.eff (dw d) 0 i

/-- Set the buckets of a context, in 10^-6 bytes. -/
def Core.setPol (k : Core) (d i c p : Nat) : Core :=
  { k with egr := { k.egr with tc := k.egr.tc.set (d * 16384 + i) c, tp := k.egr.tp.set (d * 16384 + i) p } }

/-- The written configuration of a context comes into force; its buckets are clipped (R442). -/
def Core.polApply (k : Core) (d i : Nat) : Core :=
  let k1 := polCfg.foldl (fun k f => k.tw f.eff (dw d) 0 i (k.td f (dw d) 0 i)) k
  k1.setPol d i (min (k1.egr.tc.get (d * 16384 + i)) (k1.pol T.POL_CTX_CBS d i * 1000000))
    (min (k1.egr.tp.get (d * 16384 + i)) (k1.pol T.POL_CTX_PBS d i * 1000000))

/-- One refill of a context: Tc gains CIR and Tp gains PIR (R436). -/
def Core.polRefill (k : Core) (d i : Nat) : Core :=
  if k.pol T.POL_CTX_EN d i = 0 then k
  else k.setPol d i
    (min (k.pol T.POL_CTX_CBS d i * 1000000) (k.egr.tc.get (d * 16384 + i) + k.pol T.POL_CTX_CIR d i * 2))
    (min (k.pol T.POL_CTX_PBS d i * 1000000) (k.egr.tp.get (d * 16384 + i) + k.pol T.POL_CTX_PIR d i * 2))

/-- The colours (R197). -/
def green : Nat := 0
/-- Yellow. -/
def yellow : Nat := 1
/-- Red. -/
def red : Nat := 2

/-- The two-rate marker (R436): the output colour and the buckets after it, in 10^-6 bytes. B is signed: a negative one adds
to a bucket, which the next refill caps again. -/
def marker (aware : Bool) (inCol : Nat) (b : Int) (tc tp : Nat) : Nat × Nat × Nat :=
  let c := if 2 ≤ inCol then red else inCol
  if (aware && c == red) || decide (tp < b) then (red, tc, tp)
  else if (aware && c == yellow) || decide (tc < b) then (yellow, tc, (tp - b).toNat)
  else (green, (tc - b).toNat, (tp - b).toNat)

/-- The sequence check of R439: the outcome, the gap size and the core after it. -/
def Core.seqCheck (k : Core) (d i s : Nat) : Core × Nat × Nat :=
  let w := dw d
  if k.pol T.POL_CTX_SEQ_EN d i = 0 then (k, 0, 0)
  else
    let dist := (s + 2 ^ 32 - k.td T.POL_CTX_LAST_SEQ w 0 i) % 2 ^ 32
    if k.td T.POL_CTX_SEQ_SEEN w 0 i = 0 ∨ dist = 1 then
      ((k.tw T.POL_CTX_LAST_SEQ w 0 i s).tw T.POL_CTX_SEQ_SEEN w 0 i 1, 1, 0)
    else if 2 ≤ dist ∧ dist < 2 ^ 31 then
      ((k.tw T.POL_CTX_LAST_SEQ w 0 i s).tbump T.POL_CTX_GAP_CNT w 0 i 1, 2, dist - 1)
    else (k.tbump T.POL_CTX_DUP_CNT w 0 i 1, 3, 0)

/-- What a stream-context lookup answers: the result, and on a hit the output colour and whether its action drops. -/
structure Policed where
  found : Found
  colour : Option Nat
  drops : Bool
  deriving DecidableEq, Repr

/-- A stream-context lookup (R434 to R441): key bits name the context and the sequence number, `len` the frame length of
container 57, `inCol` the colour of container 56; `ue` says the stored words are found uncorrectable. -/
def Core.polLookup (k : Core) (d key len inCol : Nat) (ue : Bool) : Core × Policed :=
  let w := dw d
  let i := key % 2 ^ 14
  let miss : Policed := ⟨.miss, none, false⟩
  if key % 2 ^ 32 / 2 ^ 14 ≠ 0 then (k, miss)
  else if ue ∨ k.td T.POL_CTX_POISON w 0 i = 1 then
    let k1 := if k.td T.POL_CTX_POISON w 0 i = 1 then k else ((k.tw T.POL_CTX_POISON w 0 i 1).ueFound w 8).raise w 0x48 0
    (k1, ⟨{ Found.miss with poisoned := true }, none, false⟩)
  else if k.pol T.POL_CTX_EN d i = 0 then (k, miss)
  else
    let b : Int := len + ovh8 (k.pol T.POL_CTX_OVH d i)
    let r := marker (k.pol T.POL_CTX_AWARE d i == 1) inCol (b * 1000000) (k.egr.tc.get (d * 16384 + i))
      (k.egr.tp.get (d * 16384 + i))
    let k1 := k.setPol d i r.2.1 r.2.2
    let q := k1.seqCheck d i (key / 2 ^ 32 % 2 ^ 32)
    let act := if r.1 = yellow then k.pol T.POL_CTX_Y_ACT d i else if r.1 = red then k.pol T.POL_CTX_R_ACT d i else 0
    let rmk := if r.1 = yellow then k.pol T.POL_CTX_Y_RMK d i else if r.1 = red then k.pol T.POL_CTX_R_RMK d i else 0
    let k2 := if r.1 = green then (q.1.taddInt T.POL_CTX_GREEN_BYTES w 0 i b).tbump T.POL_CTX_GREEN_PKTS w 0 i 1
      else if r.1 = yellow then (q.1.taddInt T.POL_CTX_YELLOW_BYTES w 0 i b).tbump T.POL_CTX_YELLOW_PKTS w 0 i 1
      else (q.1.taddInt T.POL_CTX_RED_BYTES w 0 i b).tbump T.POL_CTX_RED_PKTS w 0 i 1
    (k2, ⟨⟨[BitVec.ofNat 32 (k.pol T.POL_CTX_RMK_KIND d i * 2 ^ 16 + rmk * 2 ^ 8 + q.2.1 * 2 ^ 4 + act * 2 ^ 2 + r.1),
        BitVec.ofNat 32 q.2.2, 0, 0], true, false, false⟩, some r.1, act == 2⟩)

/-- Zero a context's counters and its sequence state (R451, R599). -/
def Core.polClear (k : Core) (d i : Nat) : Core :=
  [T.POL_CTX_LAST_SEQ, T.POL_CTX_SEQ_SEEN, T.POL_CTX_DUP_CNT, T.POL_CTX_GAP_CNT, T.POL_CTX_GREEN_BYTES,
   T.POL_CTX_YELLOW_BYTES, T.POL_CTX_RED_BYTES, T.POL_CTX_GREEN_PKTS, T.POL_CTX_YELLOW_PKTS, T.POL_CTX_RED_PKTS].foldl
    (fun k f => k.tw f (dw d) 0 i 0) k

/-- Fill both buckets of a context. -/
def Core.polFill (k : Core) (d i : Nat) : Core :=
  k.setPol d i (k.pol T.POL_CTX_CBS d i * 1000000) (k.pol T.POL_CTX_PBS d i * 1000000)

/-- The values a context write carries, and whether each is outside the encodings its field has. -/
def polValues (ws : List Nat) : List (TFld × Nat × Bool) :=
  let v (n hi lo : Nat) : Nat := bits (ws.getD n 0) hi lo
  [(T.POL_CTX_EN, v 0 31 31, false), (T.POL_CTX_AWARE, v 0 30 30, false), (T.POL_CTX_Y_ACT, v 0 29 28, v 0 29 28 == 3),
   (T.POL_CTX_R_ACT, v 0 27 26, v 0 27 26 == 3), (T.POL_CTX_RMK_KIND, v 0 25 24, v 0 25 24 == 3),
   (T.POL_CTX_SEQ_EN, v 0 23 23, false), (T.POL_CTX_Y_RMK, v 0 21 16, false), (T.POL_CTX_R_RMK, v 0 13 8, false),
   (T.POL_CTX_OVH, v 0 7 0, false), (T.POL_CTX_CIR, v 1 30 0, false), (T.POL_CTX_PIR, v 2 30 0, false),
   (T.POL_CTX_CBS, v 3 24 0, decide (16777216 < v 3 24 0)), (T.POL_CTX_PBS, v 4 24 0, decide (16777216 < v 4 24 0))]

/-- A context write is refused as a whole (R442): conditions that hold only while EN = 1. -/
def polRefused (ws : List Nat) : Bool :=
  let v (n hi lo : Nat) : Nat := bits (ws.getD n 0) hi lo
  v 0 31 31 == 1 && (decide (v 2 30 0 < v 1 30 0) || v 1 30 0 == 0 || decide (v 3 24 0 < 64) || decide (v 4 24 0 < 64) ||
    v 0 29 28 == 3 || v 0 27 26 == 3 || v 0 25 24 == 3)

/-- POL_CTX_WRITE (R442, R599): a write of a context's configuration, given as its five words. It comes into force at the
next refill, or is refused with FAIL and CFG_ERR; a field written with a reserved encoding keeps its value and sets
CFG_ERR (R25). A context whose POISON is 1 takes the write at once: POISON clears, its counters and sequence state become
0 and its buckets are filled. -/
def Core.polWrite (k : Core) (m : Master) (d i : Nat) (ws : List Nat) : Core :=
  let w := dw d
  if polRefused ws then (k.cfgErr w 0x49 m 0x204).wr (indFail 0x49 0x200) w 0 0 1
  else
    let vs := polValues ws
    let k0 := if vs.any (·.2.2) then k.cfgErr w 0x49 m 0x204 else k
    let k1 := (vs.foldl (fun k x => if x.2.2 then k else k.tw x.1 w 0 i x.2.1) k0).wr (indFail 0x49 0x200) w 0 0 0
    if k.td T.POL_CTX_POISON w 0 i = 1 then (((k1.tw T.POL_CTX_POISON w 0 i 0).polClear d i).polApply d i).polFill d i
    else { k1 with egr := { k1.egr with dirty := k1.egr.dirty ++ [(Tab.POL_CTX, w, 0, i)] } }

/-- POL_CTX_WRITE. -/
def execPolCtxWrite (m : Master) (d : Fin 8) (i : Fin 16384) (w0 w1 w2 w3 w4 : Word) (s : State) :
    Host.Outcome State Fault Refusal :=
  done (s.window m (dw d) 0x49 0x204 fun k => k.polWrite m d i [w0.toNat, w1.toNat, w2.toNat, w3.toNat, w4.toNat])

/-- POL_CLR (R451): GO clears the counters, LAST_SEQ and SEQ_SEEN of context INDEX and fills both buckets. -/
def execPolClr (m : Master) (d : Fin 8) (i : Fin 16384) (s : State) : Host.Outcome State Fault Refusal :=
  done (s.write m (dw d) 0x48 0x100 fun k =>
    ((k.wr R.POL_CLR_INDEX (dw d) 0 0 i).polClear d i).polFill d i)

/-! ### SHAPER_REFILL (R425, R428, R436, R442) -/

/-- A written shaper or context entry comes into force. -/
def Core.applyDirty (k : Core) (x : Nat × Nat × Nat × Nat) : Core :=
  if x.1 = Tab.SHP_Q then k.shpApply shpQ x.2.1 x.2.2.1 x.2.2.2
  else if x.1 = Tab.SHP_PORT then k.shpApply shpPort x.2.1 x.2.2.1 x.2.2.2
  else k.polApply (x.2.1 - 1) x.2.2.2

/-- How far ahead of elapsed follower time the next refill of a die lies, in 2^-16 ns: refills stand every 16 ns (R425). -/
def Core.refillAhead (k : Core) (d : Nat) : Nat := (k.egr.refills.get d + 1) * 1048576 - k.time.flow

/-- One refill on die `d`: written configurations come into force, then every enabled bucket gains. The refill stands at its
16 ns of elapsed follower time, which steps and realignments do not move (R425): the clock is brought to it. -/
def Core.refill (k' : Core) (d : Nat) : Core :=
  let w := dw d
  let k0 := k'.pass (k'.refillAhead d)
  let k := { k0 with egr := { k0.egr with refills := k0.egr.refills.set d (k0.egr.refills.get d + 1) } }
  let mine := k.egr.dirty.filter (·.2.1 == w)
  let k1 := mine.foldl Core.applyDirty { k with egr := { k.egr with dirty := k.egr.dirty.filter (·.2.1 != w) } }
  let k2 := (k1.listed T.SHP_Q_EN.eff w).foldl (fun k e => k.shpRefill shpQ w e.1 e.2) k1
  let k3 := (k2.listed T.SHP_PORT_EN.eff w).foldl (fun k e => k.shpRefill shpPort w e.1 e.2) k2
  let k4 := (k3.listed T.RMP_GRP_EN w).foldl (fun k e => k.setLevel T.RMP_GRP_LEVEL w 0 e.2
    (min ((k.rmp T.RMP_GRP_BURST.eff d e.2 : Int) * 1000000)
      (k.level T.RMP_GRP_LEVEL w 0 e.2 + k.rmp T.RMP_GRP_LIMIT d e.2 * 2))) k3
  (k4.listed T.POL_CTX_EN.eff w).foldl (fun k e => k.polRefill d e.2) k4

/-- SHAPER_REFILL. -/
def execShaperRefill (d : Fin 8) (s : State) : Host.Outcome State Fault Refusal := done (s.onCore fun k => k.refill d)

/-- GATE_CHANGE (R411, R414): the follower phase reaches the START of entry `entry` of the list in force, so the gates
are those of its MASK from here on. Which gates are open is read from the list and the phase; the command brings the
clock to that instant when it has not passed it. -/
def execGateChange (d : Fin 8) (l entry : Fin 256) (s : State) : Host.Outcome State Fault Refusal :=
  done (s.onCore fun k =>
    match k.ephAt d l 0 with
    | some es =>
      let start := (es.getD entry (0, 0)).1
      let at' := (start * k.time.span + 2 ^ 32 - 1) / 2 ^ 32
      if entry.val < es.length then k.pass (at' - k.time.elapsed) else k
    | none => k)

end Sys2Proof.Machine
end

