-- ==== Sys2Proof/Machine/PipeOps.lean ====
section
/-!
DEFINITION. Packets and copies: entering the ingress half, acting on dispositions, joining VOQs, enqueueing into egress
queues, trace records and captures, and injection by the part and the host (R198 to R245, R336 to R345, R363, R764 to
R771).
-/
namespace Sys2Proof.Machine

/-! ### Packets -/

/-- The packet with a number. -/
def Core.pkt (k : Core) (id : Nat) : Option Pkt := k.pipes.pkts.find? (·.id == id)

/-- Remove a packet from the pipelines. -/
def Core.removePkt (k : Core) (id : Nat) : Core :=
  { k with pipes := { k.pipes with pkts := k.pipes.pkts.filter (·.id != id) } }

/-- Replace a packet in its place. -/
def Core.putPkt (k : Core) (p : Pkt) : Core :=
  { k with pipes := { k.pipes with pkts := k.pipes.pkts.map fun x => if x.id = p.id then p else x } }

/-- Replace a packet and put it behind the others: it has just begun its stage. -/
def Core.moveOn (k : Core) (p : Pkt) : Core :=
  { k with pipes := { k.pipes with pkts := k.pipes.pkts.filter (·.id != p.id) ++ [p] } }

/-- The packet is in its egress half. -/
def Pkt.egress (p : Pkt) : Bool := p.copy.isSome

/-- The epoch of a half of a pipeline (R120). -/
def Core.epoch (k : Core) (d p : Nat) (egress : Bool) : Nat :=
  k.rd (if egress then R.SEQ_STATUS_EPOCH_EG else R.SEQ_STATUS_EPOCH_IN) (dw d) p 0

/-- Packets of a pipeline that use the inactive half (SEQ_OLD_USE, R174). -/
def Core.oldUse (k : Core) (d p : Nat) (egress : Bool) : Nat :=
  k.pipes.pkts.countP fun x => x.die == d && x.pipe == p && x.egress == egress && x.place != .arrived &&
    x.addr / 2048 != k.epoch d p egress

/-- Die `d` is throttled, for the trace record (R765). -/
def Core.throttledNow (k : Core) (d : Nat) : Bool := decide (0 < k.rd R.PMU_STATUS_S (dw d) 0 0)

/-- The global port a packet came in on. -/
def Pkt.inPort (p : Pkt) : Nat := p.srcDie * 256 + p.lane

/-- The parse of a packet at the start of its ingress half: vector, header table, bindings, entry offset (R209 to R211,
R122). `entry` overrides the offset (R482). The epoch half is the one given. -/
def Core.parseIn (k : Core) (p : Pkt) (ue entry : Option Nat) (half recirc : Nat) : Core × Pkt :=
  let e := k.parse p.die p.pipe false p.frame ue
  let k1 := (k.parseErrors p.die p.pipe e).count (dw p.die) 1 0 p.pipe 1
  let at' := match entry with
    | some o => o
    | none => if e.err = 0 then e.entry else k.rd R.PRS_ERR_ENTRY_OFFSET (dw p.die) p.pipe 0
  let vec := ingressVector e p.frame.length (inInfo p.hostInjected recirc p.tc p.pg p.inPort) p.tsNs p.tsSec
  (k1, { p with
    place := .stage, stage := 0, addr := half * 2048 + at' % 2048, ended := false, vec := vec, binds := e.st.binds,
    written := [], hdrs := e.st.hdrs, flags := 0, res := [0, 0, 0, 0], resHit := false, resPoison := false,
    resErr := false, deep := .idle, disp := none, mirrors := [], edits := [], tPlace := (0, 0), tCapt := (0, 0),
    focusTmo := false, reentry := false })

/-- A new packet of a pipeline, before its parse. -/
def freshPkt (id d p lane pg : Nat) (lossless : Bool) (grp : Nat) (frame : List Byte) (tc : Nat) (ns sec : Word) : Pkt :=
  { id, die := d, pipe := p, lane, srcDie := d, pg, lossless, grp, frame, bad := false, short := false, tc, hostInjected := false, tsNs := ns,
    tsSec := sec, place := .arrived, stage := 0, addr := 0, ended := false, vec := [], binds := [], written := [],
    hdrs := [], flags := 0, res := [0, 0, 0, 0], resHit := false, resPoison := false, resErr := false, deep := .idle,
    disp := none, mirrors := [], edits := [], tPlace := (0, 0), tCapt := (0, 0), timedOut := false, reentry := false,
    parkSeq := 0, flagSeen := false, waitKey := (false, 0), detained := false, replayed := false,
    recirculated := false, focusTmo := false, throttled := false, tsTag := none, mirs := [],
    copy := none }

/-! ### Pause and cut-through (R334, R363) -/

/-- The queues priority `g` pauses (R334, R385). -/
def Core.qmask (k : Core) (d l g : Nat) : Nat :=
  k.td ([T.BUF_PFCRX_QMASK0, T.BUF_PFCRX_QMASK1, T.BUF_PFCRX_QMASK2, T.BUF_PFCRX_QMASK3, T.BUF_PFCRX_QMASK4,
    T.BUF_PFCRX_QMASK5, T.BUF_PFCRX_QMASK6, T.BUF_PFCRX_QMASK7].getD g T.BUF_PFCRX_QMASK0) (dw d) 0 l

/-- Priority `g` of a port is paused now (R333). -/
def Core.prioPaused (k : Core) (d l g : Nat) : Bool := bit (k.td T.BUF_PORT_PAUSED_RX (dw d) 0 l) g == 1

/-- An egress queue is paused (R334). -/
def Core.paused (k : Core) (d l q : Nat) : Bool :=
  (List.range 8).any fun g => k.prioPaused d l g && bit (k.qmask d l g) q == 1

/-- Copies wait in an egress queue. -/
def Core.queueHolds (k : Core) (d l q : Nat) : Bool := k.buf.eq.any fun c => c.port == d * 256 + l && c.queue == q

/-- Note since when a queue that holds copies is paused and sends nothing (R335); `sent` when it has just sent. -/
def Core.watchQueue (k : Core) (d l q : Nat) (sent : Bool) : Core :=
  let key := (d * 256 + l) * 16 + q
  let old := if sent then 0 else k.buf.stuckSince.get key
  let new := if k.paused d l q && k.queueHolds d l q then (if old = 0 then k.time.now + 1 else old) else 0
  { k with buf := { k.buf with stuckSince := k.buf.stuckSince.set key new } }

/-- The same for every queue of a port. -/
def Core.watchPort (k : Core) (d l : Nat) : Core := (List.range 16).foldl (fun k q => k.watchQueue d l q false) k

/-- The port is in down-hold. -/
def Core.holding (k : Core) (d l : Nat) : Bool := k.buf.holdEnd.get (d * 256 + l) != 0

/-- A copy is in transmission or in the egress half for the port. -/
def Core.portBusy (k : Core) (d l : Nat) : Bool :=
  (k.egr.sending.any fun x => x.copy.port == d * 256 + l) ||
    (k.pipes.pkts.any fun x => match x.copy with
      | some c => c.port == d * 256 + l
      | none => false)

/-- An egress queue holds no copy: none waits on the die, and none is spilled or on its way back. -/
def Core.queueEmpty (k : Core) (d l q : Nat) : Bool := !k.queueHolds d l q && !k.spillsFor d l q

/-- The bucket of a queue's ramp group allows a start (R424, R432). -/
def Core.groupAllows (k : Core) (d l q : Nat) : Bool :=
  match k.groupOf d l q with
  | some g => decide (0 ≤ k.level T.RMP_GRP_LEVEL (dw d) 0 g)
  | none => true

/-- Every shaper that governs a queue allows a start (R424). -/
def Core.shapersAllow (k : Core) (d l q : Nat) : Bool :=
  k.shpAllows shpQ (dw d) (l / 32) (l % 32 * 16 + q) && k.shpAllows shpPort (dw d) (l / 32) (l % 32) &&
    k.groupAllows d l q

/-- A copy for a port and queue cuts through (R363). -/
def Core.cutOk (k : Core) (inPort port q : Nat) (host : Bool) : Bool :=
  let d := port / 256
  let l := port % 256
  k.td T.BUF_PORT_CT_EN (dw d) 0 l == 1 && k.linkUp d l && !k.holding d l && !k.portBusy d l &&
    k.queueEmpty d l q && !k.stopped d l q && !k.paused d l q && !k.wdogDiscard d l q &&
    decide (k.portGbps d l ≤ k.portGbps (inPort / 256) (inPort % 256)) && !host &&
    k.gateAllows d l q (k.mtu d l) && k.shapersAllow d l q

/-! ### VOQs (R342 to R346) -/

/-- Cells of a copy that still wait on the source die. -/
def Copy.cells (c : Copy) : Nat := cellsOf c.frame.length - c.sent

/-- The depth of a VOQ in cells (R345, R387). -/
def Core.voqDepth (k : Core) (d p dp tc : Nat) : Nat :=
  k.buf.voq.foldl (fun n c => if c.die = d ∧ c.pipe = p ∧ c.dp = dp ∧ c.tc = tc then n + c.cells else n) 0

/-- A Meridian port has failed (R578). -/
def Core.portFailed (k : Core) (p : Nat) : Bool := k.td T.MER_PORT_FAULT 0 0 p == 1

/-- A copy crosses dies (R36). -/
def Copy.crosses (c : Copy) : Bool := c.dp / 8 != c.die

/-- The down-hold of no port of a die runs. -/
def Core.holdsOver (k : Core) (d : Nat) : Bool := (List.range 256).all fun l => k.buf.holdEnd.get (d * 256 + l) == 0

/-- What becomes of a new copy for a fenced die (R66, R370): it waits like any copy while the down-hold of its port runs (for a
multicast copy, of any port of the die), and is dropped and counted on the die that made it from then on. -/
def Core.fencedCopy (k : Core) (c : Copy) : Option Core :=
  match c.kind with
  | .multicast => if k.holdsOver (c.dp / 8) then some (k.bump R.RAS_XPORT_DROP_CNT (dw c.die) 0 0 1) else none
  | _ =>
    if k.buf.holdEnd.get c.port = 0 then some (k.tbump T.BUF_PSTAT_DOWN_DROP (dw c.die) 0 (c.port % 256) 1) else none

/-- A copy joins its VOQ, holding its group, which no copy that is dropped first does: one for a fenced die whose down-hold is
over, one that needs a failed Meridian port, and a lossy one that finds the VOQ full, each counted (R66, R342, R345, R370,
R578). -/
def Core.voqJoin (k : Core) (c : Copy) : Core :=
  match if k.fenced (c.dp / 8) && c.crosses then k.fencedCopy c else none with
  | some k1 => k1
  | none =>
  if c.crosses ∧ (k.portFailed (8 * c.die + c.pipe) ∨ k.portFailed c.dp) then
    k.bump R.RAS_XPORT_DROP_CNT (dw c.die) 0 0 1
  else if c.lossless = false ∧ k.rd R.BUF_VOQ_CAP_CELLS (dw c.die) 0 0 ≤ k.voqDepth c.die c.pipe c.dp c.tc then
    k.bump R.BUF_VOQ_CAP_DROP_CNT (dw c.die) 0 0 1
  else
    let k1 := match k.grp c.grp with
      | some g => k.putGrp { g with waiting := g.waiting + 1 }
      | none => k
    let r := k1.takeId
    { r.2 with buf := { r.2.buf with voq := r.2.buf.voq ++ [{ c with id := r.1 }] } }

/-- An invalid destination (R38, R233): counted, with the die's event. -/
def Core.invalidDest (k : Core) (d : Nat) : Core :=
  (k.add64 R.CNT_INVDEST_LO R.CNT_INVDEST_HI (dw d) 0 0 1).raise (dw d) 0xCC 1

/-- The fields a packet's copies carry (R200). -/
def Pkt.bridged (p : Pkt) : Bridged :=
  let c (i : Nat) : Word := p.vec.getD i 0
  ⟨c 54, c 55, c 56, c 60, c 61, c 62, p.flags⟩

/-- A copy a packet makes at the point of R226, before its destination is filled in. -/
def Pkt.mkCopy (p : Pkt) : Copy :=
  { id := 0, grp := p.grp, die := p.die, pipe := p.pipe, dp := 0, kind := .unicast, port := 0, queue := 0, group := 0,
    noIngress := false, tc := cont p.vec 56 18 16, inPort := cont p.vec 56 10 0, lossless := p.lossless, frame := p.frame,
    carried := p.bridged, entry := cont p.vec 62 10 0, replica := false, hostInjected := p.hostInjected, bad := p.bad,
    cut := false, marked := false, short := p.short, aborted := false, sent := 0, tsTag := p.tsTag, throttled := p.throttled,
    replayed := p.replayed, spilled := false, turn := 0, asked := 0, qdepth := 0, recirculated := p.recirculated,
    timedOut := p.timedOut }

/-- Send a copy towards a global port and queue (R38, R342). -/
def Core.toPort (k : Core) (c : Copy) (port queue : Nat) : Core :=
  if !k.globalExists port then k.invalidDest c.die
  else
    k.voqJoin { c with port := port, queue := queue, dp := port / 32 }

/-! ### Trace records and captures (R764 to R771) -/

/-- What a trace record says of the way of a packet or copy. -/
structure TraceInfo where
  flags : Nat
  inPort : Nat
  egPort : Option (Nat × Nat)
  ns : Word
  sec : Word
  residence : Nat
  qdepth : Nat

/-- The 24 bytes of a trace record (R764). -/
def Core.traceRecord (k : Core) (d profile : Nat) (t : TraceInfo) : List Byte :=
  let (ep, eq) := t.egPort.getD (0, 0)
  let path := t.inPort / 256 * 2 ^ 13 + t.inPort / 32 % 8 * 2 ^ 10 + ep / 256 * 2 ^ 7 + ep / 32 % 8 * 2 ^ 4 + eq
  toBe (16 + profile) 1 ++ toBe t.flags 1 ++ toBe path 2 ++ toBe (t.inPort * 2 ^ 21 + ep * 2 ^ 10) 4 ++
    toBe t.ns.toNat 4 ++ toBe (t.sec.toNat % 65536) 2 ++ toBe (k.td T.TRC_PROF_TAG (dw d) 0 profile) 2 ++
    toBe (min t.residence (2 ^ 32 - 1)) 4 ++
    toBe (min t.qdepth (2 ^ 20 - 1) * 2 ^ 12 + k.rd R.TRC_CFG_SWITCH_ID (dw d) 0 0) 4

/-- The ring of region 3 has no room for `n` lines in stop mode (R618). -/
def Core.plateFull (k : Core) (n : Nat) : Bool :=
  let lines := k.regionLines 3
  let wp := k.rd R.CXL_PLATE_WP 0 0 0
  let rp := k.rd R.CXL_PLATE_RP 0 0 0
  k.rd R.CXL_PLATE_CFG_STOP 0 0 0 == 1 && decide (lines ≤ (wp + lines - rp % lines) % lines + n)

/-- A record of `n` lines meets the ring: the Plate-full event is raised when the ring turns full (R618, R622). -/
def Core.plateMeets (k : Core) (n : Nat) : Core :=
  let full := k.plateFull n
  let k1 := if full && !k.cxl.plateFull then k.raise 0 0x90 4 else k
  { k1 with cxl := { k1.cxl with plateFull := full } }

/-- Offer a capture to the Plate archive (R617, R770). -/
def Core.offerPlate (k : Core) (d profile : Nat) (egress : Bool) (trace : List Byte) (frame : List Byte) : Core :=
  let n := min frame.length (64 * k.td T.TRC_PROF_SNAP (dw d) 0 profile)
  let lines := (32 + n + 63) / 64
  let seq := k.tele.capSeq.get d
  let k1 := { k with tele := { k.tele with capSeq := k.tele.capSeq.set d ((seq + 1) % 65536) } }
  let le (v w : Nat) : List Byte := (List.range w).map fun i => BitVec.ofNat 8 (v / 2 ^ (8 * i))
  let bytes := le lines 1 ++ le (profile * 16 + b2n egress * 8 + d) 1 ++ le frame.length 2 ++ le n 2 ++ le seq 2 ++
    trace ++ frame.take n
  if 64 ≤ k.cxl.plate.countP (·.die == d) ∨ k.tokens 3 = 0 ∨ ¬ k.regionOn 3 then
    k1.bump R.CXL_PLATE_DROP_CNT 0 0 0 1
  else if k.plateFull lines then
    (k1.plateMeets lines).bump R.CXL_PLATE_DROP_CNT 0 0 0 1
  else
    let rec' : PlateRec := ⟨d, (List.range lines).map fun i => leNat ((bytes.drop (64 * i)).take 64), k.time.now⟩
    { k1 with cxl := { k1.cxl with plate := k1.cxl.plate ++ [rec'] } }

/-- The PG a collector frame is charged to: the default PG of its source port's profile (the spec names none). -/
def Core.collPg (k : Core) (d l : Nat) : Nat :=
  k.td T.BUF_CLS_DEF_PG (dw d) 0 (k.td T.BUF_PORT_PROFILE (dw d) 0 l)

/-- Queue a collector frame of a capture (R771). -/
def Core.offerCollector (k : Core) (d p profile : Nat) (trace : List Byte) (frame : List Byte) : Core :=
  let x (f : TFld) : Nat := k.td f (dw d) 0 profile
  let port := x T.TRC_PROF_COLL_SRC_PORT
  let tplNum := x T.TRC_TPL_BYTES
  let tpl : List Byte := (List.range (x T.TRC_PROF_TPL_LEN)).map fun i => BitVec.ofNat 8 (tplNum / 2 ^ (8 * i))
  let f := buildUdp tpl (x T.TRC_PROF_V6 == 1) (x T.TRC_PROF_IP_OFS) (trace ++ frame.take (64 * x T.TRC_PROF_SNAP))
  if 32 ≤ (k.tele.queue.countP fun c => c.die == d && c.pipe == p) ∨ k.inXoff d (port % 256) (k.collPg d (port % 256)) then
    k.bump R.TRC_CAP_DROP_CNT (dw d) 0 0 1
  else
    let c : Collector := ⟨d, p, port, x T.TRC_PROF_COLL_TC, k.rd R.TRC_CFG_ENTRY (dw d) 0 0, f⟩
    { k with tele := { k.tele with queue := k.tele.queue ++ [c] } }

/-- Take a capture when one is asked for and the sample test passes (R769). -/
def Core.capture (k : Core) (d p : Nat) (egress : Bool) (capt : Nat × Nat) (t : TraceInfo) (frame : List Byte) : Core :=
  let (kind, profile) := capt
  if kind = 0 then k
  else
    let s := k.td T.TRC_PROF_SAMPLE (dw d) 0 profile
    let (draw, k1) := if s = 0 then (0, k) else k.fresh
    if draw % 2 ^ s ≠ 0 then k1
    else
      let trace := k1.traceRecord d profile t
      if kind = 1 then k1.offerPlate d profile egress trace frame
      else if kind = 2 then k1.offerCollector d p profile trace frame
      else k1

/-- Nanoseconds from an ingress timestamp to now. -/
def Core.residence (k : Core) (ns sec : Word) : Nat :=
  k.time.tod / 65536 - (sec.toNat * 1000000000 + ns.toNat)

/-! ### Dispositions (R224 to R240) -/

/-- A copy to the host with its prefix (R237). -/
def Core.toHost (k : Core) (operand : Nat) (vec : List Word) (frame : List Byte) : Core :=
  let le (v : Nat) : List Byte := (List.range 4).map fun i => BitVec.ofNat 8 (v / 2 ^ (8 * i))
  let c (i : Nat) : Nat := (vec.getD i 0).toNat
  let bytes := le (c 56) ++ le (bits operand 15 8 * 2 ^ 24 + cont vec 57 23 16 * 2 ^ 16 + frame.length % 2 ^ 14) ++
    le (c 54) ++ le (c 60) ++ frame
  { k with hostq := { k.hostq with rx := k.hostq.rx ++ [⟨bits operand 1 0, bits operand 5 2, bytes⟩] } }

/-- A drop is counted under its reason (R229). -/
def Core.countDrop (k : Core) (d p reason : Nat) : Core :=
  k.bump R.HVX_DROP_CNT (dw d) p (reason % 16) 1

/-- An ingress mirror copy of a session (R235). -/
def Core.mirrorCopy (k : Core) (p : Pkt) (s : Nat) : Core :=
  let w := dw p.die
  let x (f : Fld) : Nat := k.rd f w p.pipe s
  if x R.HVX_MIR_A_EN = 0 then k
  else
    let f := truncFrame p.frame (64 * x R.HVX_MIR_A_TRUNC)
    let c := { p.mkCopy with
      kind := .mirror, lossless := false, frame := f, short := p.short && f == p.frame, entry := x R.HVX_MIR_B_EG_ENTRY, tsTag := none }
    k.toPort c (x R.HVX_MIR_A_PORT) (x R.HVX_MIR_A_QUEUE)

/-- The copies of a multicast disposition: one for each named pipeline (R231, R233). DESIGN CHOICE: a PIPES bit of a die that
is not populated makes no copy and counts nothing. -/
def Core.multicast (k : Core) (p : Pkt) (operand : Nat) : Core :=
  let group := operand % 2 ^ 14
  let pipes := k.td T.HVX_MCG_PIPES (dw p.die) p.pipe group
  if pipes = 0 then k.bump R.HVX_MCG_EMPTY_CNT (dw p.die) p.pipe 0 1
  else
    ((List.range 64).filter fun x => bit pipes x == 1 && k.populated (x / 8)).foldl (fun k x =>
      k.voqJoin { p.mkCopy with kind := .multicast, dp := x, group := group, noIngress := bit operand 16 == 1 }) k

/-- Act on the primary disposition of the ingress half (R224 to R240). `ue`: the multicast entry reads uncorrectable; the packet
alone is dropped then, and the mirror copies made of it keep their cells (R226, R234). DESIGN CHOICE: a unicast copy without a
queue of its own takes it from HVX_QMAP of its destination port's pipeline; a recirculation count of 7 that is not RECIRC_MAX
goes on to 0 within its field; and a packet that was replayed stays so when it recirculates, so that the first failure of its
next pass is its second and COND 0x31 stays true. -/
def Core.primary (k : Core) (p : Pkt) (kind operand : Nat) (ue : Bool) : Core :=
  let d := p.die
  match kind with
  | 1 =>
    let port := operand % 2048
    let q := if bit operand 16 = 1 then bits operand 15 12
      else k.qmap (port / 256) (port / 32 % 8) (cont p.vec 56 18 16)
    (k.toPort p.mkCopy port q).copyGone p.grp
  | 2 =>
    if ue then (((k.countDrop d p.pipe 15).ueFound (dw d) 4).raise (dw d) (0x18 + p.pipe) 1).copyGone p.grp
    else (k.multicast p operand).copyGone p.grp
  | 4 => (if p.bad then k else k.toHost operand p.vec p.frame).copyGone p.grp  -- a bad frame is dropped (R366)
  | 5 =>
    if p.focusTmo then (k.bump R.FOC_PARK_DROP_CNT (dw d) 0 0 1).copyGone p.grp  -- the drop of R165
    else
      let c : Contribution := ⟨d, operand % 4096, cont p.vec 56 10 0, k.focOffset d p.vec, p.frame, p.bad, p.grp⟩
      { k with foc := { k.foc with inq := k.foc.inq ++ [c] } }
  | 6 =>
    let n := cont p.vec 56 26 24
    if n = k.rd R.HVX_CFG_RECIRC_MAX (dw d) p.pipe 0 then
      ((k.bump R.HVX_RECIRC_DROP_CNT (dw d) p.pipe 0 1).raise (dw d) (0x18 + p.pipe) 3).copyGone p.grp
    else
      let v := (p.vec.getD 56 0 &&& ~~~0x07000000#32) ||| BitVec.ofNat 32 ((n + 1) % 8 * 2 ^ 24)
      ((k.count (dw d) 1 6 p.pipe 1).count (dw d) 1 0 p.pipe 1).moveOn { p with
        place := .stage, stage := 0, addr := k.epoch d p.pipe false * 2048 + operand % 2048, ended := false,
        vec := p.vec.set 56 v, disp := none, mirrors := [], tPlace := (0, 0), tCapt := (0, 0), deep := .idle,
        reentry := false, detained := false, focusTmo := false, recirculated := true }
  | _ => (k.countDrop d p.pipe operand).copyGone p.grp

/-- The packet leaves its ingress half: capture, mirror requests, then the primary disposition or the default (R226,
R227, R769). -/
def Core.leaveIngress (k : Core) (p : Pkt) (ue : Bool) : Core :=
  let k0 := (k.removePkt p.id).count (dw p.die) 1 1 p.pipe 1
  let t : TraceInfo := ⟨b2n p.throttled + 8 * b2n p.replayed, p.inPort, none, p.tsNs, p.tsSec, 0, 0⟩
  let k1 := k0.capture p.die p.pipe false p.tCapt t p.frame
  let k2 := p.mirrors.foldl (fun k s => k.mirrorCopy p s) k1
  match p.disp with
  | some (kind, operand) => k2.primary p kind operand.toNat ue
  | none =>
    let k3 := k2.bump R.HVX_NODISP_CNT (dw p.die) p.pipe 0 1
    k3.primary p (k.rd R.HVX_CFG_DEF_KIND (dw p.die) p.pipe 0) (k.rd R.HVX_CFG_DEF_OPERAND (dw p.die) p.pipe 0) ue

/-- Drop a packet inside the ingress half, with the cells that hold it. -/
def Core.dropPkt (k : Core) (p : Pkt) : Core := (k.removePkt p.id).freeGrp p.grp

/-! ### Enqueueing (R232, R335 to R340, R366, R370, R374) -/

/-- Put a copy into its egress queue on die `d`, charging its group; the copies enqueued later stay behind it (R375). -/
def Core.placeCopy (k : Core) (d l q : Nat) (c : Copy) : Core :=
  let later (x : Copy) : Bool := x.port == d * 256 + l && x.queue == q && decide (c.turn < x.turn)
  let e := k.egE d l q
  let marked := k.marking d l q && decide (k.td T.BUF_Q_MARK_K (dw d) 0 (l * 16 + q) < e)
  let k1 := { k with buf := { k.buf with
    eq := k.buf.eq.filter (fun x => !later x) ++ [{ c with marked := marked, qdepth := if c.cut then 0 else e }] ++
      k.buf.eq.filter later } }
  (k1.chargeEgress c l q).watchQueue d l q false

/-- A copy is enqueued on its die: an empty queue, and an empty port, wake with it (R427). -/
def Core.queueCopy (k : Core) (d l q : Nat) (c : Copy) : Core :=
  let qEmpty := k.queueEmpty d l q
  let pEmpty := (List.range 16).all fun q => k.queueEmpty d l q
  let k1 := (k.placeCopy d l q c).wakeQueue d l q qEmpty pEmpty
  if c.cut then k1.count (dw d) 3 5 (l / 32) 1 else k1

/-- Write a copy to the spill region; its group is released. The queue holds it from then on (R427, R430). -/
def Core.spillCopy (k : Core) (d l q : Nat) (c : Copy) : Core :=
  let n := cellsOf c.frame.length
  let qEmpty := k.queueEmpty d l q
  let pEmpty := (List.range 16).all fun q => k.queueEmpty d l q
  let k1 := { k with buf := { k.buf with spilled := k.buf.spilled ++ [{ c with spilled := true, cut := false }] } }
  ((((k1.spend 2 (256 * n)).regionWrote 2 (256 * n)).tw T.BUF_Q_SPILLED (dw d) 0 (l * 16 + q)
    (k.td T.BUF_Q_SPILLED (dw d) 0 (l * 16 + q) + n)).wakeQueue d l q qEmpty pEmpty).spillersEval

/-- Enqueue one copy into the queue of a port of die `d`, or drop it (R335, R338, R339, R366, R370, R374). The group is
the caller's to release. The copy's turn keeps its place behind the copies of its queue, spilled ones too (R375). -/
def Core.enqueueOne (k' : Core) (d l q : Nat) (c : Copy) : Core :=
  let w := dw d
  let r := k'.takeId
  let k := r.2
  let c' := { c with die := d, pipe := l / 32, dp := 8 * d + l / 32, port := d * 256 + l, queue := q, turn := r.1 }
  if k.buf.dropping.get (d * 256 + l) = 1 then k.tbump T.BUF_PSTAT_DOWN_DROP w 0 l 1
  else if k.wdogDiscard d l q then k.tbump T.BUF_PSTAT_FLUSH_DROP w 0 l 1
  else if c.bad ∧ ¬ c.cut then k
  else if k.marking d l q ∧ (k.egOver d l q ∨ k.freeCells d = 0) then
    k.tbump T.BUF_PSTAT_EG_DROP_LIMIT w 0 l 1
  else if k.td T.BUF_Q_SPILLING w 0 (l * 16 + q) = 1 then
    if k.spillTakes (cellsOf c.frame.length) then k.spillCopy d l q c'
    else (k.queueCopy d l q { c' with cut := false }).raise w 0x28 3
  else k.queueCopy d l q c'

/-- The member ports of a multicast copy on its destination pipeline, in rising lane order (R230, R232). -/
def Core.mcLanes (k : Core) (d p group : Nat) : List Nat :=
  let m := k.td T.HVX_MCG_MEMBERS (dw d) p group
  ((List.range 32).filter fun i => bit m i == 1).map fun i => 32 * p + i

/-- A copy that has reached its destination pipeline is enqueued: once, or once for each member (R232, R233). The group
is settled by the caller. `ue`: the multicast entry reads uncorrectable there (R234). DESIGN CHOICE: a member bit without a
port counts in the invalid-destination statistic of the destination die, which reads MEMBERS; R38 names the ingress die for a
disposition. -/
def Core.enqueue (k : Core) (c : Copy) (ue : Bool) : Core :=
  let d := c.dp / 8
  let p := c.dp % 8
  match c.kind with
  | .multicast =>
    if ue then ((k.countDrop d p 15).ueFound (dw d) 4).raise (dw d) (0x18 + p) 1
    else
      (k.mcLanes d p c.group).foldl (fun k l =>
        if !k.portExists d l then k.invalidDest d
        else if c.noIngress ∧ c.inPort = d * 256 + l then k
        else
          let q := k.qmap d p c.tc
          let r := k.takeId
          r.2.enqueueOne d l q { c with id := r.1, replica := true, cut := k.cutOk c.inPort (d * 256 + l) q c.hostInjected }) k
  | _ => k.enqueueOne d (c.port % 256) c.queue { c with cut := k.cutOk c.inPort c.port c.queue c.hostInjected }

/-- A group of cells just charged to an ingress account. -/
def freshGrp (id d n l pg : Nat) : Grp :=
  { id, die := d, cells := n, ingress := some (d * 256 + l, pg), parked := none, landing := none, reserve := false, egress := [],
    waiting := 1, carriers := [] }

/-! ### Injection (R245, R482, R771) -/

/-- Inject a frame into stage 0 of a pipeline, charged to an ingress account with room and not in XOFF; none when it has
to wait. Its ingress parse runs; `entry` fixes the stage-0 offset, `prs` names a transition entry found uncorrectable. The account and
container 56 take the global port `g`, which may be another die's for a Focus frame (R482): that die's pool then carries the cells
while the ingress charge stands. -/
def Core.inject (k : Core) (d p g pg tc : Nat) (host : Bool) (entry : Option Nat) (frame : List Byte)
    (tsTag prs : Option Nat) : Option Core :=
  let a := g / 256
  let l := g % 256
  if k.inXoff a l pg then none
  else
    let n := cellsOf frame.length
    match k.admitCells a l pg n with
    | (_, _, some _) => none
    | (k1, _, none) =>
      let r := k1.takeId
      let s := r.2.takeId
      let k2 := s.2.addGrp { freshGrp r.1 d n l pg with ingress := some (g, pg) }
      let ns := BitVec.ofNat 32 k.time.ns
      let sec := BitVec.ofNat 32 k.time.sec
      let p0 := { freshPkt s.1 d p l pg (k.losslessPg a l pg) r.1 frame tc ns sec with
        srcDie := a, hostInjected := host, throttled := k.throttledNow d, tsTag := tsTag }
      let q := k2.parseIn p0 prs entry (k2.epoch d p false) 0
      some (q.1.moveOn q.2)

end Sys2Proof.Machine
end

