-- ==== Sys2Proof/Machine/Pipeline.lean ====
section
/-!
DEFINITION. The pipeline's commands (R143 to R195, R209, R241 to R244, R293): the parse, the execution of one microword
in a stage, waiting and parking, the order hold, replay, and the rewrite of a stage-store word. Also the end of the
egress half: the header rebuild and what becomes of the copy (R221 to R228, R340, R766 to R769).
-/
namespace Sys2Proof.Machine

/-! ### Stage stores (R118, R188 to R190) -/

/-- The key of a stage-store word. -/
def storeKey (d p st a : Nat) : Nat := ((d * 8 + p) * 18 + st) * 4096 + a

/-- INGRESS_PARSE (R44, R209 to R211): the oldest unparsed packet of a pipeline whose stores are ready is parsed and
enters stage 0. `ue` names a transition entry found uncorrectable, `ces` the memories that gave a corrected error. -/
def Core.ingressParse (k : Core) (d p : Nat) (ue : Option Nat) (ces : List (Fin 4096 × Fin 8)) : Core :=
  match k.pipes.pkts.find? fun x => x.die == d && x.pipe == p && x.place == .arrived with
  | none => k
  | some x =>
    if k.rd R.SEQ_STATUS_READY (dw d) p 0 = 0 then k
    else
      let r := (k.cesFound (dw d) ces).parseIn { x with throttled := k.throttledNow d } ue none (k.epoch d p false) 0
      r.1.moveOn r.2

/-- INGRESS_PARSE. -/
def execIngressParse (d p : Fin 8) (ue : Option (Fin 256)) (ces : List (Fin 4096 × Fin 8)) (s : State) :
    Host.Outcome State Fault Refusal := done (s.onCore fun k => k.ingressParse d p (ue.map (·.val)) ces)

/-! ### One microword (R125 to R154, R217) -/

/-- How a word ends its stage: the packet goes on at its new address, or its WAIT condition does not hold. -/
inductive StageEnd where
  | go (p : Pkt)
  | wait (p : Pkt)

/-- A container's value. -/
def Pkt.c (p : Pkt) (i : Nat) : Word := p.vec.getD i 0

/-- The lookup of a word (R132 to R137): the core after it and what it found, or none when the word makes no new lookup. -/
def Core.wordLookup (k : Core) (p : Pkt) (word : Nat) (slot : Option (Nat × Bool)) : Core × Option Found × Option Policed :=
  if ¬ wLookup word then (k, none, none)
  else
    let d := p.die
    let ue := slot.isSome
    let key := keyOf (key128 word p.vec)
    let learned (hi lo : Nat) : Nat := (p.c lo).toNat + 2 ^ 32 * (p.c hi).toNat
    let plain (r : Core × Found) : Core × Option Found × Option Policed := (r.1, some r.2, none)
    match wTable word with
    | 0 => plain (k.catLookup d p.pipe p.stage false key learned slot)
    | 1 => plain (k.catLookup d p.pipe p.stage true (keyOf (key256 word p.vec)) learned slot)
    | 2 => plain (k.lpmLookup d false key ue)
    | 3 => plain (k.lpmLookup d true key ue)
    | 4 => plain (k.fltLookup d (k.fltKey d p.pipe p.egress key p.vec))
    | 5 =>
      let r := k.polLookup d key (cont p.vec 57 13 0) (cont p.vec 56 21 20) ue
      (r.1, some r.2.found, some r.2)
    | 6 => plain (k.focLookup d key ue)
    | _ => (k, none, none)

/-- An error return of a deep lookup (R293, R313). -/
def Core.deepError (k : Core) (d : Nat) : Core := (k.bump R.CAT_DEEP_ERR_CNT (dw d) 0 0 1).raise (dw d) 0x23 0

/-- The die keeps fewer than 256 deep lookups outstanding (R292). -/
def Core.deepFree (k : Core) (d : Nat) : Bool :=
  decide (k.pipes.pkts.countP (fun p => p.die == d && (match p.deep with | .issued _ _ => true | _ => false)) < 256)

/-- Count a deep lookup that is issued. -/
def Core.deepCount (k : Core) (d : Nat) : Core := (k.count (dw d) 2 4 0 1).bump R.CAT_DEEP_LOOKUP_CNT (dw d) 0 0 1

/-- The deep lookup of a WAIT word (R137, R163, R292, R293): issued once, or queued behind 256 outstanding ones; one that
cannot be issued returns an error at once. -/
def Core.deepIssue (k : Core) (p : Pkt) (word : Nat) : Core × Pkt :=
  if ¬ wLookup word ∨ wTable word ≠ 7 ∨ p.reentry then (k, p)
  else
    let ws := key128 word p.vec
    if k.deepOn p.die then
      if k.deepFree p.die then (k.deepCount p.die, { p with deep := .issued ws k.time.now }) else (k, { p with deep := .queued ws })
    else (k.deepError p.die,
        { p with deep := .returned, res := [0, 0, 0, 0], resHit := false, resPoison := false, resErr := true })

/-- A packet takes a lookup's result (R135). -/
def Pkt.took (p : Pkt) (f : Found) : Pkt :=
  { p with res := f.res, resHit := f.hit, resPoison := f.poisoned, resErr := f.error }

/-- The output colour of a stream context goes to container 56, and its drop action writes a primary disposition
(R437). -/
def Core.police (k : Core) (p : Pkt) (q : Option Policed) : Pkt :=
  match q with
  | none => p
  | some r =>
    let p1 := match r.colour with
      | some c =>
        let w := (p.c 56 &&& ~~~0x00300000#32) ||| BitVec.ofNat 32 (c * 2 ^ 20)
        { p with vec := p.vec.set 56 w }
      | none => p
    if r.drops then { p1 with focusTmo := false, disp := some (7, BitVec.ofNat 32 (k.rd R.POL_CFG_DROP_REASON (dw p.die) 0 0)) } else p1

/-- DISP (R138, R225): a mirror request, a primary disposition, or nothing. -/
def Core.applyDisp (k : Core) (p : Pkt) (word : Nat) : Core × Pkt :=
  let kind := wDispKind word
  let operand := p.c (wDispCont word)
  if kind = 3 then
    if p.mirrors.length < 2 then (k, { p with mirrors := p.mirrors ++ [operand.toNat % 16] })
    else ((k.bump R.HVX_MIRROR_OVF_CNT (dw p.die) p.pipe 0 1).raise (dw p.die) (0x18 + p.pipe) 4, p)
  else if kind = 0 ∨ 8 ≤ kind then (k, p)
  else (k, { p with disp := some (kind, operand), focusTmo := false })

/-- TELEM (R140, R766): capture and profile of the last nonzero word; placement from the egress half only. -/
def Pkt.applyTelem (p : Pkt) (word : Nat) : Pkt :=
  let t := wTelem word
  if t = 0 then p
  else
    let p1 := { p with tCapt := (bits t 5 4, bits t 3 0) }
    if p.egress ∧ bits t 7 6 ≠ 0 then { p1 with tPlace := (bits t 7 6, bits t 3 0) } else p1

/-- The key of a word's lookup as formed at stage entry, for WAITSEL 0x03 (R132, R158). -/
def waitKeyOf (word : Nat) (vec : List Word) : Bool × Nat :=
  let wide := wTable word == 1
  (wide, keyOf (if wide then key256 word vec else key128 word vec))

/-- The WAITSEL condition of a word for a packet (R158, R195, R465). -/
def Core.waitHolds (k : Core) (p : Pkt) (word : Nat) : Bool :=
  match wWaitsel word with
  | 0x01 => p.deep == .returned
  | 0x02 => k.focAdmits p.die p.vec p.frame (p.c (wDispCont word)).toNat
  | 0x03 => !k.catLocked p.die p.waitKey.1 p.waitKey.2
  | c => c < 0x10 || c > 0x1F || p.flagSeen || bit (k.rd R.SEQ_SWFLAG_FLAG (dw p.die) p.pipe 0) (c - 0x10) == 1

/-- The stages in which every SEQ but WAIT acts as END (R147). -/
def lastStage (st : Nat) : Bool := st == 11 || st == 17

/-- The offset that follows (R143, R146), or none for END. WAIT counts as passed. -/
def nextOffset (word a : Nat) (hit : Bool) (flag : Bool) (vec : List Word) : Option Nat :=
  let next := (a + 1) % 2048
  let target := wTarget word % 2048
  match wSeq word with
  | 0x1 => some target
  | 0x2 => some (if hit then target else next)
  | 0x3 => some (if hit then next else target)
  | 0x4 => some (if flag then target else next)
  | 0x5 => some ((target + cont vec (wCond word) 3 0) % 2048)
  | 0x7 => none
  | _ => some next

/-- Execute a word for a packet: lookup, ALUs, then at the end of the stage colour, EDIT, DISP, TELEM and FLAGSET, and the
next address (R136, R141, R143 to R154, R217). DESIGN CHOICE: source 0x45 reads the time base itself on every die. A word
that runs again after a timed-out wait for a Focus window turns its Focus disposition into a drop (R165). -/
def Core.execWord (k : Core) (p : Pkt) (word : Nat) (tableUe : Option (Nat × Bool)) : Core × StageEnd :=
  let deep := k.deepIssue p word
  let look := deep.1.wordLookup deep.2 word tableUe
  let p1 := match look.2.1 with
    | some f => deep.2.took f
    | none => deep.2
  let early := if wCycles word = 0 then p else p1
  let t := k.time
  let env : SrcEnv := ⟨early.res, early.resHit, early.resPoison, early.resErr, BitVec.ofNat 32 t.ns, t.draws⟩
  let r := runAlus env word p.vec
  let k1 := { look.1 with time := { look.1.time with draws := look.1.time.draws + 16 } }
  let p2 := { p1 with vec := r.1, written := if p.egress then p1.written ++ aluWrites word else p1.written }
  let p3 := (k.police p2 look.2.2).applyEdit word
  let dk := k1.applyDisp p3 word
  let tmo := p.reentry && p.timedOut && wSeq word == 6 && wWaitsel word == 2
  let p4 := { dk.2.applyTelem word with
    flags := flagset word p.flags, focusTmo := dk.2.focusTmo || tmo, flagSeen := false, waitKey := waitKeyOf word p.vec }
  let hit := wLookup word && p4.resHit
  let ce : CondEnv := ⟨p.flags, p4.resHit, p4.resPoison, p4.resErr, p.timedOut, k.rd R.SEQ_SWFLAG_FLAG (dw p.die) p.pipe 0,
    p.recirculated, p.replayed⟩
  let isWait := wSeq word == 6 && !p.egress
  if isWait && !p.reentry && !dk.1.waitHolds p4 word then (dk.1, .wait p4)
  else
    let p5 := { p4 with reentry := false }
    if lastStage p.stage && !isWait then (dk.1, .go { p5 with ended := true })
    else match nextOffset word (p.addr % 2048) hit (condTrue ce r.2 (wCond word)) p4.vec with
      | some o => (dk.1, .go { p5 with addr := p.addr / 2048 * 2048 + o })
      | none => (dk.1, .go { p5 with ended := true })

/-! ### The end of the egress half (R221 to R228, R235, R340, R409, R766 to R769) -/

/-- Structural edits recorded, and the bytes they add (R220). -/
def structural (es : List EditRec) : Nat :=
  es.countP fun e => match e with
    | .remove _ | .insert .. => true
    | _ => false

/-- Raise a length field of `w` bytes at a place by 24. -/
def raiseLen (f : List Byte) (i : Nat) : List Byte := putBytes f i (toBe ((getBe f i 2 + 24) % 65536) 2)

/-- Place a trace record after a UDP header (R767): lengths and checksums follow. The IP header that holds it is the
valid header that starts nearest before it. -/
def placeAfterUdp (f : List Byte) (t : HdrTab) (udp : Nat × Nat) (rec' : List Byte) : List Byte :=
  let u := udp.1
  let at' := u + udp.2
  let f1 := f.take at' ++ rec' ++ f.drop at'
  let f2 := raiseLen f1 (u + 4)
  let ip := (t.filter fun x => decide (x.2.1 < u)).foldl (fun best x => match best with
    | none => some x.2.1
    | some b => if b < x.2.1 then some x.2.1 else some b) (none : Option Nat)
  match ip with
  | none => f2
  | some i =>
    let v := getBe f2 i 1 / 16
    let f3 := if v = 4 then
        let g := putBytes (raiseLen f2 (i + 2)) (i + 10) (toBe 0 2)
        putBytes g (i + 10) (toBe (inetSum ((g.drop i).take (4 * (getBe f2 i 1 % 16)))) 2)
      else if v = 6 then raiseLen f2 (i + 4) else f2
    if getBe f (u + 6) 2 = 0 then f3
    else
      let len := getBe f3 (u + 4) 2
      let addrs := if v = 6 then (f3.drop (i + 8)).take 32 else (f3.drop (i + 12)).take 8
      let pseudo := addrs ++ (if v = 6 then toBe len 4 ++ toBe 17 4 else toBe 17 2 ++ toBe len 2)
      let g := putBytes f3 (u + 6) (toBe 0 2)
      let s := inetSum (pseudo ++ (g.drop u).take len)
      putBytes g (u + 6) (toBe (if s = 0 then 65535 else s) 2)

/-- Place the trace record a packet asks for, or skip it (R766 to R768). -/
def Core.placeTrace (k : Core) (d : Nat) (pk : Pkt) (trace : List Byte) (original mtu : Nat) (f : List Byte) (t : HdrTab) :
    Core × List Byte :=
  let w := dw d
  let fits := decide (structural pk.edits < 4) && decide (f.length + 24 ≤ original + 128) && decide (f.length + 28 ≤ mtu)
  let skip := (k.bump R.TRC_SKIP_CNT w 0 0 1, f)
  if pk.tPlace.1 = 0 ∨ pk.tPlace.1 = 3 then (k, f)
  else if ¬ fits then skip
  else if pk.tPlace.1 = 1 then
    match HdrTab.at t (k.td T.TRC_PROF_UDP_HDR w 0 pk.tCapt.2) with
    | some udp => (k.bump R.TRC_INSERT_CNT w 0 0 1, placeAfterUdp f t udp trace)
    | none => skip
  else (k.bump R.TRC_INSERT_CNT w 0 0 1, f ++ trace)

/-- What a trace record of a copy says (R764, R765). -/
def Core.egTrace (k : Core) (c : Copy) (p : Pkt) : TraceInfo :=
  let cross := c.inPort / 256 != c.dp / 8
  ⟨b2n (c.throttled || k.throttledNow (c.dp / 8)) + 2 * b2n c.cut + 4 * b2n cross + 8 * b2n (c.replayed || p.replayed) +
    16 * b2n c.spilled, c.inPort, some (c.port, c.queue), c.carried.c60, c.carried.c61,
    k.residence c.carried.c60 c.carried.c61, c.qdepth⟩

/-- A mirror copy of the egress half (R235). Its cells are lossy (R236): admission tests the account of the egress port and the
PG of container 56 as for a lossy frame, and the shared pool carries them with no charge to that account, which the copy
so never puts under back-pressure; an egress account that comes to hold them carries them as any (R779). The containers
travel as they stood at the end of stage 11 (R196, R200). DESIGN CHOICE: the spec names no account for it. -/
def Core.egMirror (k : Core) (p : Pkt) (c : Copy) (frame : List Byte) (s : Nat) : Core :=
  let w := dw p.die
  let x (i : Nat) : Nat := (p.mirs.getD s []).getD i 0
  let d := p.die
  let l := c.port % 256
  let pg := bits c.carried.c56.toNat 14 12
  let free := k.freeCells d
  if x 0 = 0 then k
  else
    let f := truncFrame frame (64 * x 1)
    let n := cellsOf f.length
    if overLimit (k.ingS d l pg) (k.td T.BUF_PG_ALPHA w 0 (l * 8 + pg)) free ∨ free < n then
      k.tbump T.BUF_PSTAT_IN_DROP_LOSSY w 0 l 1
    else
      let r := k.takeId
      let g : Grp := { freshGrp r.1 d n l pg with ingress := none, carriers := List.replicate n .mirror }
      let k2 := ((r.2.addGrp g).setCarried d (k.buf.carried.get d + n)).moved d free
      let m := { p.mkCopy with
        grp := r.1, kind := .mirror, tc := c.tc, carried := c.carried, inPort := c.inPort, lossless := false, frame := f, entry := x 4,
        bad := c.bad, short := false, tsTag := none }
      (k2.toPort m (x 2) (x 3)).copyGone r.1

/-- The rebuilt frame of a copy at the end of its egress half: body, whether it was marked CE, or none (R221, R223,
R340). -/
def Core.rebuilt (k : Core) (p : Pkt) (c : Copy) : Option (List Byte × HdrTab × Bool) :=
  let w := dw p.die
  match k.rebuildBody p.die p.pipe p c.body with
  | none => none
  | some (f, t) =>
    if k.mtu p.die (c.port % 256) < f.length + 4 then none
    else
      let m := if c.marked then markCe (k.rd R.BUF_MARK_CFG_V4_HDR w 0 0) (k.rd R.BUF_MARK_CFG_V6_HDR w 0 0) f t else (f, false)
      some (m.1, t, m.2)

/-- The rebuild reads a template. -/
def Pkt.inserts (p : Pkt) : Bool := p.edits.any fun e => match e with
  | .insert .. => true
  | _ => false

/-- A copy leaves its egress half: the rebuild, telemetry, mirrors, and the copy to its port, to the host, or dropped. `ue`:
a template entry it reads is uncorrectable (R234). DESIGN CHOICE: a copy whose rebuild fails, or whose template is
uncorrectable, makes no mirror copy, for there is no rebuilt frame. -/
def Core.leaveEgress (k : Core) (p : Pkt) (c : Copy) (ue : Bool) : Core :=
  let d := p.die
  let w := dw d
  let l := c.port % 256
  let k0 := k.removePkt p.id
  let gone (k : Core) : Core := (k.releaseEgress c l c.queue).noteIdle d l c.queue
  if ue && p.inserts then gone (((k0.countDrop d p.pipe 15).ueFound w 4).raise w (0x18 + p.pipe) 1)
  else match k0.rebuilt p c with
  | none => gone ((k0.bump R.HVX_EDIT_FAIL_CNT w p.pipe 0 1).raise w (0x18 + p.pipe) 2)
  | some (f, t, ce) =>
    let k1 := if ce then (k0.tbump T.BUF_PSTAT_CE_MARKED w 0 l 1).count w 3 4 (l / 32) 1 else k0
    let info := k1.egTrace c p
    let tr := k1.placeTrace d p (k1.traceRecord d p.tCapt.2 info) c.body.length (k1.mtu d l) f t
    let frame := withFcs tr.2
    let k2 := tr.1.capture d p.pipe true p.tCapt info frame
    let k3 := p.mirrors.foldl (fun k s => k.egMirror p c frame s) k2
    match p.disp with
    | some (4, operand) => gone (if c.bad then k3 else k3.toHost operand.toNat p.vec frame)
    | some (7, operand) => gone (k3.countDrop d p.pipe operand.toNat)
    | _ =>
      let tag := match c.tsTag with
        | some t => (255, t)
        | none => (if c.hostInjected then 0 else p.flags, cont p.vec 55 15 0)
      { k3 with egr := { k3.egr with sending := k3.egr.sending ++ [⟨c, frame, tag.1, tag.2, k3.time.tod⟩] } }

/-! ### Parking and holding (R159 to R169) -/

/-- A stage stall begins or goes on (R160): the first stalled cclk raises the event. -/
def Core.stall (k : Core) (d p : Nat) : Core :=
  let key := d * 8 + p
  if k.pipes.stallSince.get key ≠ 0 then k
  else
    let now := k.time.now + 1
    ({ k with pipes := { k.pipes with
        stallSince := k.pipes.stallSince.set key now, stallFrom := k.pipes.stallFrom.set key now,
        stallParts := k.pipes.stallParts.set key 0 } }).raise (dw d) (8 + p) 1

/-- The last stall of a pipeline ends: its cclk count (R160). -/
def Core.unstall (k : Core) (d p : Nat) : Core :=
  let key := d * 8 + p
  let still := k.pipes.pkts.any fun x => x.die == d && x.pipe == p &&
    match x.place with
    | .stalled _ => true
    | _ => false
  let since := k.pipes.stallSince.get key
  if still ∨ since = 0 then k
  else
    let cclk := k.stallCclk d p
    (({ k with pipes := { k.pipes with stallSince := k.pipes.stallSince.set key 0 } }).add64 R.SEQ_STALL_CCLK_LO
      R.SEQ_STALL_CCLK_HI (dw d) p 0 cclk).count (dw d) 1 5 p cclk

/-- The cells a packet's group takes in a parking pool. -/
def Core.grpCells (k : Core) (id : Nat) : Nat := match k.grp id with
  | some g => g.cells
  | none => 0

/-- Park or hold a packet, or stall its stage when no entry or room is free (R159, R160, R167). -/
def Core.parkOr (k0 : Core) (p : Pkt) (place : Place) (hold : Bool) : Core :=
  let r := k0.takeId
  let k := r.2
  if k.canPark p.die p.pipe (k.grpCells p.grp) then
    let k1 := (k.parkGrp p.grp p.pipe).putPkt { p with place := place, parkSeq := r.1 }
    if hold then (k1.bump R.SEQ_ORDER_HOLD_CNT (dw p.die) p.pipe 0 1).count (dw p.die) 1 4 p.pipe 1
    else k1.count (dw p.die) 1 3 p.pipe 1
  else (k.putPkt { p with place := .stalled hold }).stall p.die p.pipe

/-- Park a packet on its word's condition; on WAITSEL 0x02 it causes no holds (R169). -/
def Core.park (k : Core) (p : Pkt) (word : Nat) : Core :=
  let tmo := k.rd R.SEQ_PARK_TMO_MICROSEC (dw p.die) p.pipe 0
  k.parkOr { p with timedOut := false, detained := wWaitsel word != 2 }
    (.parked (wWaitsel word) k.time.now tmo) false

/-- An earlier packet of the same ingress port that a later one waits for (R48, R167): it has parked or been replayed in
this pass and has not left the ingress half, or it is itself held. -/
def Core.mustHold (k : Core) (p : Pkt) : Bool :=
  k.pipes.pkts.any fun x => decide (x.id < p.id) && x.die == p.die && x.inPort == p.inPort && !x.egress &&
    (x.detained || x.place == .held)

/-- The packet's disposition at the end of stage 11 is to Focus, not the drop of a timed-out wait (R165, R169). -/
def Pkt.toFocus (p : Pkt) : Bool := match p.disp with
  | some (5, _) => !p.focusTmo
  | _ => false

/-- The packet is parked with WAITSEL 0x02: no packet is held on its behalf (R169). -/
def Pkt.focusParked (p : Pkt) : Bool := match p.place with
  | .parked wsel .. => wsel == 2
  | .woken wsel _ => wsel == 2
  | _ => false

/-- A packet ends stage 11: held, or it leaves (R167, R169). -/
def Core.endIngress (k : Core) (p : Pkt) (ue : Bool) : Core :=
  if !p.toFocus && k.mustHold p then k.parkOr p .held true else k.leaveIngress p ue

/-- An earlier copy of the same port and queue is still in the egress half (R243). -/
def Core.egressBehind (k : Core) (p : Pkt) (c : Copy) : Bool :=
  k.pipes.pkts.any fun x => decide (x.id < p.id) && match x.copy with
    | some y => y.port == c.port && y.queue == c.queue
    | none => false

/-- A packet leaves its stage: into the next, or out of its half (R147, R148). -/
def Core.advance (k : Core) (p : Pkt) (ue : Bool) : Core :=
  if p.stage = 11 then k.endIngress p ue
  else if p.stage = 17 then
    match p.copy with
    | some c => k.leaveEgress p c ue
    | none => k.removePkt p.id
  else k.moveOn { p with stage := p.stage + 1 }

/-! ### Replay (R241 to R244) -/

/-- The mirror sessions of a pipeline as HVX_MIR holds them now: EN, TRUNC, PORT, QUEUE, EG_ENTRY. -/
def Core.mirSessions (k : Core) (d p : Nat) : List (List Nat) :=
  (List.range 16).map fun s => [R.HVX_MIR_A_EN, R.HVX_MIR_A_TRUNC, R.HVX_MIR_A_PORT, R.HVX_MIR_A_QUEUE,
    R.HVX_MIR_B_EG_ENTRY].map fun f => k.rd f (dw d) p s

/-- The egress packet of a copy at the start of its half: parse, vector, stage 12, the mirror sessions the half uses (R122,
R196, R200, R249). `prs`: the transition entry found uncorrectable. -/
def Core.startEgress (k : Core) (p : Pkt) (c : Copy) (half : Nat) (prs : Option Nat) : Core × Pkt :=
  let e := k.parse p.die p.pipe true c.frame prs
  let k1 := (k.parseErrors p.die p.pipe e).count (dw p.die) 1 2 p.pipe 1
  let vec := egressVector e c.frame.length c.carried (egInfo c.cut c.replica (c.kind == .mirror) c.queue c.port)
  (k1, { p with
    place := .stage, stage := 12, addr := half * 2048 + c.entry % 2048, ended := false, vec := vec, binds := e.st.binds,
    written := [], hdrs := e.st.hdrs, flags := c.carried.flags, res := [0, 0, 0, 0], resHit := false, resPoison := false,
    resErr := false, deep := .idle, disp := none, mirrors := [], edits := [], tPlace := (0, 0), tCapt := (0, 0),
    timedOut := c.timedOut, recirculated := c.recirculated, reentry := false, mirs := k.mirSessions p.die p.pipe })

/-- The vector of a packet fails its check (R241 to R244): the first time in a half it is rebuilt from the frame and the
packet starts its half again with its epoch kept; the second time it is dropped. -/
def Core.replay (k : Core) (p : Pkt) (prs : Option Nat) : Core :=
  let w := dw p.die
  if p.replayed then
    let k1 := (k.bump R.HVX_HV_DROP_CNT w p.pipe 0 1).raise w (0x18 + p.pipe) 0
    match p.copy with
    | some c => ((k1.removePkt p.id).releaseEgress c (c.port % 256) c.queue).noteIdle p.die (c.port % 256) c.queue
    | none => k1.dropPkt p
  else
    let k1 := ((k.bump R.HVX_HV_REPLAY_CNT w p.pipe 0 1).ceFound w (0x18 + p.pipe) 2 3).count w 1 7 p.pipe 1
    let r := match p.copy with
      | some c => k1.startEgress p c (p.addr / 2048) prs
      | none => k1.parseIn p prs none (p.addr / 2048) (cont p.vec 56 26 24)
    r.1.moveOn { r.2 with replayed := true, detained := true }

/-! ### STAGE_EXECUTE -/

/-- The packet is the oldest of its stage: stages retire in order, and a stalled stage retires nothing (R152, R160). -/
def Core.firstInStage (k : Core) (p : Pkt) : Bool :=
  match k.pipes.pkts.find? fun x => x.die == p.die && x.pipe == p.pipe && x.stage == p.stage &&
      (match x.place with
       | .stage | .stalled _ => true
       | _ => false) with
  | some x => x.id == p.id
  | none => false

/-- A packet fetched an uncorrectable word (R189): dropped, counted and logged; the word stays marked. -/
def Core.storeUe (k : Core) (p : Pkt) (key : Nat) : Core :=
  let w := dw p.die
  let k1 := { k with pipes := { k.pipes with storeUe := (key :: k.pipes.storeUe).eraseDups } }
  let k2 := ((k1.bump R.SEQ_UE_DROP_CNT w p.pipe 0 1).ueFound w 0).raise w (8 + p.pipe) 0
  let k3 := if k2.rd R.SEQ_UE_LOG_VALID w p.pipe 0 = 1 then k2
    else ((k2.wr R.SEQ_UE_LOG_VALID w p.pipe 0 1).wr R.SEQ_UE_LOG_STAGE w p.pipe 0 p.stage).wr R.SEQ_UE_LOG_ADDR w p.pipe 0
      p.addr
  match p.copy with
  | some c => ((k3.removePkt p.id).releaseEgress c (c.port % 256) c.queue).noteIdle p.die (c.port % 256) c.queue
  | none => k3.dropPkt p

/-- STAGE_EXECUTE (R143 to R155): the packet executes its stage. A packet past END passes without a fetch. A fetched word
may have a correctable error, which is corrected, or an uncorrectable one, which drops the packet; a parity failure of the
vector at a read of the word, or of the rebuild after stage 17, replays it; `defer` leaves a lookup that was not served for
the next cclk (R253, R435). -/
def Core.stageExecute (k : Core) (id : Nat) (x : StageFacts) : Core :=
  match k.pkt id with
  | none => k
  | some p =>
    if p.place ≠ .stage ∨ ¬ k.firstInStage p then k
    else
      let blocked := p.stage == 17 && (match p.copy with
        | some c => k.egressBehind p c
        | none => false)
      let prs := x.prs.map (·.val)
      let rebuild := x.rebuild && p.stage == 17
      if blocked then k
      else if p.ended then
        if rebuild then k.replay p prs else (k.cesFound (dw p.die) x.ces).advance p x.entryUe
      else
        let key := storeKey p.die p.pipe p.stage p.addr
        let word := k.pipes.store.get key
        if k.pipes.storeUe.contains key ∨ x.fetch = .ue then k.storeUe p key
        else
          let k1 := if x.fetch = .ce then k.ceFound (dw p.die) (8 + p.pipe) 0 0 else k
          if x.parity then k1.replay p prs
          else if x.defer ∧ wLookup word then k1
          else match (k1.cesFound (dw p.die) x.ces).execWord p word (x.lookupUe.map fun u => (u.1.val, u.2)) with
            | (k2, .wait p') => k2.park p' word
            | (k2, .go p') => if rebuild then k2.replay p' prs else k2.advance p' x.entryUe

/-- STAGE_EXECUTE. -/
def execStageExecute (id : Nat) (facts : StageFacts) (s : State) : Host.Outcome State Fault Refusal :=
  done (s.onCore fun k => k.stageExecute id facts)

/-! ### Returning, waking, timing out, releasing -/

/-- The deep lookup of a key (R291, R293, R616): two lines of region 1 are read; `poisoned` says which of them the device finds
poisoned. -/
def Core.deepLookup (k' : Core) (d key poisoned : Nat) : Core × Found :=
  let w := dw d
  let lines := k'.deepLines d key
  let k := k'.poisonPair lines poisoned
  let a := k.readLine 1 lines.1
  let b := a.1.readLine 1 lines.2
  if a.2.2 || b.2.2 then ((b.1.bump R.CAT_DEEP_POISON_CNT w 0 0 1).raise w 0x23 1, { Found.miss with poisoned := true })
  else
    let halves := [halfOf a.2.1 0, halfOf a.2.1 1, halfOf b.2.1 0, halfOf b.2.1 1]
    match halves.find? (deepIs · key) with
    | some e => (b.1.bump R.CAT_DEEP_HIT_CNT w 0 0 1,
        ⟨dataWords (e / 2 ^ 128 % 2 ^ 64) ++ [0, 0], true, false, false⟩)
    | none => (b.1, .miss)

/-- Issue the die's oldest queued deep lookup while there is a place for it (R292). -/
def Core.deepNext (k : Core) (d : Nat) : Core :=
  if ¬ k.deepFree d then k
  else match k.pipes.pkts.findSome? fun p => match p.deep with
      | .queued ws => if p.die = d then some (p, ws) else none
      | _ => none with
    | some (p, ws) => (k.deepCount d).putPkt { p with deep := .issued ws k.time.now }
    | none => k

/-- The result of a deep lookup that is issued. -/
def Core.deepAnswer (k : Core) (p : Pkt) (ws : List Word) (since poisoned : Nat) (timeout : Bool) : Core :=
  if timeout ∨ ¬ k.deepOn p.die then
    (k.deepError p.die).putPkt { p.took { Found.miss with error := true } with deep := .returned }
  else if k.tokens 1 < 128 then k
  else
    let r := (k.answered 1 since).deepLookup p.die (keyOf ws) poisoned
    r.1.putPkt { p.took r.2 with deep := .returned }

/-- DEEP_LOOKUP_RETURN (R293): the result of a packet's deep lookup; `poisoned` says which of its two lines are poisoned,
`timeout` that the memory did not answer. A lookup
that finds too little budget stays outstanding; a queued one is issued first, once there is a place (R292), or ends in error
with the others when the memory is lost. -/
def Core.deepReturn (k : Core) (id poisoned : Nat) (timeout : Bool) : Core :=
  match k.pkt id with
  | none => k
  | some p =>
    match p.deep with
    | .issued ws since => (k.deepAnswer p ws since poisoned timeout).deepNext p.die
    | .queued ws =>
      if timeout ∨ ¬ k.deepOn p.die then k.deepAnswer p ws k.time.now poisoned timeout
      else if k.deepFree p.die then ((k.deepCount p.die).deepAnswer
        { p with deep := .issued ws k.time.now } ws k.time.now poisoned timeout)
      else k
    | _ => k

/-- DEEP_LOOKUP_RETURN. -/
def execDeepLookupReturn (id : Nat) (poisoned : Fin 4) (timeout : Bool) (s : State) : Host.Outcome State Fault Refusal :=
  done (s.onCore fun k => k.deepReturn id poisoned timeout)

/-- The word a packet stands at. -/
def Core.wordOf (k : Core) (p : Pkt) : Nat := k.pipes.store.get (storeKey p.die p.pipe p.stage p.addr)

/-- PARK_STALL_RELEASE (R160): a stalled packet parks, or is held, once an entry and room are free. -/
def Core.stallRelease (k : Core) (id : Nat) : Core :=
  match k.pkt id with
  | none => k
  | some p =>
    match p.place with
    | .stalled hold =>
      if ¬ k.canPark p.die p.pipe (k.grpCells p.grp) then k
      else (if hold then k.parkOr p .held true else k.park p (k.wordOf p)).unstall p.die p.pipe
    | _ => k

/-- PARK_STALL_RELEASE. -/
def execParkStallRelease (id : Nat) (s : State) : Host.Outcome State Fault Refusal :=
  done (s.onCore fun k => k.stallRelease id)

/-- A packet is parked in the pipeline of another, has been so for longer, and is ready: its condition holds, or its timeout has
come. -/
def Core.readyBefore (k : Core) (x p : Pkt) : Bool :=
  x.die == p.die && x.pipe == p.pipe && decide (x.parkSeq < p.parkSeq) &&
    (match x.place with
     | .parked _ since tmo => k.waitHolds x (k.wordOf x) || decide (since + tmo * 1000 ≤ k.time.now)
     | _ => false)

/-- PARK_WAKE (R161, R162): the condition of a parked packet holds, and a slot is inserted for it. While one that parked
earlier is ready too, that one comes first. -/
def Core.parkWake (k : Core) (id : Nat) : Core :=
  match k.pkt id with
  | none => k
  | some p =>
    match p.place with
    | .parked wsel _ _ =>
      if k.waitHolds p (k.wordOf p) ∧ ¬ k.pipes.pkts.any (k.readyBefore · p) then
        k.putPkt { p with place := .woken wsel k.time.now }
      else k
    | _ => k

/-- PARK_WAKE. -/
def execParkWake (id : Nat) (s : State) : Host.Outcome State Fault Refusal := done (s.onCore fun k => k.parkWake id)

/-- The cclk of a die that an instant falls into, at the present rate (R16). -/
def Core.cclkAt (k : Core) (d t : Nat) : Nat := t * k.cclkRate d / 12288000

/-- A packet that parked before another of its pipeline and became ready in the same cclk still waits for its slot (R162). -/
def Core.wokenBefore (k : Core) (x p : Pkt) (at' : Nat) : Bool :=
  x.die == p.die && x.pipe == p.pipe && decide (x.parkSeq < p.parkSeq) &&
    (match x.place with
     | .woken _ t => k.cclkAt p.die t == k.cclkAt p.die at'
     | _ => false)

/-- PARK_REENTRY (R161 to R164): a woken packet re-enters its WAIT stage, after those that parked before it and became ready
with it; its cells return to its ingress account with no admission test. When the parking store's entry is found uncorrectable
(`ue`), the packet is dropped and its cells are released (R570, class 1). -/
def Core.parkReentry (k : Core) (id : Nat) (ue : Bool) : Core :=
  match k.pkt id with
  | none => k
  | some p =>
    match p.place with
    | .woken _ at' =>
      if k.pipes.pkts.any (k.wokenBefore · p at') then k
      else if ue then
        (((k.unparkGrp p.grp).ueFound (dw p.die) 1).raise (dw p.die) (8 + p.pipe) 0).dropPkt p
      else (k.unparkGrp p.grp).moveOn { p with place := .stage, reentry := true }
    | _ => k

/-- PARK_REENTRY. -/
def execParkReentry (id : Nat) (ue : Bool) (s : State) : Host.Outcome State Fault Refusal :=
  done (s.onCore fun k => k.parkReentry id ue)

/-- PARK_TIMEOUT (R162, R165, R195): a packet parked for its timeout re-enters with the timed-out indication, unless its
condition holds. While one that parked earlier is ready too, that one comes first. -/
def Core.parkTimeout (k : Core) (id : Nat) : Core :=
  match k.pkt id with
  | none => k
  | some p =>
    match p.place with
    | .parked wsel since tmo =>
      if k.time.now < since + tmo * 1000 ∨ k.waitHolds p (k.wordOf p) ∨ k.pipes.pkts.any (k.readyBefore · p) then k
      else
        let p1 := if wsel = 1 then { p.took { Found.miss with error := true } with deep := .returned } else p
        ((k.bump R.SEQ_PARK_TMO_CNT (dw p.die) p.pipe 0 1).raise (dw p.die) (8 + p.pipe) 2).putPkt
          { p1 with place := .woken wsel k.time.now, timedOut := true }
    | _ => k

/-- PARK_TIMEOUT. -/
def execParkTimeout (id : Nat) (s : State) : Host.Outcome State Fault Refusal := done (s.onCore fun k => k.parkTimeout id)

/-- ORDER_HOLD_RELEASE (R164, R168): a held packet passes to admission when every earlier packet of its port has left
stage 11 or been dropped; a recirculating packet (R48) and one parked with WAITSEL 0x02 (R169) are not waited for. `ue`: its
multicast entry reads uncorrectable (R234). -/
def Core.holdRelease (k : Core) (id : Nat) (ue : Bool) : Core :=
  match k.pkt id with
  | none => k
  | some p =>
    let earlier := k.pipes.pkts.any fun x => decide (x.id < p.id) && x.die == p.die && x.inPort == p.inPort && !x.egress &&
      !x.recirculated && x.place != .arrived && !x.focusParked
    if p.place ≠ .held ∨ earlier then k else (k.unparkGrp p.grp).leaveIngress p ue

/-- ORDER_HOLD_RELEASE. -/
def execOrderHoldRelease (id : Nat) (ue : Bool) (s : State) : Host.Outcome State Fault Refusal :=
  done (s.onCore fun k => k.holdRelease id ue)

end Sys2Proof.Machine
end

