-- ==== Sys2Proof/Machine/Buffer.lean ====
section
/-!
DEFINITION. The buffer's commands (R42 to R44, R320 to R335, R347, R365 to R375, R537): receiving frames, priority flow
control, the watchdog, down-hold, the local transfer, stop messages and spilling.
-/
namespace Sys2Proof.Machine

/-! ### The receive classifier (R320 to R322) -/

/-- The first VLAN tag's PCP, when there is one (R321). -/
def framePcp (f : List Byte) : Option Nat :=
  let t := getBe f 12 2
  if t = 0x8100 ∨ t = 0x88A8 then some (getBe f 14 2 / 2 ^ 13) else none

/-- The DSCP of an IP header right after the Ethernet header or its one tag (R321). -/
def frameDscp (f : List Byte) : Option Nat :=
  let o := if (framePcp f).isSome then 16 else 12
  let ty := getBe f o 2
  if ty = 0x0800 then some (getBe f (o + 3) 1 / 4)
  else if ty = 0x86DD then some (getBe f (o + 2) 2 / 64 % 64)
  else none

/-- PG and TC of a received frame (R320, R321). -/
def Core.classify (k : Core) (d l : Nat) (f : List Byte) : Nat × Nat :=
  let prof := k.td T.BUF_PORT_PROFILE (dw d) 0 l
  let x (t : TFld) : Nat := k.td t (dw d) 0 prof
  let dflt := (x T.BUF_CLS_DEF_PG, x T.BUF_CLS_DEF_TC)
  let at' (map i : Nat) : Nat × Nat := (map / 2 ^ (6 * i + 3) % 8, map / 2 ^ (6 * i) % 8)
  let byPcp := match framePcp f with
    | some p => at' (x T.BUF_CLS_PCP) p
    | none => dflt
  match x T.BUF_CLS_MODE with
  | 0 => dflt
  | 1 => byPcp
  | 2 => match frameDscp f with
    | some c => at' (x T.BUF_CLS_DSCP) c
    | none => dflt
  | _ => match frameDscp f with
    | some c => at' (x T.BUF_CLS_DSCP) c
    | none => byPcp

/-! ### FRAME_RECEIVE (R42, R324, R326, R365, R407, R535, R537, R761) -/

/-- The FCS of a frame is right. -/
def fcsGood (f : List Byte) : Bool := f.drop (f.length - 4) == fcsOf (bodyOf f)

/-- The address-kind statistic of a frame: 0 unicast, 1 multicast, 2 broadcast. -/
def addrKind (f : List Byte) : Nat :=
  let a := getBe f 0 6
  if a = 2 ^ 48 - 1 then 2 else if a / 2 ^ 40 % 2 = 1 then 1 else 0

/-- Receive statistics of a frame of 64 bytes or more as it arrived (R761). -/
def Core.rxStats (k : Core) (d l : Nat) (f : List Byte) (tooLong good : Bool) : Core :=
  let n := f.length
  if tooLong then k.pstat d l 4 1
  else
    let k1 := k.pstat d l (11 + sizeIndex n) 1
    if good then ((k1.pstat d l 0 1).pstat d l 1 n).pstat d l (5 + addrKind f) 1 else k1.pstat d l 2 1

/-- The frame's PFC frame or other MAC control frame takes effect (R333). -/
def Core.macControl (k : Core) (d l : Nat) (f : List Byte) : Core :=
  let w := dw d
  if getBe f 14 2 = 0x0101 ∧ k.td T.BUF_PORT_PFC_RX_EN w 0 l = 1 then
    let en := getBe f 16 2 % 256
    let k1 := (k.pstat d l 8 1).tbump T.BUF_PSTAT_PFC_RX_FRAMES w 0 l 1
    Core.watchPort ((List.range 8).foldl (fun k g =>
      if bit en g = 0 then k
      else
        let t := getBe f (18 + 2 * g) 2
        let key := (d * 256 + l) * 8 + g
        let mask := k.td T.BUF_PORT_PAUSED_RX w 0 l
        let ns := t * 512 / max (k.portGbps d l) 1
        let ends := k.buf.pauseEnd.set key (if t = 0 then 0 else k.time.now + ns + 1)
        let qs := (List.range 16).filter fun q => bit (k.qmask d l g) q == 1
        let last := qs.foldl (fun m q => m.set ((d * 256 + l) * 16 + q) (k.time.now + 1)) k.buf.lastPaused
        ({ k with buf := { k.buf with pauseEnd := ends, lastPaused := last } }).tw T.BUF_PORT_PAUSED_RX w 0 l
          (if t = 0 then mask - (mask &&& 2 ^ g) else mask ||| 2 ^ g)) k1) d l
  else k.pstat d l 9 1

/-- A frame of a port is admitted cell by cell and waits for its parse (R42, R324, R326). `short`: its end is missing, FCS
and all. A frame that R324 cuts goes on as far as it was admitted, bad: the copies of it that are cut through are stomped,
the others are dropped (R326, R366). -/
def Core.admitFrame (k : Core) (d l : Nat) (f : List Byte) (bad short : Bool) : Core :=
  let (pg, tc) := k.classify d l f
  let n := cellsOf f.length
  let lossless := k.losslessPg d l pg
  let r := k.admitCells d l pg n
  let stat := if lossless then (r.1.tbump T.BUF_PSTAT_IN_DROP_HDRM (dw d) 0 l 1).bump R.BUF_HDRM_OVF_CNT (dw d) 0 0 1
    else r.1.tbump T.BUF_PSTAT_IN_DROP_LOSSY (dw d) 0 l 1
  let stat' := if lossless then stat.raise (dw d) 0x28 0 else stat
  -- one that ended within its first cell, or has none, is dropped; a longer one is truncated and bad
  let cut := r.2.2.isSome
  let k1 := if cut then stat' else r.1
  let cells := r.2.1
  if cells ≤ 1 ∧ (cut ∨ bad) then (k1.releaseIngress d l pg cells).afterRelease d l pg (k1.freeCells d)
  else
    let frame := if cut then f.take (256 * cells) else f
    let a := k1.takeId
    let b := a.2.takeId
    let k2 := b.2.addGrp (freshGrp a.1 d cells l pg)
    let comp := k.td T.STB_COMP_RX_COMP (dw d) 0 l
    let t := ((k.time.tod : Int) - signed comp).toNat
    let p := freshPkt b.1 d (l / 32) l pg lossless a.1 frame tc (BitVec.ofNat 32 (t / 65536 % 1000000000))
      (BitVec.ofNat 32 (t / secUnits))
    k2.moveOn { p with bad := bad || cut, short := short || cut }

/-- The codewords of a frame: those corrected, with the symbols corrected on each lane of the port (R534), and one that
was uncorrectable (R535). -/
def Core.fecSeen (k : Core) (d l : Nat) (coded : Bool) (corrected : Nat) (symbols : List Nat) : Core :=
  let w := dw d
  let o := l / 8
  let n := portLanes (k.rd R.PRT_OCT_CFG_MODE w o 0)
  let k1 := (k.tbump T.PRT_PORT_CORR_CW w o (l % 8) corrected).count w 7 0 o corrected
  let k2 := (List.range n).foldl (fun k i => k.bump R.PRT_FEC_SYM w o (l % 8 + i) (symbols.getD i 0)) k1
  if coded then ((k2.tbump T.PRT_PORT_UNCORR_CW w o (l % 8) 1).count w 7 1 o 1).raise w (0xA0 + o) 3 else k2

/-- The codewords a frame given as bytes came in, each as the places of its wrong symbols: those the code corrects and those it
cannot (R534). DESIGN CHOICE (log 122): the first of them stands first in its set of codewords. -/
def Core.wordsSeen (k : Core) (d l : Nat) (words : List (List Nat)) (shared : Bool) : Core :=
  ((List.range words.length).zip words).foldl (fun k x =>
    if x.1 = 0 ∧ shared then k
    else if (k.lineForm d l).spoilt x.2 then k.fecSeen d l true 0 []
    else k.fecSeen d l false (b2n (!x.2.isEmpty)) (k.fixedPerLane d l x.1 x.2)) k

/-- The stores of a port's pipeline are ready: its MAC is out of reset (R182). -/
def Core.macReady (k : Core) (d l : Nat) : Bool := k.rd R.SEQ_STATUS_READY (dw d) (l / 32) 0 == 1

/-- The MAC takes a frame that the port's PCS delivers, FCS included, when the pipeline is ready (R182, R537): `coded` says an
uncorrectable codeword overlapped it (R535); `short`, that the link went down before its end (R371). -/
def Core.macReceive (k : Core) (d l : Nat) (f : List Byte) (coded short : Bool) : Core :=
  if ¬ k.macReady d l then k
  else
    let k1 := k.pstat d l 10 f.length
    if f.length < 64 then k1.pstat d l 3 1
    else
      let mtu := k.mtu d l
      let tooLong := decide (mtu < f.length)
      let good := !tooLong && !coded && !short && fcsGood f
      let k2 := k1.rxStats d l f tooLong good
      if good ∧ getBe f 12 2 = 0x8808 then k2.macControl d l f
      else k2.admitFrame d l (f.take mtu) (!good) (short || tooLong)

/-- The port receives: it exists, its link is up and its die is in service. -/
def Core.receives (k : Core) (d l : Nat) : Bool := k.portExists d l && k.linkUp d l && !k.fenced d

/-- The wrong symbols of the codewords a frame came in, as a port's code sees them: none where there is no FEC (R533, R534). -/
def Core.codedWords (k : Core) (d l : Nat) (words : List (List Nat)) : List (List Nat) :=
  let x := k.lineForm d l
  if x.fec then words.map fun e => (e.filter (decide <| · < 514 + x.check)).eraseDups else []

/-- FRAME_RECEIVE of a frame given as bytes: a frame ends on a port that receives. `words`: the places of the wrong symbols in
each codeword it overlaps; `shared`: the first of them counted with the frame before (R535). -/
def Core.frameReceive (k : Core) (d l : Nat) (f : List Byte) (words : List (List Nat)) (shared short : Bool) : Core :=
  if ¬ k.receives d l then k
  else
    let ws := k.codedWords d l words
    (k.wordsSeen d l ws shared).macReceive d l f (ws.any (k.lineForm d l).spoilt) short

/-- FRAME_RECEIVE of a frame given as the symbols of the port's lanes (R528 to R535): every codeword counts, and the frames
they carry go to the MAC in turn. -/
def Core.lineReceive (k : Core) (d l : Nat) (line : List (List Nat)) : Core :=
  if ¬ k.receives d l then k
  else
    let r := k.receiveLine d l line
    let k1 := ((List.range r.2.1.length).zip r.2.1).foldl (fun k x =>
      k.fecSeen d l x.2.bad (b2n (!x.2.fixed.isEmpty)) (k.fixedPerLane d l x.1 x.2.fixed)) r.1
    r.2.2.foldl (fun k f => k.macReceive d l f.1 f.2 false) k1

/-- FRAME_RECEIVE. `line`: the symbols of each lane of the port, when the frame comes as symbols. -/
def execFrameReceive (d : Fin 8) (l : Fin 256) (frame : List Byte) (words : List (List (Fin 544))) (shared : Bool)
    (line : List (List (Fin 4))) (s : State) : Host.Outcome State Fault Refusal :=
  done (s.onCore fun k =>
    if line.isEmpty then k.frameReceive d l frame (words.map fun x => x.map (·.val)) shared false
    else k.lineReceive d l (line.map fun x => x.map (·.val)))

/-- MAC_CONTROL_RECEIVE (R333): a received MAC control frame with a good FCS. -/
def execMacControlReceive (d : Fin 8) (l : Fin 256) (frame : List Byte) (s : State) :
    Host.Outcome State Fault Refusal :=
  done (s.onCore fun k =>
    if k.receives d l ∧ k.macReady d l ∧ 64 ≤ frame.length ∧ fcsGood frame ∧ getBe frame 12 2 = 0x8808 then
      ((k.pstat d l 10 frame.length).rxStats d l frame false true).macControl d l frame
    else k)

/-- XOFF_EVAL (R327): the condition of an account is evaluated. -/
def execXoffEval (d : Fin 8) (l : Fin 256) (g : Fin 8) (s : State) : Host.Outcome State Fault Refusal :=
  done (s.onCore fun k => if k.portExists d l then k.xoffEval d l g else k)

/-! ### Priority flow control (R329 to R334) -/

/-- A port's source MAC address (R566). -/
def Core.portMac (k : Core) (d l : Nat) : Nat :=
  k.td T.PRT_PORT_MAC_HI (dw d) (l / 8) (l % 8) * 2 ^ 32 + k.td T.PRT_PORT_MAC_LO (dw d) (l / 8) (l % 8)

/-- The PFC frame (R329): destination 01-80-C2-00-00-01, the port's address, EtherType 0x8808, opcode 0x0101, the class-enable
vector and the eight times, padded to 64 bytes with its FCS. -/
def pfcFrame (mac en : Nat) (times : List Nat) : List Byte :=
  let body := toBe 0x0180C2000001 6 ++ toBe mac 6 ++ toBe 0x8808 2 ++ toBe 0x0101 2 ++ toBe en 2 ++ times.flatMap (toBe · 2)
  withFcs (body ++ List.replicate (60 - body.length) 0)

/-- Send a PFC frame of a port: priorities whose PG is in XOFF with PFC_QUANTA, and those whose PG has just left with 0
(R329). -/
def Core.pfcSend (k : Core) (d l left : Nat) : Core :=
  let w := dw d
  let map := k.td T.BUF_CLS_PCP w 0 (k.td T.BUF_PORT_PROFILE w 0 l)
  let xoff := k.td T.BUF_PORT_XOFF_TX w 0 l
  let pg (g : Nat) : Nat := map / 2 ^ (6 * g + 3) % 8
  let on (g : Nat) : Bool := bit xoff (pg g) == 1
  let off (g : Nat) : Bool := bit left (pg g) == 1 && !on g
  let en := (List.range 8).foldl (fun n g => if on g || off g then n + 2 ^ g else n) 0
  let times := (List.range 8).map fun g => if on g then k.td T.BUF_PORT_PFC_QUANTA w 0 l else 0
  let k1 := { k with buf := { k.buf with pfcLast := k.buf.pfcLast.set (d * 256 + l) (k.time.now + 1) } }
  if en = 0 then k1
  else
    let f := pfcFrame (k.portMac d l) en times
    (((k1.sendLine d l f).emit (.pfc (d * 256 + l) f)).tbump T.BUF_PSTAT_PFC_TX_FRAMES w 0 l 1).pstat d l 26 1

/-- A frame of the port is in transmission. -/
def Core.sendingOn (k : Core) (d l : Nat) : Bool := k.egr.sending.any fun x => x.copy.port == d * 256 + l

/-- PFC_FRAME_SEND (R329, R331): the frame a change of XOFF made due leaves; it waits only for a frame in transmission. -/
def execPfcFrameSend (d : Fin 8) (l : Fin 256) (s : State) : Host.Outcome State Fault Refusal :=
  done (s.onCore fun k =>
    let key := d.val * 256 + l.val
    match k.buf.pfcDue.find? (·.1 == key) with
    | some e =>
      if (k.sendingOn d l ∨ ¬ k.macReady d l) ∧ k.linkUp d l then k
      else
      let k1 := { k with buf := { k.buf with pfcDue := k.buf.pfcDue.filter (·.1 != key) } }
      if k.linkUp d l then k1.pfcSend d l e.2 else k1
    | none => k)

/-- PFC_REPEAT (R332): while a PG stays in XOFF the port repeats its frame, at least every PFC_QUANTA / 2 quanta. -/
def execPfcRepeat (d : Fin 8) (l : Fin 256) (s : State) : Host.Outcome State Fault Refusal :=
  done (s.onCore fun k =>
    if ¬ k.sendingOn d l ∧ k.macReady d l ∧ k.td T.BUF_PORT_XOFF_TX (dw d) 0 l ≠ 0 ∧ k.td T.BUF_PORT_PFC_TX_EN (dw d) 0 l = 1 ∧ k.linkUp d l then
      k.pfcSend d l 0 else k)

/-- The queues of a priority have just been paused until now (R335). -/
def Core.notePaused (k : Core) (d l g : Nat) : Core :=
  let qs := (List.range 16).filter fun q => bit (k.qmask d l g) q == 1
  let last := qs.foldl (fun m q => m.set ((d * 256 + l) * 16 + q) (k.time.now + 1)) k.buf.lastPaused
  { k with buf := { k.buf with lastPaused := last } }

/-- PFC_PAUSE_EXPIRE (R333): a received pause time has run out. -/
def execPfcPauseExpire (d : Fin 8) (l : Fin 256) (prio : Fin 8) (s : State) : Host.Outcome State Fault Refusal :=
  done (s.onCore fun k =>
    let key := (d.val * 256 + l.val) * 8 + prio.val
    let e := k.buf.pauseEnd.get key
    let mask := k.td T.BUF_PORT_PAUSED_RX (dw d) 0 l
    if e = 0 ∨ k.time.now < e - 1 then k
    else (({ (k.notePaused d l prio) with buf := { (k.notePaused d l prio).buf with
        pauseEnd := k.buf.pauseEnd.set key 0 } }).tw T.BUF_PORT_PAUSED_RX (dw d) 0 l
          (mask - (mask &&& 2 ^ prio.val))).watchPort d l)

/-! ### Flushing, watchdog, down-hold (R335, R368 to R372) -/

/-- Take every copy of an egress queue out of it: those on the die, how many are in the spill region or on their way back, and
the core without them; the queue no longer spills. -/
def Core.takeQueue (k : Core) (d l q : Nat) : List Copy × Nat × Core :=
  let port := d * 256 + l
  let hit (c : Copy) : Bool := c.port == port && c.queue == q
  let here := k.buf.eq.filter hit ++ (k.egr.sending.map (·.copy)).filter hit ++
    (k.pipes.pkts.filterMap (·.copy)).filter hit
  let away := k.buf.spilled.filter hit ++ k.buf.fetching.filter hit
  let k1 := { k with
    buf := { k.buf with
      eq := k.buf.eq.filter (fun c => !hit c)
      spilled := k.buf.spilled.filter (fun c => !hit c)
      fetching := k.buf.fetching.filter (fun c => !hit c) }
    egr := { k.egr with sending := k.egr.sending.filter (fun x => !hit x.copy) }
    pipes := { k.pipes with pkts := k.pipes.pkts.filter (fun p => match p.copy with
      | some c => !hit c
      | none => true) } }
  (here, away.length, k1.tw T.BUF_Q_SPILLED (dw d) 0 (l * 16 + q) 0)

/-- Flush the copies of an egress queue that wait or are being sent; each adds 1 to FLUSH_DROP. -/
def Core.flushQueue (k : Core) (d l q : Nat) : Core :=
  let r := k.takeQueue d l q
  let k1 := (r.1.foldl (fun k c => k.releaseEgress c l q) r.2.2).spillersEval
  ((k1.tbump T.BUF_PSTAT_FLUSH_DROP (dw d) 0 l (r.1.length + r.2.1)).noteIdle d l q).watchQueue d l q false

/-- A priority of the queue is paused and its time has not run out (R391). -/
def Core.pauseRuns (k : Core) (d l q : Nat) : Bool :=
  (List.range 8).any fun g => k.prioPaused d l g && bit (k.qmask d l g) q == 1 &&
    decide (k.time.now + 1 < k.buf.pauseEnd.get ((d * 256 + l) * 8 + g))

/-- WATCHDOG_DISCARD (R335): a paused back-pressure queue that holds copies has sent nothing for BUF_WDOG_CFG.MS. -/
def Core.watchdogDiscard (k : Core) (d l q : Nat) : Core :=
  let w := dw d
  let since := k.buf.stuckSince.get ((d * 256 + l) * 16 + q)
  let due := since ≠ 0 ∧ since - 1 + k.rd R.BUF_WDOG_CFG_MS w 0 0 * 1000000 ≤ k.time.now
  if k.rd R.BUF_WDOG_CFG_EN w 0 0 = 1 ∧ ¬ k.marking d l q ∧ ¬ k.wdogDiscard d l q ∧ k.pauseRuns d l q ∧
      k.queueHolds d l q ∧ due then
    let k1 := (k.tw T.BUF_PORT_WDOG_DISCARD w 0 l (k.td T.BUF_PORT_WDOG_DISCARD w 0 l ||| 2 ^ q)).flushQueue d l q
    ((k1.stopEval d l q).bump R.BUF_WDOG_CNT w 0 0 1).raise w 0x28 1
  else k

/-- WATCHDOG_DISCARD. -/
def execWatchdogDiscard (d : Fin 8) (l : Fin 256) (q : Fin 16) (s : State) : Host.Outcome State Fault Refusal :=
  done (s.onCore fun k => k.watchdogDiscard d l q)

/-- WATCHDOG_EXIT (R335): none of the queue's priorities has been paused for BUF_WDOG_CFG.MS. -/
def execWatchdogExit (d : Fin 8) (l : Fin 256) (q : Fin 16) (s : State) : Host.Outcome State Fault Refusal :=
  done (s.onCore fun k =>
    let last := k.buf.lastPaused.get ((d.val * 256 + l.val) * 16 + q.val)
    if k.wdogDiscard d l q ∧ ¬ k.paused d l q ∧ last - 1 + k.rd R.BUF_WDOG_CFG_MS (dw d) 0 0 * 1000000 ≤ k.time.now then
      let mask := k.td T.BUF_PORT_WDOG_DISCARD (dw d) 0 l
      (k.tw T.BUF_PORT_WDOG_DISCARD (dw d) 0 l (mask - (mask &&& 2 ^ q.val))).stopEval d l q
    else k)

/-- A copy that waits, landed or in a VOQ, is discarded: its group loses it. -/
def Core.discardWaiting (k : Core) (c : Copy) : Core :=
  ((k.tbump T.BUF_PSTAT_DOWN_DROP (dw c.die) 0 (c.port % 256) 1)).copyGone c.grp

/-- A copy whose landing cells are discarded: they are free, their credit returns, and its cells still to come are
discarded as they arrive (R353, R370). `f` is the counter's effect. -/
def Core.discardLanding (k : Core) (f : Core → Core) (x : Nat × Copy × Nat) : Core :=
  let (j, c, n) := x
  let k0 := { k with xbar := { k.xbar with
    landing := k.xbar.landing.filter fun z => !(z.1 == j && z.2.1.id == c.id)
    creditUsed := k.xbar.creditUsed.set j (k.xbar.creditUsed.get j - n) } }
  let k1 := match k0.grp c.grp with
    | some g => k0.putGrp { g with landing := none, waiting := 0 }
    | none => k0
  f (k1.settle c.grp)

/-- Discard the landing cells for a port on its die (R370): each copy counts in DOWN_DROP. -/
def Core.downLanding (k : Core) (d l : Nat) : Core :=
  (k.xbar.landing.filter fun z => z.2.1.port == d * 256 + l && z.2.1.kind != .multicast).foldl (fun k z =>
    (k.discardLanding (fun k => k.tbump T.BUF_PSTAT_DOWN_DROP (dw d) 0 l 1) z) |> fun k =>
      { k with xbar := { k.xbar with doomed := k.xbar.doomed ++ [(8 * z.2.1.die + z.2.1.pipe, z.1, z.2.1.id)] } }) k

/-- The copies of a VOQ or for a port that have begun to cross end with an empty last cell that carries ERR (R367). -/
def Core.abortCopies (k : Core) (hit : Copy → Bool) : Core :=
  let cut (c : Copy) : Copy := if hit c && decide (0 < c.sent) then { c with aborted := true, bad := true } else c
  { k with buf := { k.buf with voq := k.buf.voq.map cut } }

/-- Flush a port whose down-hold has ended with the link down (R370). A copy that has begun to cross counts on the die its
cells have landed on, or on its source die while none has; its cells still to come are discarded as they arrive. -/
def Core.downFlush (k' : Core) (d l : Nat) : Core :=
  let port := d * 256 + l
  let w := dw d
  -- the pauses end here (R335's exit counts from now)
  let k := (List.range 8).foldl (fun k g => if k.prioPaused d l g then k.notePaused d l g else k) k'
  let k1 := (List.range 16).foldl (fun k q => k.flushQueue d l q) k
  let k2 := (List.range 16).foldl (fun k q => if k.stopped d l q then k.setStop d l q false else k) k1
  let k3 := k2.tw T.BUF_PORT_PAUSED_RX w 0 l 0
  let hit (c : Copy) : Bool := c.port == port && c.kind != .multicast
  let ends := (List.range 8).foldl (fun m g => m.set (port * 8 + g) 0) k3.buf.pauseEnd
  let gone := k3.buf.voq.filter fun c => hit c && c.sent == 0
  let flying := k3.buf.voq.filter fun c => hit c && decide (0 < c.sent) && !c.aborted &&
    !(k3.xbar.landing.any fun z => z.2.1.id == c.id)
  let k4 := { k3 with buf := { k3.buf with
    voq := k3.buf.voq.filter (fun c => !(hit c && c.sent == 0))
    pauseEnd := ends
    dropping := k3.buf.dropping.set port 1
    holdEnd := k3.buf.holdEnd.set port 0 } }
  let k5 := ((gone.foldl Core.discardWaiting k4).abortCopies hit).tw T.BUF_PORT_HOLDING w 0 l 0
  let doom (k : Core) (c : Copy) : Core :=
    { k with xbar := { k.xbar with doomed := k.xbar.doomed ++ [(8 * c.die + c.pipe, c.dp, c.id)] } }
  let k6 := (flying.foldl (fun k c => doom (k.tbump T.BUF_PSTAT_DOWN_DROP (dw c.die) 0 l 1) c) k5).downLanding d l
  (k6.focPortDown port).watchPort d l

/-- Flush a VOQ whose state is uncorrectable (R570 class 12): each copy counts in RAS_UE_DROP_CNT; one that has begun to cross
ends with ERR. -/
def Core.voqLost (k : Core) (d p dp tc : Nat) : Core :=
  let hit (c : Copy) : Bool := c.die == d && c.pipe == p && c.dp == dp && c.tc == tc && !c.aborted
  let all := k.buf.voq.filter hit
  let gone := all.filter (·.sent == 0)
  let k1 := { k with buf := { k.buf with voq := k.buf.voq.filter fun c => !(hit c && c.sent == 0) } }
  ((gone.foldl (fun k c => k.copyGone c.grp) k1).abortCopies hit).bump R.RAS_UE_DROP_CNT (dw d) 0 0 all.length

/-- The reads of a die's VOQs: correctable errors are counted; a VOQ whose state is uncorrectable, of a source pipeline, a
destination pipeline and a TC, is flushed (R570 class 12). -/
def Core.voqsRead (k : Core) (d : Nat) (ces : List (Fin 4096 × Fin 8)) (lost : Option (Nat × Nat × Nat)) : Core :=
  let k1 := k.cesFound (dw d) ces
  match lost with
  | some (p, dp, tc) => (k1.ueFound (dw d) 12).voqLost d p dp tc
  | none => k1

/-- Flush an egress queue whose link memory is uncorrectable (R570 class 12): the copies it holds, the one being sent and
those in the spill region among them, are dropped and counted in RAS_UE_DROP_CNT; the queue starts again empty. -/
def Core.queueLost (k : Core) (d l q : Nat) : Core :=
  let r := k.takeQueue d l q
  let k2 := (r.2.2.ueFound (dw d) 12).bump R.RAS_UE_DROP_CNT (dw d) 0 0 (r.1.length + r.2.1)
  ((r.1.foldl (fun k c => k.releaseEgress c l q) k2).spillersEval.noteIdle d l q).watchQueue d l q false

/-! ### Local transfer, stop messages (R341, R343, R347) -/

/-- The TCs of an expedited class come first (R347, R354). -/
def Core.tcOrder (k : Core) : List Nat :=
  let x := k.rd R.MER_CFG_EXP_TC 0 0 0
  (List.range 8).filter (fun t => bit x t == 1) ++ (List.range 8).filter (fun t => bit x t == 0)

/-- The head of a copy's list is eligible as its own die sees the stops (R343); copies for a port in down-hold stay
(R368). -/
def Core.headEligible (k : Core) (c : Copy) : Bool :=
  match c.kind with
  | .multicast => k.buf.mcStop.get ((c.die * 64 + c.dp) * 8 + c.tc) == 0
  | _ => bit (k.td T.BUF_STOP_STOPS (dw c.die) 0 c.port) c.queue == 0 &&
      !k.wdogDiscard (c.port / 256) (c.port % 256) c.queue && !k.holding (c.port / 256) (c.port % 256)

/-- A VOQ's list a copy stands in: 0 for multicast, else the port plus 1 (R343). -/
def Copy.list (c : Copy) : Nat := match c.kind with
  | .multicast => 0
  | _ => c.port + 1

/-- The copy a VOQ serves next (R343): one in progress, else the head of the next eligible list in rotation. -/
def Core.voqHead (k : Core) (d p dp tc : Nat) : Option Copy :=
  let mine := k.buf.voq.filter fun c => c.die == d && c.pipe == p && c.dp == dp && c.tc == tc
  match mine.find? (fun c => decide (0 < c.sent)) with
  | some c => some c
  | none =>
    let turn := k.buf.voqTurn.get (((d * 8 + p) * 64 + dp) * 8 + tc)
    let heads := mine.filter fun c =>
      k.headEligible c && (match mine.find? (fun x => x.list == c.list) with
        | some x => x.id == c.id
        | none => false)
    -- lists after the one served last come first
    let after := heads.filter fun c => decide (turn ≤ c.list)
    let best (l : List Copy) : Option Copy := l.foldl (fun b c => match b with
      | none => some c
      | some x => if c.list < x.list then some c else some x) none
    match best after with
    | some c => some c
    | none => best heads

/-- A VOQ serves a list: the next turn starts behind it. -/
def Core.voqServed (k : Core) (c : Copy) : Core :=
  { k with buf := { k.buf with voqTurn :=
    (k.buf.voqTurn.set (((c.die * 8 + c.pipe) * 64 + c.dp) * 8 + c.tc) (c.list + 1)) } }

/-- The order in which a destination pipeline takes a source's local VOQs: expedited TCs first, going on behind the TC it took
last, so that a TC that stays eligible is taken within 8 turns (R347). DESIGN CHOICE: how expedited-first and the bound on
every VOQ fit together is not stated. -/
def Core.localOrder (k : Core) (dp src : Nat) : List Nat :=
  let n := k.buf.localTc.get (dp * 8 + src)
  k.tcOrder.drop n ++ k.tcOrder.take n

/-- LOCAL_TRANSFER (R347): destination pipeline `p` of die `d` takes one copy of the next eligible local VOQ. `ue`: the
multicast entry reads uncorrectable (R234); `lost`: so does the state of the VOQ of this source pipeline and TC, which is
flushed (R570 class 12); `ces`: correctable errors met (R573). -/
def Core.localTransfer (k' : Core) (d p : Nat) (ue : Bool) (lost : Option (Nat × Nat)) (ces : List (Fin 4096 × Fin 8)) : Core :=
  let k := k'.voqsRead d ces (lost.map fun x => (x.1, 8 * d + p, x.2))
  let dp := 8 * d + p
  let start := k.buf.localTurn.get dp
  let order := (List.range 8).map fun i => (start + i) % 8
  match order.findSome? fun src => (k.localOrder dp src).findSome? fun tc => k.voqHead d src dp tc with
  | none => k
  | some c =>
    let k1 := k.voqServed c
    let k2 := { k1 with buf := { k1.buf with
      voq := k1.buf.voq.filter (·.id != c.id)
      localTurn := k1.buf.localTurn.set dp ((c.pipe + 1) % 8)
      localTc := k1.buf.localTc.set (dp * 8 + c.pipe) (k1.tcOrder.idxOf c.tc + 1) } }
    ((k2.enqueue c ue).copyGone c.grp).settle c.grp

/-- LOCAL_TRANSFER. -/
def execLocalTransfer (d p : Fin 8) (ue : Bool) (lost : Option (Fin 8 × Fin 8)) (ces : List (Fin 4096 × Fin 8)) (s : State) :
    Host.Outcome State Fault Refusal :=
  done (s.onCore fun k => k.localTransfer d p ue (lost.map fun x => (x.1.val, x.2.val)) ces)

/-- STOP_MESSAGE_RECEIVE (R341): another die sees a queue's stop as it stands, and the multicast stops of its pipeline. -/
def execStopMessageReceive (viewer d : Fin 8) (l : Fin 256) (q : Fin 16) (s : State) :
    Host.Outcome State Fault Refusal :=
  done (s.onCore fun k =>
    if k.populated viewer ∧ k.populated d ∧ ¬ k.fenced d then
      (k.seeStop viewer d l q (k.stopped d l q)).seeMcStops viewer d (l / 32)
    else k)

/-! ### Spilling (R374) -/

/-- A copy waits for copies of its queue that were enqueued before it and are in the spill region or on their way back (R375). -/
def Core.heldBack (k : Core) (c : Copy) : Bool :=
  (k.buf.spilled ++ k.buf.fetching).any fun x => x.port == c.port && x.queue == c.queue && decide (x.turn < c.turn)

/-- Cells of a queue on its die that may go before its spilled copies: those of its account, less those of copies that wait for
spilled ones, and those on their way into the fetch reserve. -/
def Core.queueCells (k : Core) (d l q : Nat) : Nat :=
  let sum (cs : List Copy) : Nat :=
    cs.foldl (fun n c => if c.port = d * 256 + l ∧ c.queue = q then n + cellsOf c.frame.length else n) 0
  k.egE d l q - sum (k.buf.eq.filter k.heldBack) + sum k.buf.fetching

/-- Cells the fetch reserve of a die holds. -/
def Core.reserveUsed (k : Core) (d : Nat) : Nat :=
  k.buf.groups.foldl (fun n g => if g.die = d ∧ g.reserve then n + g.cells else n)
    (k.buf.fetching.foldl (fun n c => if c.die = d then n + cellsOf c.frame.length else n) 0)

/-- SPILL_FETCH (R374): a spilling queue with fewer than 64 cells on the die fetches its oldest spilled copy into the
fetch reserve. -/
def Core.spillFetch (k : Core) (d l q : Nat) : Core :=
  match k.buf.spilled.find? fun c => c.port == d * 256 + l && c.queue == q with
  | none => k.queueEval d l q
  | some c =>
    let n := cellsOf c.frame.length
    if k.queueCells d l q < 64 ∧ k.regionOn 2 ∧ 256 * n ≤ k.tokens 2 ∧
        k.reserveUsed d + n ≤ k.rd R.BUF_SPILL_RSV_FETCH_CELLS (dw d) 0 0 then
      (({ k with buf := { k.buf with
        spilled := k.buf.spilled.filter (·.id != c.id)
        fetching := k.buf.fetching ++ [{ c with asked := k.time.now }] } }).spend 2 (256 * n)).spillersEval
    else k

/-- SPILL_FETCH. -/
def execSpillFetch (d : Fin 8) (l : Fin 256) (q : Fin 16) (s : State) : Host.Outcome State Fault Refusal :=
  done (s.onCore fun k => k.spillFetch d l q)

/-- SPILL_FETCH_RETURN (R374, R615, R616): the oldest copy being fetched by die `d` returns into the fetch reserve and joins
its queue at its turn; the queue, which held it all along, does not wake (R427); a poisoned copy, or one whose fetch ended by
timeout (log 52), is dropped and counted. -/
def Core.spillReturn (k : Core) (d : Nat) (poisoned timeout : Bool) : Core :=
  match k.buf.fetching.find? (·.die == d) with
  | none => k
  | some c =>
    let l := c.port % 256
    let q := c.queue
    let n := cellsOf c.frame.length
    let k1 := { k with buf := { k.buf with fetching := k.buf.fetching.filter (·.id != c.id) } }
    let k2 := k1.tw T.BUF_Q_SPILLED (dw d) 0 (l * 16 + q) (k.td T.BUF_Q_SPILLED (dw d) 0 (l * 16 + q) - n)
    let k3 := if timeout then k2 else (k2.answered 2 c.asked).regionRead 2 (256 * n)
    if timeout ∨ poisoned then
      (((if timeout then k3 else k3.regionPoison 2).bump R.CXL_SPILL_POISON_CNT 0 0 0 1).noteIdle d l q).spillersEval
    else
      let r := k3.takeId
      let g : Grp := { freshGrp r.1 d n 0 0 with ingress := none, reserve := true, waiting := 0 }
      ((r.2.addGrp g).placeCopy d l q { c with grp := r.1 }).spillersEval

/-- SPILL_FETCH_RETURN. -/
def execSpillFetchReturn (d : Fin 8) (poisoned : Bool) (s : State) : Host.Outcome State Fault Refusal :=
  done (s.onCore fun k => k.spillReturn d poisoned false)

end Sys2Proof.Machine
end

