-- ==== Sys2Proof/Machine/Flits.lean ====
section
/-!
DEFINITION. The Shenor links (R30, R348 to R350, R476, R574 to R576): the bytes of cells and parcels, the flits that carry them, and
the retry buffer of each direction of a crossbar port.
-/
namespace Sys2Proof.Machine

/-! ### Cells and parcels as bytes (R53, R348 to R350, R476) -/

/-- KIND of a copy (R348). -/
def kindCode (k : CopyKind) : Nat := match k with
  | .unicast => 0
  | .multicast => 1
  | .mirror => 2

/-- Containers 54 and 55 of a copy as one number, container 55 the upper half. -/
def Copy.bridged64 (c : Copy) : Nat := c.carried.c55.toNat * 2 ^ 32 + c.carried.c54.toNat

/-- The fields of the first cell header of a copy beside FIRST, LAST and ERR (R348). -/
def Copy.header (c : Copy) : Nat :=
  let c56 := c.carried.c56.toNat
  let dest := match c.kind with
    | .multicast => b2n c.noIngress * 2 ^ 14 + c.group % 2 ^ 14
    | _ => c.queue % 16 * 2 ^ 11 + c.port % 2 ^ 11
  b2n (c.bridged64 != 0) * 2 ^ 123 + bits c56 18 16 * 2 ^ 120 + kindCode c.kind * 2 ^ 118 + dest * 2 ^ 103 +
    c.frame.length % 2 ^ 14 * 2 ^ 89 + c.carried.flags % 256 * 2 ^ 81 + bit c56 27 * 2 ^ 80 + bits c56 26 24 * 2 ^ 77 +
    bits c56 21 20 * 2 ^ 75 + bits c56 14 12 * 2 ^ 72 + bits c56 10 0 * 2 ^ 61 + c.entry % 2 ^ 11 * 2 ^ 50 +
    c.carried.c60.toNat % 2 ^ 30 * 2 ^ 20 + c.carried.c61.toNat % 2 ^ 20

/-- A cell's 128-bit header (R348 to R350, R476). -/
def PCell.header (x : PCell) : Nat :=
  let ends := b2n x.last * 2 ^ 126 + b2n x.err * 2 ^ 125
  match x.body with
  | .copy c =>
    if x.idx = 0 ∧ ¬ x.ext then 2 ^ 127 + ends + c.header
    else ends + b2n x.ext * 2 ^ 124 + bits c.carried.c56.toNat 18 16 * 2 ^ 120 + (if x.ext || x.idx == 1 then c.bridged64 else 0)
  | .partial' ctx chunk gen src tc _ _ =>
    2 ^ 127 + 2 ^ 124 + ends + tc % 8 * 2 ^ 120 + ctx % 4096 * 2 ^ 108 + chunk % 2 ^ 20 * 2 ^ 88 + gen % 16 * 2 ^ 84 +
      src % 8 * 2 ^ 81 + x.idx % 512 * 2 ^ 72

/-- Bytes filled up with zeros to `n`. -/
def padTo (n : Nat) (b : List Byte) : List Byte := (b ++ List.replicate n 0).take n

/-- A cell's 256 bytes of data: its piece of the frame, or of the accumulator words. -/
def PCell.payload (x : PCell) : List Byte :=
  match x.body with
  | .copy c => if x.ext || c.aborted then List.replicate 256 0 else padTo 256 ((c.frame.drop (256 * x.idx)).take 256)
  | .partial' _ _ _ _ _ _ words => padTo 256 words

/-- A parcel's bytes. DESIGN CHOICE (log 147): ahead of its cells stand the pair, the sequence number and the number of cells,
a byte each, and a cell header goes most significant byte first; the spec gives the fields no places. -/
def Parcel.bytes (p : Parcel) : List Byte :=
  [BitVec.ofNat 8 p.src, BitVec.ofNat 8 p.dst, BitVec.ofNat 8 p.seq, BitVec.ofNat 8 p.cells.length] ++
    p.cells.flatMap fun x => toBe x.header 16 ++ x.payload

/-- Flits of 240 payload bytes that a parcel takes (R30). -/
def Parcel.flits (p : Parcel) : Nat := (4 + 272 * p.cells.length + 239) / 240

/-! ### Flits (R30, R575) -/

/-- The parity bits of a flit's 32 64-bit words, the parity and CRC bytes themselves taken as zero: bit i is word i's (R30). -/
def flitParity (f : List Byte) : Nat :=
  let g := putBytes f 240 (List.replicate 6 0)
  (List.range 32).foldl (fun n i =>
    n + 2 ^ i * (((List.range 64).countP fun b => ((g.getD (8 * i + b / 8) 0).toNat).testBit (b % 8)) % 2)) 0

/-- A field of a flit's control bytes, the low byte first. -/
def flitField (f : List Byte) (at' n : Nat) : Nat := leNat ((f.drop at').take n)

/-- A flit of 240 payload and 16 control bytes passes its word parity and its CRC (R30, R575). DESIGN CHOICE (log 123): the
control bytes hold the 32 parity bits, the CRC, the sequence and the acknowledgement in this order, at 4, 2, 2 and 2 bytes; the
spec names them and gives no places. -/
def flitGood (f : List Byte) : Bool :=
  f.length == 256 && flitField f 240 4 == flitParity f &&
    flitField f 244 2 == Config.flitCrc (putBytes f 244 (List.replicate 2 0)) % 65536

/-- A flit as it is sent: payload, parity, CRC, sequence and acknowledgement (R30). -/
def sealFlit (payload : List Byte) (seq ack : Nat) : List Byte :=
  let f := padTo 240 payload ++ List.replicate 6 0 ++ leSeq seq 2 ++ leSeq ack 2 ++ List.replicate 6 0
  let g := putBytes f 240 (leSeq (flitParity f) 4)
  putBytes g 244 (leSeq (Config.flitCrc g) 2)

/-- The bytes of a flit its sender keeps: a piece of its parcel, or zeros. -/
def Core.flitImage (k : Core) (f : Flit) : List Byte :=
  let parcel := match f.parcel with
    | some (s, d, q) => (k.xbar.retained.find? fun (p : Parcel) => p.src == s && p.dst == d && p.seq == q).map Parcel.bytes
    | none => none
  sealFlit (((parcel.getD []).drop (240 * f.part)).take 240) f.seq f.ack

/-! ### The sender (R574, R575) -/

/-- The direction of a Meridian port towards the Meridian die, and from it. -/
def toMeridian (p : Nat) : Nat := 2 * p + 1
/-- The direction from the Meridian die. -/
def toDie (p : Nat) : Nat := 2 * p

/-- The flits a direction keeps. -/
def Core.flitsOf (k : Core) (i : Nat) : List Flit := k.link.flits.filter (·.dir == i)

/-- The acknowledgement a direction's flits carry: the last flit taken of the other direction. -/
def Core.flitAckNow (k : Core) (i : Nat) : Nat := (k.link.flitWant.get (i ^^^ 1) + 65535) % 65536

/-- The sender of a direction forms a flit. -/
def Core.formFlit (k : Core) (i : Nat) (parcel : Option (Nat × Nat × Nat)) (part : Nat) (last : Bool) : Core :=
  let seq := k.link.flitNext.get i
  { k with link := { k.link with
      flits := k.link.flits ++ [⟨i, seq, k.flitAckNow i, parcel, part, last, false⟩]
      flitNext := k.link.flitNext.set i ((seq + 1) % 65536) } }

/-- The sender of a direction forms the flits of a parcel. -/
def Core.formParcel (k : Core) (i : Nat) (p : Parcel) : Core :=
  (List.range p.flits).foldl (fun k n => k.formFlit i (some (p.src, p.dst, p.seq)) n (n + 1 == p.flits)) k

/-- The flit of a direction that crosses next: the one the sender has come to, while the retry buffer holds it, or an idle one
where every flit has crossed. -/
def Core.crossingFlit (k : Core) (i : Nat) : Option (Flit × Core) :=
  let k1 := if k.link.flitOut.get i = k.link.flitNext.get i then k.formFlit i none 0 false else k
  (((k1.flitsOf i).take 128).find? fun f => f.seq == k1.link.flitOut.get i).map fun f => (f, k1)

/-- A direction's flits up to a sequence number are acknowledged: the sender keeps them no longer. -/
def Core.flitsAcked (k : Core) (i seq : Nat) : Core :=
  let mine := k.flitsOf i
  if mine.any (·.seq == seq) then
    { k with link := { k.link with
        flits := k.link.flits.filter (·.dir != i) ++ (mine.dropWhile fun f => f.seq != seq).drop 1 } }
  else k

/-! ### The receiver (R575) -/

/-- A good flit in sequence is delivered (R575): the next one is expected, its acknowledgement frees flits of the other
direction, and a retry it ends has succeeded, a class-15 correctable error of a port die. The Meridian die passes on a parcel
whose last flit it has. -/
def Core.flitTaken (k : Core) (f : Flit) : Core :=
  let i := f.dir
  let k1 := { k with link := { k.link with
      flitWant := k.link.flitWant.set i ((f.seq + 1) % 65536)
      flitAck := k.link.flitAck.set i f.ack
      retries := k.link.retries.set i 0
      retryAsked := k.link.retryAsked.set i 0 } }
  let k2 := if k.link.retries.get i = 0 ∨ i % 2 = 1 then k1 else k1.ceFound (dw (i / 2 / 8)) 0xC0 0 15
  let k3 := k2.flitsAcked (i ^^^ 1) f.ack
  match f.parcel with
  | some (s, d, q) =>
    match k3.xbar.flight.find? fun p => p.src == s && p.dst == d && p.seq == q with
    | some p => if f.last ∧ i % 2 = 1 ∧ ¬ k3.portFailed d ∧ ¬ k3.fenced (d / 8) then k3.formParcel (toDie d) p else k3
    | none => k3
  | none => k3

/-- The flits of a direction up to the last of a parcel are delivered and acknowledged. -/
def Core.flitsSettled (k : Core) (i : Nat) (parcel : Nat × Nat × Nat) : Core :=
  let mine := k.flitsOf i
  match mine.find? fun f => f.parcel == some parcel && f.last with
  | none => k
  | some e =>
    let gone := (mine.takeWhile fun f => f.seq != e.seq) ++ [e]
    let want := k.link.flitWant.get i
    let new := if gone.any (·.seq == want) then gone.dropWhile (·.seq != want) else []
    let out := if gone.any (·.seq == k.link.flitOut.get i) then (e.seq + 1) % 65536 else k.link.flitOut.get i
    let k1 := (new.foldl Core.flitTaken k).flitsAcked i e.seq
    { k1 with link := { k1.link with flitOut := k1.link.flitOut.set i out } }

/-- A direction delivers no parcel: a retry of it is asked for and not yet answered, a flit of it is resent bad, or it
retrains (R571, R575, R576). -/
def Core.flitsWait (k : Core) (i : Nat) : Bool :=
  k.link.retryAsked.get i != 0 || k.xbar.retrain.get i != 0 || (k.flitsOf i).any (·.bad)

/-- FLIT_RECEIVE (R575): the next flit of a direction reaches its receiver: bad, or past the one expected, it is discarded and
asks once for a retry from that one; one delivered before is discarded. `flit`: the flit as received, where it is given in
bytes; `good`: else the verdict on the flit as it was sent. -/
def Core.flitReceive (k : Core) (i : Nat) (good : Bool) (flit : List Byte) : Core :=
  match k.crossingFlit i with
  | none => k
  | some (f, k0) =>
    let k1 := { k0 with link := { k0.link with flitOut := k0.link.flitOut.set i ((f.seq + 1) % 65536) } }
    let want := k.link.flitWant.get i
    let whole := if flit.isEmpty then good && !f.bad else flitGood flit
    let seq := if flit.isEmpty then f.seq else flitField flit 246 2
    if whole ∧ seq = want then
      k1.flitTaken { f with seq := seq, ack := if flit.isEmpty then f.ack else flitField flit 248 2 }
    else if (whole ∧ (want + 65536 - seq) % 65536 < 32768) ∨ k.link.retryAsked.get i ≠ 0 then k1
    else { k1 with link := { k1.link with retryAsked := k1.link.retryAsked.set i (want + 1) } }

/-- The sender goes back to a flit and sends on from it. -/
def Core.flitsFrom (k : Core) (i seq : Nat) : Core := { k with link := { k.link with flitOut := k.link.flitOut.set i seq } }

/-- Flits of a direction that have left and leave again when the sender goes back to one. -/
def Core.flitsAgain (k : Core) (i seq : Nat) : Nat :=
  (((k.flitsOf i).dropWhile fun f => f.seq != seq).takeWhile fun f => f.seq != k.link.flitOut.get i).length

/-- Behind a retrain the sender goes on from the oldest unacknowledged flit (R576). DESIGN CHOICE (log 147): a flit whose
place in the retry buffer is uncorrectable goes on as an idle one, and its parcel is lost, for parcel replay to recover
(R571). -/
def Core.flitsAnew (k : Core) (i : Nat) : Core :=
  let lost := (k.flitsOf i).filterMap fun f => if f.bad then f.parcel else none
  let k1 := { k with
    link := { k.link with flits := k.link.flits.map fun f => if f.dir = i ∧ f.bad then { f with parcel := none, bad := false } else f }
    xbar := { k.xbar with flight := k.xbar.flight.filter fun p => !lost.contains (p.src, p.dst, p.seq) } }
  let back := (k.xbar.flight.filter fun p => lost.contains (p.src, p.dst, p.seq)).foldl (fun (k : Core) (p : Parcel) => k.creditBack p.dst 16) k1
  match (back.flitsOf i).head? with
  | some f => back.flitsFrom i f.seq
  | none => back

end Sys2Proof.Machine
end

