-- ==== Sys2Proof/Machine/Crossbar.lean ====
section
/-!
DEFINITION. The Meridian crossbar (R46, R52 to R54, R348 to R367, R475 to R477, R577 to R579, R636): matching, parcels,
landing, acknowledgement, replay and port faults.
-/
namespace Sys2Proof.Machine

/-! ### Ports and pairs -/

/-- N, the crossbar ports in use (R52). -/
def Core.xPorts (k : Core) : Nat := 8 * k.part.dies

/-- The key of a pair. -/
def pairKey (i j : Nat) : Nat := i * 64 + j

/-- A retrain of the Meridian port runs in some direction (R576). -/
def Core.retraining (k : Core) (p : Nat) : Bool := k.xbar.retrain.get (2 * p) != 0 || k.xbar.retrain.get (2 * p + 1) != 0

/-- A direction of the Meridian port is retrying flits (R68, R575): a retry is asked for, or no good flit has ended one. -/
def Core.retrying (k : Core) (p : Nat) : Bool :=
  [2 * p, 2 * p + 1].any fun i => k.link.retryAsked.get i != 0 || k.link.retries.get i != 0

/-- Parcels may be matched to and from the port (R66, R68, R576, R578). -/
def Core.xLive (k : Core) (p : Nat) : Bool :=
  decide (p < k.xPorts) && !k.fenced (p / 8) && !k.portFailed p && !k.retraining p && !k.retrying p

/-- Parcels of a source that are not yet acknowledged (R354). -/
def Core.unacked (k : Core) (i : Nat) : Nat := k.xbar.retained.countP (·.src == i)

/-- A statistic of a Meridian port (R389). -/
def Core.xstat (k : Core) (f : TFld) (p n : Nat) : Core := k.tbump f 0 0 p n

/-! ### Requests and matching (R354 to R358) -/

/-- A source pipeline's pending partial towards a destination port (R475); one of a context that has failed is not sent (R499). -/
def Core.partialFor (k : Core) (i j : Nat) : Option Partial :=
  k.foc.partials.find? fun x =>
    let pipe := k.ctx T.FOC_CTX_PIPE x.src (x.ctx % 512)
    8 * x.src + pipe == i && 8 * (x.ctx / 512) + pipe == j && decide (x.next < x.cells) && !x.acked && k.ctxIs x.src x.ctx x.gen

/-- The TC partials of a die travel in. -/
def Core.partialTc (k : Core) (d : Nat) : Nat := k.rd R.FOC_CFG_PARTIAL_TC (dw d) 0 0

/-- Some VOQ of the pair is eligible, and whether one of an expedited TC is (R346, R354, R475). -/
def Core.pairWants (k : Core) (i j : Nat) : Option Bool :=
  let tcs := (List.range 8).filter fun t =>
    (k.voqHead (i / 8) (i % 8) j t).isSome || (t == k.partialTc (i / 8) && (k.partialFor i j).isSome)
  if tcs.isEmpty then none else some (tcs.any fun t => bit (k.rd R.MER_CFG_EXP_TC 0 0 0) t == 1)

/-- A request of source `i` for destination `j`, with its expedited flag (R354). -/
def Core.xRequest (k : Core) (i j : Nat) : Option (Nat × Nat × Bool) :=
  if i / 8 = j / 8 ∨ ¬ k.xLive i ∨ ¬ k.xLive j ∨ 1024 < k.xbar.creditUsed.get j + 16 then none
  else
    let wants := k.pairWants i j
    if (wants.isSome ∧ k.unacked i < 64) ∨ k.xbar.replay.get (pairKey i j) ≠ 0 then some (i, j, wants.getD false) else none

/-- The pairs that may have something to send. -/
def Core.xPairs (k : Core) : List (Nat × Nat) :=
  ((k.buf.voq.filter Copy.crosses).map (fun (c : Copy) => (8 * c.die + c.pipe, c.dp)) ++
    k.foc.partials.map (fun (x : Partial) =>
      let pipe := k.ctx T.FOC_CTX_PIPE x.src (x.ctx % 512)
      (8 * x.src + pipe, 8 * (x.ctx / 512) + pipe)) ++
    k.xbar.retained.map fun (x : Parcel) => (x.src, x.dst)).eraseDups

/-- A request: source, destination, expedited. -/
abbrev Req := Nat × Nat × Bool

/-- The best of a list under a key that is to be least. -/
def leastBy {α : Type} (key : α → Nat) (l : List α) : Option α :=
  l.foldl (fun b x => match b with
    | none => some x
    | some y => if key x < key y then some x else some y) none

/-- The rotation matches at parcel time `t` (R355 step 1). -/
def rotation (n t : Nat) (rs : List Req) : List (Nat × Nat) :=
  (rs.filter fun r => r.2.1 == (r.1 + t) % max n 1).map fun r => (r.1, r.2.1)

/-- Neither end of a request is matched. -/
def unmatched (ms : List (Nat × Nat)) (r : Req) : Bool := !(ms.any fun m => m.1 == r.1 || m.2 == r.2.1)

/-- One iteration: every unmatched destination grants one requester, every source accepts one grant (R355 steps 3, 4). -/
def grantAccept (n : Nat) (gp ap : SMap) (rs : List Req) (ms : List (Nat × Nat)) : List (Nat × Nat) :=
  let open' := rs.filter (unmatched ms)
  let grants := ((open'.map (·.2.1)).eraseDups).filterMap fun j =>
    leastBy (fun r => (if r.2.2 then 0 else n) + (r.1 + n - gp.get j) % max n 1) (open'.filter (·.2.1 == j))
  ((grants.map (·.1)).eraseDups).filterMap fun i =>
    (leastBy (fun r => (if r.2.2 then 0 else n) + (r.2.1 + n - ap.get i) % max n 1) (grants.filter (·.1 == i))).map
      fun r => (r.1, r.2.1)

/-- A slot of the 64 is skipped under throttle K (R636). -/
def Core.slotSkipped (k : Core) : Bool := decide (k.xbar.slot % 64 < k.rd R.M_PMU_STATUS_S 0 0 0)

/-- Count a Meridian event for the port die of a Meridian port (R755 class 4). -/
def Core.xcount (k : Core) (code p n : Nat) : Core := k.count 0 4 code (p / 8) n

/-- One parcel time of matching (R355). Matches of the parcel time before that launched nothing give their credit back. -/
def Core.matchTime (k : Core) : Core :=
  let k0 := (k.xbar.matched.foldl (fun k m => k.creditBack m.2 16) k).onX fun x => { x with matched := [] }
  let n := k.xPorts
  let ptime := k.rd64 R.MER_PTIME_LO R.MER_PTIME_HI 0 0 0
  let rs := k0.xPairs.filterMap fun p => k0.xRequest p.1 p.2
  let m0 := rotation n (ptime % max n 1) rs
  let m1 := grantAccept n k0.xbar.grantPtr k0.xbar.acceptPtr rs m0
  let gp := m1.foldl (fun g m => g.set m.2 ((m.1 + 1) % n)) k0.xbar.grantPtr
  let ap := m1.foldl (fun g m => g.set m.1 ((m.2 + 1) % n)) k0.xbar.acceptPtr
  let k1 := k0.onX fun x => { x with grantPtr := gp, acceptPtr := ap }
  let iter (m : List (Nat × Nat)) := m ++ grantAccept n gp ap rs m
  let all := iter (iter (iter (m0 ++ m1)))
  let k2 := k1.onX fun x => { x with
    matched := all
    creditUsed := all.foldl (fun c m => c.set m.2 (c.get m.2 + 16)) x.creditUsed }
  let k3 := m0.foldl (fun (k : Core) m => (k.xstat T.MER_PORT_ROTATION_MATCHES m.1 1).xcount 1 m.1 1) k2
  (all.foldl (fun (k : Core) (m : Nat × Nat) => k.xcount 0 m.1 1) k3).add64 R.MER_PTIME_LO R.MER_PTIME_HI 0 0 0 1

/-- CROSSBAR_MATCH (R355, R356, R636): one parcel slot; a skipped slot is no parcel time. -/
def Core.crossbarMatch (k : Core) : Core :=
  let k1 := k.onX fun x => { x with slot := x.slot + 1 }
  if k.slotSkipped then k1.count 0 4 4 0 1 else k1.matchTime

/-- CROSSBAR_MATCH. -/
def execCrossbarMatch (s : State) : Host.Outcome State Fault Refusal := done (s.onCore Core.crossbarMatch)

/-! ### Filling a parcel (R348 to R350, R357, R364, R367, R476) -/

/-- A copy leaves its VOQ. -/
def Core.leaveVoq (k : Core) (c : Copy) : Core :=
  { k with buf := { k.buf with voq := k.buf.voq.filter (·.id != c.id) } }

/-- A cell of a copy: the next one, with an extension cell when the copy has one cell and containers 54 or 55 travel. A
cell that fails parity as it is read (`parity`) makes the copy bad: it is dropped and counted when none of its cells has
crossed, and else carries ERR from this cell on (R365 to R367). An aborted copy ends with an empty cell. -/
def Core.takeCopyCell (k : Core) (c : Copy) (room : Nat) (parity : Bool) : Option (Core × List PCell) :=
  let n := cellsOf c.frame.length
  let ext := decide (n ≤ 1) && (c.carried.c54 != 0 || c.carried.c55 != 0)
  if c.aborted then some (k.leaveVoq c, [⟨.copy c, c.sent, true, true, false⟩])
  else if ext ∧ room < 2 then none
  else if parity ∧ c.sent = 0 then
    some ((((((k.voqServed c).leaveVoq c).ueFound (dw c.die) 14).bump R.BUF_CELL_PAR_DROP_CNT (dw c.die) 0 0 1).raise
      (dw c.die) 0x28 2).copyGone c.grp, [])
  else
    let last := decide (n ≤ c.sent + 1)
    let k0 := if parity then k.ueFound (dw c.die) 14 else k
    let k1 := if c.sent = 0 then k0.voqServed c else k0
    let bad := c.bad || parity
    let voq := if last then k1.buf.voq.filter (·.id != c.id)
      else k1.buf.voq.map fun x => if x.id = c.id then { x with sent := x.sent + 1, bad := bad } else x
    let cell : PCell := ⟨.copy c, c.sent, last, bad, false⟩
    some ({ k1 with buf := { k1.buf with voq := voq } }, if ext then [cell, { cell with ext := true }] else [cell])

/-- The 256 bytes of accumulator words of a partial's cell, in ascending element order; the last cell's are padded (R476). -/
def Core.partialWords (k : Core) (x : Partial) (i : Nat) : List Byte :=
  let slot := x.ctx % 512
  let op := k.ctx T.FOC_CTX_OP x.src slot
  let ty := k.ctx T.FOC_CTX_TYPE x.src slot
  let acc := ((k.chunkAt x.src slot x.seq).map (·.acc)).getD []
  padTo 256 (((acc.flatMap (accBytes op ty)).drop (256 * i)).take 256)

/-- A cell of a pending partial; with its last cell the partial has been sent once. -/
def Core.takePartialCell (k : Core) (x : Partial) : Core × List PCell :=
  let last := x.next + 1 == x.cells
  let y : Partial := { x with
    next := x.next + 1
    sends := if last then x.sends + 1 else x.sends
    sentAt := k.time.now }
  let k1 := { k with foc := { k.foc with partials := k.foc.partials.map fun z =>
      if z.src = x.src ∧ z.ctx = x.ctx ∧ z.seq = x.seq then y else z } }
  (if last then k1.count (dw x.src) 6 1 0 1 else k1, [⟨.partial' x.ctx x.seq x.gen x.src (k.partialTc x.src) (((k.chunkAt x.src (x.ctx % 512) x.seq).map (·.count)).getD 0)
      (k.partialWords x x.next), x.next, last, false, false⟩])

/-- A parcel being filled: the core, its cells so far, and the slot whose buffer cell is still to fail parity. -/
structure Filling where
  core : Core
  cells : List PCell
  parity : Option Nat
  /-- The accumulator word read for the next partial cell is uncorrectable (R487). -/
  ue : Bool

/-- Take one cell of a VOQ of the pair, or of its pending partial (`part`). The cell read for the slot `parity` names fails
parity, that one alone (R365). -/
def Filling.takeFrom (r : Filling) (i j tc : Nat) (part : Bool) : Filling :=
  if 16 ≤ r.cells.length then r
  else if part then
    match r.core.partialFor i j with
    | some x =>
      if r.ue then { r with core := r.core.accUe x.src x.ctx, ue := false }
      else let y := r.core.takePartialCell x; { r with core := y.1, cells := r.cells ++ y.2 }
    | none => r
  else
    match r.core.voqHead (i / 8) (i % 8) j tc with
    | some c =>
      let fails := r.parity == some r.cells.length
      match r.core.takeCopyCell c (16 - r.cells.length) fails with
      | some y => ⟨y.1, r.cells ++ y.2, if fails then none else r.parity, r.ue⟩
      | none => r
    | none => r

/-- One cell of each of some VOQs of a pair in turn. -/
def Filling.takeRound (i j : Nat) (order : List (Nat × Bool)) (r : Filling) : Filling :=
  order.foldl (fun r v => r.takeFrom i j v.1 v.2) r

/-- Rounds over some VOQs until they have no cell or the parcel is full. -/
def Filling.takeRounds (i j : Nat) (order : List (Nat × Bool)) : Nat → Filling → Filling
  | 0, r => r
  | n + 1, r =>
    let r1 := r.takeRound i j order
    if r1.cells.length = r.cells.length ∧ r1.parity = r.parity ∧ r1.ue = r.ue then r1 else r1.takeRounds i j order n

/-- The VOQs of a pair in the order of R357: expedited TCs, and the others in rotation from the pair's TC pointer. -/
def Core.fillOrder (k : Core) (i j : Nat) : List (Nat × Bool) × List (Nat × Bool) :=
  let exp := k.rd R.MER_CFG_EXP_TC 0 0 0
  let rot := (List.range 8).map fun t => (k.xbar.tcPtr.get (pairKey i j) + t) % 8
  let both (l : List Nat) : List (Nat × Bool) :=
    l.flatMap fun t => if t = k.partialTc (i / 8) then [(t, false), (t, true)] else [(t, false)]
  (both ((List.range 8).filter fun t => bit exp t == 1), both (rot.filter fun t => bit exp t == 0))

/-- Fill a parcel: one cell of each eligible VOQ, then the expedited VOQs, then the others in rotation (R357). -/
def Core.fillParcel (k : Core) (i j : Nat) (parity : Option Nat) (ue : Bool) : Core × List PCell :=
  let (exp, others) := k.fillOrder i j
  let r := (((Filling.mk k [] parity ue).takeRound i j (exp ++ others)).takeRounds i j exp 17).takeRounds i j others 17
  (r.core, r.cells)

/-- The retained parcels of a pair, in the order sent. -/
def Core.retainedOf (k : Core) (i j : Nat) : List Parcel := k.xbar.retained.filter fun x => x.src == i && x.dst == j

/-- Change the copy a cell belongs to. -/
def PCell.onCopy (x : PCell) (f : Copy → Copy) : PCell :=
  match x.body with
  | .copy c => { x with body := .copy (f c) }
  | _ => x

/-- Put a parcel on the wire, in flits towards the Meridian die, and retain it as it stands. The trace records of its copies
learn of a replay, and of slots the Meridian die skips (R765). -/
def Core.sendParcel (k : Core) (p : Parcel) : Core :=
  let slow := decide (0 < k.rd R.M_PMU_STATUS_S 0 0 0)
  let cells := p.cells.map (·.onCopy fun c => { c with
    throttled := c.throttled || slow, replayed := c.replayed || decide (0 < p.sends) })
  let p' := { p with cells := cells, sends := p.sends + 1, sentAt := k.time.now }
  let same (x : Parcel) : Bool := x.src == p.src && x.dst == p.dst && x.seq == p.seq
  let old := k.xbar.retained.any same
  ((k.onX fun x => { x with
    retained := if old then x.retained.map (fun y => if same y then p' else y) else x.retained ++ [p']
    flight := x.flight ++ [p'] }).formParcel (toMeridian p.src) p').xstat T.MER_PORT_PARCELS_TX p.src 1

/-- A new parcel of a matched pair; a pair with no cell to send launches nothing and its credit is unused. -/
def Core.launchNew (k : Core) (i j : Nat) (parity : Option Nat) (ue : Bool) : Core :=
  let r := k.fillParcel i j parity ue
  let key := pairKey i j
  let k1 := r.1
  if r.2.isEmpty then k1.creditBack j 16
  else
    let seq := k1.xbar.seqNext.get key
    let n := r.2.countP fun c => !c.ext
    let k2 := k1.onX fun x => { x with seqNext := x.seqNext.set key ((seq + 1) % 256) }
    ((k2.sendParcel ⟨i, j, seq, r.2, 0, 0⟩).xstat T.MER_PORT_CELLS_TX i n).xcount 2 i n

/-- The next parcel of a pending replay (R361). -/
def Core.launchReplay (k : Core) (i j : Nat) : Core :=
  let key := pairKey i j
  let rest := (k.retainedOf i j).dropWhile fun x => x.seq + 1 != k.xbar.replay.get key
  match rest with
  | [] => (k.onX fun x => { x with replay := x.replay.set key 0 }).creditBack j 16
  | p :: more =>
    let next := match more with
      | q :: _ => q.seq + 1
      | [] => 0
    ((k.onX fun x => { x with replay := x.replay.set key next }).sendParcel p).xstat T.MER_PORT_REPLAYS i 1

/-- The pair's TC pointer advances by one TC (R357). -/
def Core.turnTc (k : Core) (i j : Nat) : Core :=
  k.onX fun x => { x with tcPtr := x.tcPtr.set (pairKey i j) ((x.tcPtr.get (pairKey i j) + 1) % 8) }

/-- PARCEL_LAUNCH (R357): the source launches the parcel of its match; the pair's TC pointer advances behind it. `parity` names
the slot whose buffer cell fails parity as it is read (R365); `ue`: so does an accumulator word of a partial (R487). `lost`:
the state of the pair's VOQ of this TC is uncorrectable, and it is flushed (R570); `ces`: correctable errors met (R573). -/
def Core.parcelLaunch (k' : Core) (i : Nat) (parity : Option Nat) (ue : Bool) (lost : Option Nat) (ces : List (Fin 4096 × Fin 8)) :
    Core :=
  match k'.xbar.matched.find? (·.1 == i) with
  | none => k'
  | some (_, j) =>
    let k := k'.voqsRead (i / 8) ces (lost.map fun tc => (i % 8, j, tc))
    let k1 := k.onX fun x => { x with matched := x.matched.filter (·.1 != i) }
    if ¬ k.xLive i ∨ ¬ k.xLive j then (k1.creditBack j 16).turnTc i j
    else if k.xbar.replay.get (pairKey i j) = 0 then (k1.launchNew i j parity ue).turnTc i j
    else (k1.launchReplay i j).turnTc i j

/-- PARCEL_LAUNCH. -/
def execParcelLaunch (src : Fin 64) (parity : Option (Fin 16)) (ue : Bool) (lost : Option (Fin 8)) (ces : List (Fin 4096 × Fin 8))
    (s : State) : Host.Outcome State Fault Refusal :=
  done (s.onCore fun k => k.parcelLaunch src (parity.map (·.val)) ue (lost.map (·.val)) ces)

/-! ### Landing (R46, R315, R316, R348 to R352, R360, R408) -/

/-- The containers a copy's headers carry across dies, as the destination rebuilds them (R348, R351). -/
def Core.crossed (k : Core) (c : Copy) : Bridged :=
  let sec := k.time.sec
  let lo := c.carried.c61.toNat % 2 ^ 20
  let v := sec / 2 ^ 20 * 2 ^ 20 + lo
  { c.carried with
    c56 := c.carried.c56 &&& 0x0F3777FF
    c61 := BitVec.ofNat 32 (if sec < v then v - 2 ^ 20 else v)
    c62 := BitVec.ofNat 32 (c.entry % 2048)
    flags := c.carried.flags % 256 }

/-- A copy as a cell of it finds it: an empty last cell (R367) ends the frame where it was cut. -/
def Copy.cutAt (y c : Copy) : Copy :=
  if c.aborted then { y with frame := y.frame.take (256 * c.sent), short := true } else y

/-- A cell of a copy lands: it takes a buffer cell charged to the landing pool of the port (R315). -/
def Core.landCell (k : Core) (j : Nat) (c : Copy) (err : Bool) : Core :=
  match k.xbar.landing.find? fun x => x.1 == j && x.2.1.id == c.id with
  | some (_, y, n) =>
    let k1 := match k.grp y.grp with
      | some g => k.putGrp { g with cells := g.cells + 1 }
      | none => k
    k1.onX fun x => { x with landing := x.landing.map fun z =>
      if z.1 = j ∧ z.2.1.id = c.id then (j, { y.cutAt c with
        bad := y.bad || err, throttled := y.throttled || c.throttled, replayed := y.replayed || c.replayed }, n + 1) else z }
  | none =>
    let r := k.takeId
    let g : Grp := { freshGrp r.1 (j / 8) 1 0 0 with ingress := none, landing := some (j % 8), waiting := 1 }
    let y : Copy := { c with
      grp := r.1, sent := 0, bad := c.bad || err, carried := k.crossed c }
    (r.2.addGrp g).onX fun x => { x with landing := x.landing ++ [(j, y, 1)] }

/-- The last cell of a copy has landed: it is enqueued, its landing cells return their credit, and its landing charge
ends (R315, R338, R353). -/
def Core.landed (k : Core) (j id : Nat) (ue : Bool) : Core :=
  match k.xbar.landing.find? fun x => x.1 == j && x.2.1.id == id with
  | none => k
  | some (_, c, n) =>
    let k1 := (k.onX fun x => { x with landing := x.landing.filter fun z => !(z.1 == j && z.2.1.id == id) }).enqueue c ue
    let k2 := match k1.grp c.grp with
      | some g => k1.putGrp { g with landing := none, waiting := 0 }
      | none => k1
    (k2.settle c.grp).creditBack j n

/-- One cell of a good parcel is taken at its destination. An extension cell takes no landing cell (R350). -/
def Core.takeCell (k : Core) (j : Nat) (ue : Bool) (x : PCell) : Core :=
  match x.body with
  | .copy c =>
    let key := (8 * c.die + c.pipe, j, c.id)
    if x.ext then k.creditBack j 1
    else if k.xbar.doomed.contains key then
      (k.onX fun y => { y with doomed := if x.last then y.doomed.erase key else y.doomed }).creditBack j 1
    else
      let k1 := k.landCell j c x.err
      if x.last then k1.landed j c.id ue else k1
  | .partial' .. => { k with foc := { k.foc with landed := k.foc.landed ++ [(j / 8, j, x)] } }

/-- Send a message of the control channel about a pair. -/
def Core.xmsg (k : Core) (i j seq : Nat) (nack : Bool) : Core :=
  k.onX fun x => { x with msgs := x.msgs ++ [⟨i, j, seq, nack⟩] }

/-- The destination handles a parcel (R360). `good`: its parity is right. -/
def Core.parcelTaken (k : Core) (p : Parcel) (good ue : Bool) : Core :=
  let key := pairKey p.src p.dst
  let want := k.xbar.seqWant.get key
  let k1 := k.xstat T.MER_PORT_PARCELS_RX p.dst 1
  let behind := decide (0 < (want + 256 - p.seq) % 256) && decide ((want + 256 - p.seq) % 256 ≤ 64)
  if behind ∧ good then (k1.creditBack p.dst 16).xmsg p.src p.dst p.seq false
  else if ¬ good ∨ p.seq ≠ want then
    let k2 := k1.creditBack p.dst 16
    -- while the pair's later parcels are discarded, only a failure of the named parcel is named again
    if k.xbar.gap.get key = 1 ∧ p.seq ≠ want then k2
    else (((k2.onX fun x => { x with gap := x.gap.set key 1 }).xmsg p.src p.dst want true).xstat
      T.MER_PORT_NACKS_TX p.dst 1).xcount 3 p.dst 1
  else
    let k2 := k1.onX fun x => { x with gap := x.gap.set key 0, seqWant := x.seqWant.set key ((want + 1) % 256) }
    (p.cells.foldl (fun k c => k.takeCell p.dst ue c) (k2.xmsg p.src p.dst p.seq false)).creditBack p.dst
      (16 - p.cells.length)

/-- PARCEL_ARRIVAL (R360, R575): the oldest parcel on the way to a port arrives, or is lost below this level. Its flits, and those
ahead of them, are delivered and acknowledged on both links it crosses; while one of them waits for a retry or retrains, the parcel
waits. `ces`: correctable errors the reads it makes meet (R573). -/
def Core.parcelArrival (k' : Core) (j : Nat) (good lost ue : Bool) (ces : List (Fin 4096 × Fin 8)) : Core :=
  match k'.xbar.flight.find? (·.dst == j) with
  | none => k'
  | some p =>
    if k'.flitsWait (toMeridian p.src) ∨ k'.flitsWait (toDie j) then k'
    else
    let name := (p.src, p.dst, p.seq)
    let k := ((k'.cesFound (dw (j / 8)) ces).flitsSettled (toMeridian p.src) name).flitsSettled (toDie j) name
    let rec' (l : List Parcel) : List Parcel := l.eraseP (·.dst == j)
    let k1 := k.onX fun x => { x with flight := rec' x.flight }
    if lost ∨ k.fenced (p.src / 8) ∨ k.fenced (j / 8) ∨ k.portFailed p.src ∨ k.portFailed j then k1.creditBack j 16
    else k1.parcelTaken p good ue

/-- PARCEL_ARRIVAL. -/
def execParcelArrival (dst : Fin 64) (good lost ue : Bool) (ces : List (Fin 4096 × Fin 8)) (s : State) :
    Host.Outcome State Fault Refusal :=
  done (s.onCore fun k => k.parcelArrival dst good lost ue ces)

/-! ### Port faults (R362, R577, R578) -/

/-- The copies a list of parcels retains, each once. -/
def heldCopies (ps : List Parcel) : List Copy :=
  (ps.flatMap fun p => p.cells.filterMap fun c => match c.body with
    | .copy y => some y
    | .partial' .. => none).foldl (fun l c => if l.any (·.id == c.id) then l else l ++ [c]) []

/-- A copy waiting on its source die is discarded and counted there (R66, R578). -/
def Core.discardX (k : Core) (c : Copy) : Core := (k.bump R.RAS_XPORT_DROP_CNT (dw c.die) 0 0 1).copyGone c.grp

/-- Discard what the pairs that `hit` names have on the wire: matches, parcels and messages on their way, and landing
cells, each copy counted on the die it was landing on; the landing credit they took returns (R353). The copies of the
parcels count where they are retained, as `dropPairs` discards them (R66, R68). -/
def Core.dropWire (k : Core) (hit : Nat → Nat → Bool) : Core :=
  let land := k.xbar.landing.filter fun x => hit (8 * x.2.1.die + x.2.1.pipe) x.1
  let back := (k.xbar.matched.filter fun m => hit m.1 m.2).map (·.2) ++
    (k.xbar.flight.filter fun p => hit p.src p.dst).map (·.dst)
  let k1 := (back.foldl (fun k j => k.creditBack j 16) k).onX fun x => { x with
    flight := x.flight.filter fun p => !hit p.src p.dst
    msgs := x.msgs.filter fun m => !hit m.src m.dst
    matched := x.matched.filter fun m => !hit m.1 m.2
    doomed := x.doomed.filter fun y => !hit y.1 y.2.1 }
  let k2 := { k1 with link := { k1.link with flits := k1.link.flits.map fun f => match f.parcel with
    | some p => if hit p.1 p.2.1 then { f with parcel := none } else f
    | none => f } }
  land.foldl (fun k x => k.discardLanding (fun k => k.bump R.RAS_XPORT_DROP_CNT (dw (x.1 / 8)) 0 0 1) x) k2

/-- Discard the retained parcels, VOQ copies and landing cells of the pairs that `hit` names, each copy counted on the
die that holds it. -/
def Core.dropPairs (k : Core) (hit : Nat → Nat → Bool) : Core :=
  let gone := k.xbar.retained.filter fun p => hit p.src p.dst
  let inVoq := k.buf.voq.filter fun c => c.crosses && hit (8 * c.die + c.pipe) c.dp
  let held := heldCopies gone
  let copies := held ++ inVoq.filter fun c => !(held.any (·.id == c.id))
  let k1 := { k with buf := { k.buf with voq := k.buf.voq.filter fun c => !(copies.any (·.id == c.id)) } }
  let k2 := k1.onX fun x => { x with retained := x.retained.filter fun p => !hit p.src p.dst }
  ((copies.foldl Core.discardX k2).dropWire hit).freeLinesOf ((gone ++ k.xbar.flight.filter fun p => hit p.src p.dst).flatMap (·.cells))

/-- The pair touches a die. -/
def touches (d i j : Nat) : Bool := i / 8 == d || j / 8 == d

/-- A fenced die whose ports' down-holds have all ended: what other dies and the die itself hold for its pairs is flushed
with counts (R66). -/
def Core.fenceFlush (k : Core) (d : Nat) : Core :=
  if k.fenced d ∧ k.holdsOver d then k.dropPairs (touches d) else k

/-- DOWN_HOLD_EXPIRE (R66, R370): the down-hold of a port ends with the link still down. Copies already on their way
across the crossbar are dropped where they are enqueued. -/
def execDownHoldExpire (d : Fin 8) (l : Fin 256) (s : State) : Host.Outcome State Fault Refusal :=
  done (s.onCore fun k =>
    let e := k.buf.holdEnd.get (d.val * 256 + l.val)
    if e = 0 ∨ k.time.now < e - 1 ∨ k.linkUp d l then k else (k.downFlush d l).fenceFlush d)

/-- End the wire substitutions that run at an end of a port, with code 5 (R587, R605). End 0 is the die's, 1 the Meridian
die's. -/
def Core.endWireSubs (k : Core) (p dir : Nat) : Core :=
  let hit (x : WireSub) : Bool := x.port == p && x.meridian == (dir == 1)
  (k.link.wireSubs.filter hit).foldl (fun k x =>
    let b := 2 ^ (4 * x.bundle + x.spare)
    let put (k : Core) (st cd fr : Fld) (w i : Nat) : Core :=
      let used := k.rd fr w i 0
      ((k.wr st w i 0 2).wr cd w i 0 5).wr fr w i 0 (used - (used &&& b))
    if dir = 0 then (put k R.SHN_SPARE_STAT_STATE R.SHN_SPARE_STAT_CODE R.SHN_SPARE_STAT_FREE (dw (p / 8)) (p % 8)).raise
      (dw (p / 8)) (0x30 + p % 8) 1
    else (put k R.M_SHN_SPARE_STAT_STATE R.M_SHN_SPARE_STAT_CODE R.M_SHN_SPARE_STAT_FREE 0 p).raise 0 (0x20 + p) 1)
    { k with link := { k.link with wireSubs := k.link.wireSubs.filter fun x => !hit x } }

/-- Set the state of both receiving ends of a Meridian port (SHN_STATUS). -/
def Core.shnState (k : Core) (p v : Nat) : Core :=
  (k.wr R.SHN_STATUS_STATE (dw (p / 8)) (p % 8) 0 v).wr R.M_SHN_STATUS_STATE 0 p 0 v

/-- Focus contexts whose partials need a Meridian port (R578). -/
def Core.ctxsNeeding (k : Core) (p : Nat) : List Nat :=
  (List.range 512).filterMap fun slot =>
    let d := p / 8
    let root := k.ctx T.FOC_CTX_ROOT d slot
    if k.ctxActive d slot ∧ k.ctx T.FOC_CTX_PIPE d slot = p % 8 ∧ 1 < (k.ctxDies root slot).length then
      some (root * 512 + slot)
    else none

/-- A Meridian port fails (R578). -/
def Core.portFail (k : Core) (p : Nat) : Core :=
  let k1 := (((k.tw T.MER_PORT_FAULT 0 0 p 1).raise 0 0x0C0 5).shnState p 3).onX fun x => { x with
    retrain := (x.retrain.set (2 * p) 0).set (2 * p + 1) 0
    faulty := x.faulty.filter (· != p) }
  let k2 := ((k1.endWireSubs p 0).endWireSubs p 1).dropPairs fun i j => i == p || j == p
  (k2.ctxsNeeding p).foldl (fun k c => k.focFail c 5) k2

/-- Retrain one direction of a port (R576): 0 is received on the die, 1 on the Meridian die. -/
def Core.retrainStart (k : Core) (p dir : Nat) : Core :=
  let k0 := (k.onX fun x => { x with retrain := x.retrain.set (2 * p + dir) (k.time.now + 1) }).endWireSubs p dir
  let k1 := { k0 with link := { k0.link with
      retries := k0.link.retries.set (2 * p + dir) 0
      retryAsked := k0.link.retryAsked.set (2 * p + dir) 0 } }
  if dir = 0 then ((k1.bump R.SHN_RETRAIN_CNT (dw (p / 8)) (p % 8) 0 1).wr R.SHN_STATUS_STATE (dw (p / 8)) (p % 8) 0 1).raise
    (dw (p / 8)) (0x30 + p % 8) 0
  else ((k1.bump R.M_SHN_RETRAIN_CNT 0 p 0 1).wr R.M_SHN_STATUS_STATE 0 p 0 1).raise 0 (0x20 + p) 0

/-- One crossbar-port fault on a Meridian port: a first one retrains it, a second within 1 s fails it (R577, R578). -/
def Core.portFault (k : Core) (p : Nat) : Core :=
  let last := k.xbar.faultAt.get p
  if k.portFailed p ∨ k.fenced (p / 8) then k
  else if last ≠ 0 ∧ k.time.now + 1 - last ≤ 1000000000 then k.portFail p
  else
    let k1 := k.onX fun x => { x with faultAt := x.faultAt.set p (k.time.now + 1), faulty := x.faulty ++ [p] }
    (k1.retrainStart p 0).retrainStart p 1

/-- The crossbar-port-fault event of a pair: a fault on each of its ports (R362, R577). -/
def Core.crossbarFault (k : Core) (i j : Nat) : Core := ((k.raise 0 0x010 0).portFault i).portFault j

/-! ### Acknowledgement and replay (R359 to R362) -/

/-- Resend the pair's parcels from a sequence number on, unless that parcel has used up its sends, which is a fault (R361, R362).
While the retrains of an earlier fault run, none is sent and none faults again: the sends start anew behind them (R577). -/
def Core.replayFrom (k : Core) (i j seq : Nat) : Core :=
  match (k.retainedOf i j).find? (·.seq == seq) with
  | none => k
  | some p =>
    if (k.xbar.faulty.any fun p => p == i || p == j) then k
    else if k.rd R.MER_CFG_REPLAY_MAX 0 0 0 + 1 ≤ p.sends then k.crossbarFault i j
    else k.onX fun x => { x with replay := x.replay.set (pairKey i j) (seq + 1) }

/-- The parcels of a pair up to a sequence number are acknowledged: their copies that are complete leave the source
(R46). -/
def Core.parcelsAcked (k : Core) (i j seq : Nat) : Core :=
  let mine := k.retainedOf i j
  if ¬ mine.any (·.seq == seq) then k
  else
    let after := (mine.dropWhile (·.seq != seq)).drop 1
    let gone := mine.take (mine.length - after.length)
    let key := pairKey i j
    let cut := gone.any fun p => p.seq + 1 == k.xbar.replay.get key
    let next := match after with
      | p :: _ => p.seq + 1
      | [] => 0
    let k1 := k.onX fun x => { x with
      retained := x.retained.filter (fun p => !(p.src == i && p.dst == j)) ++ after
      replay := if cut then x.replay.set key next else x.replay }
    ((gone.flatMap (·.cells)).foldl (fun k c => match c.body with
      | .copy y => if c.last && !c.ext then k.copyGone y.grp else k
      | .partial' .. => k) k1).freeLinesOf (gone.flatMap (·.cells))

/-- Take the oldest message of a kind for a source. -/
def Core.takeMsg (k : Core) (i : Nat) (nack : Bool) : Option (XMsg × Core) :=
  (k.xbar.msgs.find? fun m => m.src == i && m.nack == nack).map fun m =>
    (m, k.onX fun x => { x with msgs := x.msgs.eraseP fun m => m.src == i && m.nack == nack })

/-- What the parcel retention index answers (R571 class 1, R572): a correctable error is corrected and counted; an
uncorrectable one is a crossbar-port fault of the port, and the message finds no parcel. -/
def Core.retentionRead (k : Core) (i : Nat) (read : Ecc) (go : Core → Core) : Core :=
  match read with
  | .good => go k
  | .ce => go (k.ceFound 0 0x10 0 1)
  | .ue => ((k.ueFound 0 1).raise 0 0x010 0).portFault i

/-- PARCEL_ACK_RECEIVE (R359): the source's oldest acknowledgement arrives. `read`: how the retention index reads. -/
def execParcelAckReceive (src : Fin 64) (read : Ecc) (s : State) : Host.Outcome State Fault Refusal :=
  done (s.onCore fun k => match k.takeMsg src false with
    | some (m, k1) => k1.retentionRead m.src read fun k => k.parcelsAcked m.src m.dst m.seq
    | none => k)

/-- PARCEL_NACK_RECEIVE (R361): the source's oldest NACK arrives. -/
def execParcelNackReceive (src : Fin 64) (read : Ecc) (s : State) : Host.Outcome State Fault Refusal :=
  done (s.onCore fun k => match k.takeMsg src true with
    | some (m, k1) => (k1.xstat T.MER_PORT_NACKS_RX m.src 1).retentionRead m.src read fun k => k.replayFrom m.src m.dst m.seq
    | none => k)

/-- PARCEL_ACK_TIMEOUT (R361): the pair's oldest parcel has gone without an acknowledgement for ACK_TMO_NS. None runs out while a
port of the pair retrains, for nothing crosses then (R576). -/
def Core.parcelTimeout (k : Core) (i j : Nat) : Core :=
  match (k.retainedOf i j).head? with
  | some p =>
    if k.xbar.replay.get (pairKey i j) = 0 ∧ ¬ k.retraining i ∧ ¬ k.retraining j ∧ p.sentAt + k.rd R.MER_CFG_ACK_TMO_NS 0 0 0 ≤ k.time.now then
      ((k.xstat T.MER_PORT_ACK_TMOS i 1).raise 0 0x010 1).replayFrom i j p.seq
    else k
  | none => k

/-- PARCEL_ACK_TIMEOUT. -/
def execParcelAckTimeout (src dst : Fin 64) (s : State) : Host.Outcome State Fault Refusal :=
  done (s.onCore fun k => k.parcelTimeout src dst)

end Sys2Proof.Machine
end

