-- ==== Sys2Proof/Machine/Egress.lean ====
section
/-!
DEFINITION. Egress service (R42, R315, R334, R366, R368, R407, R409, R415, R420 to R424, R761): which queue of a port
starts its head frame, and the end of a transmission.
-/
namespace Sys2Proof.Machine

/-! ### The length of a head frame after its rebuild (R423) -/

/-- Run the words that are left of an egress half and answer what it comes to; none when it is dropped. -/
def Core.runEgress (k : Core) (p : Pkt) : Nat → Option (Core × Pkt)
  | 0 => some (k, p)
  | n + 1 =>
    if p.ended then some (k, p)
    else
      let key := storeKey p.die p.pipe p.stage p.addr
      if k.pipes.storeUe.contains key then none
      else match k.execWord p (k.pipes.store.get key) none with
        | (k1, .go q) => k1.runEgress { q with stage := q.stage + 1 } n
        | (k1, .wait q) => k1.runEgress { q with stage := q.stage + 1 } n

/-- A copy as it enters its egress half. -/
def Core.egressPkt (k : Core) (c : Copy) (id : Nat) (prs : Option Nat) : Core × Pkt :=
  let d := c.dp / 8
  let p := { freshPkt id d (c.dp % 8) (c.port % 256) 0 c.lossless c.grp c.frame c.tc c.carried.c60 c.carried.c61 with
    bad := c.bad, short := c.short, copy := some c }
  k.startEgress p c (k.epoch d (c.dp % 8) true) prs

/-- The length of a copy's frame after the rebuild, FCS and trace record included; none when its egress half drops it or
sends it elsewhere. -/
def Core.rebuiltLen (k : Core) (c : Copy) : Option Nat :=
  let s := k.egressPkt c 0 none
  match s.1.runEgress s.2 6 with
  | none => none
  | some (k1, p) =>
    let elsewhere := match p.disp with
      | some (4, _) => true
      | some (7, _) => true
      | _ => false
    if elsewhere then none
    else match k1.rebuilt p c with
      | none => none
      | some (f, t, _) =>
        let tr := k1.placeTrace p.die p (k1.traceRecord p.die p.tCapt.2 (k1.egTrace c p)) c.body.length
          (k1.mtu p.die (c.port % 256)) f t
        some (tr.2.length + 4)

/-! ### Eligibility (R415, R420, R424) -/

/-- The oldest copy of an egress queue, unless earlier copies of the queue are still in the spill region (R375). -/
def Core.headOf (k : Core) (d l q : Nat) : Option Copy :=
  (k.buf.eq.find? fun c => c.port == d * 256 + l && c.queue == q).filter fun c => !k.heldBack c

/-- The gate of a queue allows its head (R415): by the rebuilt length, or the MTU for a copy cut through. -/
def Core.gateOpen (k : Core) (d l q : Nat) (c : Copy) (len : Nat) : Bool :=
  k.gateAllows d l q (if c.cut then k.mtu d l else len)

/-- Pause, watchdog and down-hold leave the queue free to start (R420). -/
def Core.queueFree (k : Core) (d l q : Nat) : Bool :=
  !k.paused d l q && !k.wdogDiscard d l q && !k.holding d l && k.linkUp d l

/-- What the scheduler sees of a queue: nothing of an empty one. A queue whose head is still in the spill region is not empty,
and no frame of it may start (R420). -/
def Core.viewQueue (k : Core) (d l q : Nat) : Option QueueView :=
  match k.headOf d l q with
  | some c =>
    let len := (k.rebuiltLen c).getD 0
    some ⟨len, k.queueFree d l q && k.gateOpen d l q c len && k.shapersAllow d l q⟩
  | none => if k.queueEmpty d l q then none else some ⟨0, false⟩

/-- Count the heads that a gate or a shaper holds back (R755 class 5). -/
def Core.countHeld (k : Core) (d l q : Nat) : Core :=
  match k.headOf d l q with
  | none => k
  | some c =>
    let len := (k.rebuiltLen c).getD 0
    if ¬ k.queueFree d l q then k
    else if ¬ k.gateOpen d l q c len then k.count (dw d) 5 1 (l / 32) 1
    else if ¬ k.shapersAllow d l q then k.count (dw d) 5 2 (l / 32) 1
    else k

/-- Charge a frame to every bucket that governs its queue (R424). -/
def Core.chargeShapers (k : Core) (d l q len : Nat) : Core :=
  let w := dw d
  let k1 := (k.shpCharge shpQ w (l / 32) (l % 32 * 16 + q) len).shpCharge shpPort w (l / 32) (l % 32) len
  match k1.groupOf d l q with
  | some g => k1.setLevel T.RMP_GRP_LEVEL w 0 g (k1.level T.RMP_GRP_LEVEL w 0 g - len * 1000000)
  | none => k1

/-- A buffer cell of a copy fails parity (R365, R570 class 14). -/
def Core.cellBad (k : Core) (d : Nat) : Core := k.ueFound (dw d) 14

/-- Start the head of a queue into the egress half; a head whose cell fails parity is dropped and counted (R391). -/
def Core.startHead (k : Core) (d l q : Nat) (x : SelectFacts) : Core :=
  match k.headOf d l q with
  | none => k
  | some c =>
    let k1 := { k with buf := { k.buf with eq := k.buf.eq.filter (·.id != c.id) } }
    if x.parity then
      ((((k1.cellBad d).bump R.BUF_CELL_PAR_DROP_CNT (dw d) 0 0 1).raise (dw d) 0x28 2).releaseEgress c l q).noteIdle d l q
    else
    let k2 := if c.cut then k1 else match k.rebuiltLen c with
      | some len => k1.chargeShapers d l q len
      | none => k1
    let r := k2.takeId
    let s := r.2.egressPkt c r.1 (x.prs.map (·.val))
    ((s.1.moveOn s.2).count (dw d) 5 0 (l / 32) 1).watchQueue d l q true

/-- A PFC frame of the port is due: it passes ahead of queue selection (R331). -/
def Core.pfcFirst (k : Core) (d l : Nat) : Bool := k.linkUp d l && k.buf.pfcDue.any fun e => e.1 == d * 256 + l

/-- EGRESS_SELECT (R331, R421): at a frame boundary the port starts the head of the first eligible queue. A queue whose link memory
is found uncorrectable is flushed first and starts again empty (R570 class 12). -/
def Core.egressSelect (k' : Core) (d l : Nat) (x : SelectFacts) : Core :=
  if ¬ k'.portExists d l ∨ k'.portBusy d l ∨ k'.pfcFirst d l ∨ ¬ k'.macReady d l then k'
  else
    let k := match x.link with
      | some q => (k'.cesFound (dw d) x.ces).queueLost d l q
      | none => k'.cesFound (dw d) x.ces
    let r := k.pickQueue d l (k.viewQueue d l)
    let k1 := (List.range 16).foldl (fun k q => k.countHeld d l q) r.1
    match r.2 with
    | some q => k1.startHead d l q x
    | none => k1

/-- EGRESS_SELECT. -/
def execEgressSelect (d : Fin 8) (l : Fin 256) (facts : SelectFacts) (s : State) : Host.Outcome State Fault Refusal :=
  done (s.onCore fun k => k.egressSelect d l facts)

/-! ### The end of a transmission (R315, R366, R761) -/

/-- Statistics of a frame sent (R761). -/
def Core.txStats (k : Core) (d l : Nat) (f : List Byte) (stomped : Bool) : Core :=
  let k1 := k.pstat d l (27 + sizeIndex f.length) 1
  if stomped then (k1.pstat d l 25 1).count (dw d) 3 6 (l / 32) 1
  else
    let a := getBe f 0 6
    let kind := if a = 2 ^ 48 - 1 then 2 else if a / 2 ^ 40 % 2 = 1 then 1 else 0
    ((k1.pstat d l 20 1).pstat d l 21 f.length).pstat d l (22 + kind) 1

/-- TRANSMIT_COMPLETE (R315): the last byte of the port's frame leaves. A port whose link is down or that is in down-hold
keeps its frame (R368), and so does one whose MAC is held in reset (R182). `parity`: a cell read for it failed parity after
its first byte had left (R365, R366). -/
def Core.transmitComplete (k' : Core) (d l : Nat) (parity : Bool) : Core :=
  let k := if parity then k'.cellBad d else k'
  match k.egr.sending.find? fun x => x.copy.port == d * 256 + l with
  | none => k
  | some x =>
    if ¬ k.linkUp d l ∨ k.holding d l ∨ ¬ k.macReady d l then k
    else
      let c := { x.copy with bad := x.copy.bad || parity }
      let frame := if c.bad then bodyOf x.frame ++ badFcsOf (bodyOf x.frame) else x.frame
      let k1 := { k with egr := { k.egr with sending := k.egr.sending.filter fun y => y.copy.id != c.id } }
      let k2 := if c.cut then k1.chargeShapers d l c.queue frame.length else k1
      let k3 := (((k2.txStats d l frame c.bad).etsCapture d l x.flags x.tag x.start).sendLine d l frame).emit
        (.frame (d * 256 + l) frame)
      ((k3.releaseEgress c l c.queue).noteIdle d l c.queue).watchQueue d l c.queue true

/-- TRANSMIT_COMPLETE. -/
def execTransmitComplete (d : Fin 8) (l : Fin 256) (parity : Bool) (s : State) : Host.Outcome State Fault Refusal :=
  done (s.onCore fun k => k.transmitComplete d l parity)

end Sys2Proof.Machine
end

