-- ==== Sys2Proof/Machine/Focus.lean ====
section
/-!
DEFINITION. The Focus engine's commands (R462 to R499): contributions, partials, results, errors, chunk timers and the
CREATE and DESTROY commands.
-/
namespace Sys2Proof.Machine

/-- Change the Focus engines. -/
def Core.onFoc (k : Core) (f : Foc → Foc) : Core := { k with foc := f k.foc }

/-- Take the oldest Focus message of a kind for a die. -/
def Core.takeFocMsg (k : Core) (d : Nat) (kind : FocMsgKind) : Option (FocMsg × Core) :=
  (k.foc.msgs.find? fun m => m.dst == d && m.kind == kind).map fun m =>
    (m, k.onFoc fun f => { f with msgs := f.msgs.eraseP fun m => m.dst == d && m.kind == kind })

/-- A chunk of the die is complete at its root, of a context that is ACTIVE: its RESULT is due (R479). -/
def Core.resultDue (k : Core) (d : Nat) : Option Chunk := k.foc.chunks.find? fun x => x.die == d && x.complete && k.ctxActive d x.slot

/-- A chunk of the die waits to be rounded (R492). -/
def Core.roundingDue (k : Core) (d : Nat) : Bool :=
  k.foc.chunks.any fun x => x.die == d && x.complete && !x.rounded && k.ctxActive d x.slot

/-- The engine reads what a contribution needs: a context entry (1) or a member entry (2) found uncorrectable poisons the slot
(R490). -/
def Core.focRead (k : Core) (d c : Nat) (ue : Option Nat) : Core :=
  match ue with
  | some 0 => k
  | some _ => if k.ctx T.FOC_CTX_STATE d (c % 512) = 3 then k else (k.ueFound (dw d) 10).focPoison d (c % 512)
  | none => k

/-- FOCUS_CONTRIBUTION (R466, R492): the oldest contribution in the die's input queue is handled, behind the partial cells
that have landed and the chunks to be rounded, and its cells are released. `ue`: an accumulator word (0), the context entry
(1) or a member entry (2) read for it is uncorrectable; `ces`: correctable errors met. -/
def execFocusContribution (d : Fin 8) (ue : Option (Fin 3)) (ces : List (Fin 4096 × Fin 8)) (s : State) :
    Host.Outcome State Fault Refusal :=
  done (s.onCore fun k => match k.foc.inq.find? (·.die == d.val) with
    | none => k
    | some p =>
      if (k.foc.landed.any (·.1 == d.val)) ∨ k.roundingDue d then k
      else
        let k1 := ((k.onFoc fun f => { f with inq := f.inq.eraseP (·.die == d.val) }).cesFound (dw d) ces).focRead d p.ctx (ue.map (·.val))
        (k1.contribute p (ue == some 0)).copyGone p.grp)

/-- OPEN_NOTICE_RECEIVE (R480): the root opens the chunk and starts its timer. -/
def execOpenNoticeReceive (d : Fin 8) (s : State) : Host.Outcome State Fault Refusal :=
  done (s.onCore fun k => match k.takeFocMsg d .openNotice with
    | none => k
    | some (m, k1) =>
      if k1.ctxIs d m.ctx m.gen ∧ k1.inWindow d (m.ctx % 512) m.seq then
        (k1.openChunk d (m.ctx % 512) m.seq 0).startTimer d (m.ctx % 512) m.seq
      else k1)

/-! ### Partials (R475 to R478) -/

/-- What the root holds of a partial; an empty gathering where it holds none. -/
def Core.gathered (k : Core) (d src ctx seq j : Nat) : Gather :=
  (k.foc.gather.find? fun x => x.root == d && x.src == src && x.ctx == ctx && x.seq == seq).getD ⟨d, src, ctx, seq, 0, j, false, []⟩

/-- Replace it; one that expects its first cell is forgotten. -/
def Core.setGathered (k : Core) (x : Gather) : Core :=
  k.onFoc fun f =>
    let rest := f.gather.filter fun y => !(y.root == x.root && y.src == x.src && y.ctx == x.ctx && y.seq == x.seq)
    { f with gather := if x.next = 0 ∧ ¬ x.bad then rest else rest ++ [x] }

/-- The root holds every cell of a partial of `count` elements: it adds it once and acknowledges it (R477); counts that differ
across dies fail the context (R487), and so does an accumulator word found uncorrectable (`ue`). -/
def Core.addPartial (k : Core) (d src ctx seq gen count : Nat) (words : List Byte) (ue : Bool) : Core :=
  let slot := ctx % 512
  let ack (k : Core) : Core := k.focSend ⟨.ack, d, src, ctx, seq, gen⟩
  let already := match k.chunkAt d slot seq with
    | some x => bit x.doneDies src == 1
    | none => false
  if already || !k.inWindow d slot seq then ack k
  else
    let k1 := (k.openChunk d slot seq count).startTimer d slot seq
    match k1.chunkAt d slot seq with
    | none => k1
    | some x =>
      if x.count ≠ count then k1.focFail ctx 7
      else if ue && !x.acc.isEmpty then k1.accUe d ctx
      else
        let op := k1.ctx T.FOC_CTX_OP d slot
        let ty := k1.ctx T.FOC_CTX_TYPE d slot
        let acc := accsOfBytes op ty count words
        let y : Chunk := { x with
          acc := if x.acc.isEmpty then acc else combineAll op ty x.acc acc
          doneDies := x.doneDies ||| 2 ^ src }
        ((ack (k1.putChunk y)).count (dw d) 6 2 0 1).checkDone d slot seq

/-- A partial cell is taken at the root (R476, R477). The cells of a partial keep their landing credit until the root adds or
discards them (R475). -/
def Core.partialCell (k : Core) (d j : Nat) (x : PCell) (ue : Bool) : Core :=
  match x.body with
  | .copy _ => k.creditBack j 1
  | .partial' ctx seq gen src _ count words =>
    if ¬ k.ctxIs d ctx gen then (k.creditBack j 1).freeLines ctx
    else
      let g := k.gathered d src ctx seq j
      -- a first cell begins the partial anew
      let k1 := if x.idx = 0 then k.gatherCredit g else k
      let cur : Gather := if x.idx = 0 then ⟨d, src, ctx, seq, 0, j, false, []⟩ else g
      if cur.bad then k1.creditBack j 1
      else if x.err ∨ x.idx ≠ cur.next then
        (((k1.gatherCredit cur).creditBack j 1).setGathered { cur with next := 0, bad := true, words := [] }).focSend
          ⟨.nack, d, src, ctx, seq, gen⟩
      else
        let now : Gather := { cur with next := x.idx + 1, words := cur.words ++ words }
        if x.last then ((k1.gatherCredit now).setGathered { now with next := 0 }).addPartial d src ctx seq gen count now.words ue
        else k1.setGathered now

/-- PARTIAL_CELL_ARRIVAL (R477): the oldest partial cell that has landed on the die. `ue`: an accumulator word it is added to is
uncorrectable; `ces`: correctable errors met. -/
def execPartialCellArrival (d : Fin 8) (ue : Bool) (ces : List (Fin 4096 × Fin 8)) (s : State) : Host.Outcome State Fault Refusal :=
  done (s.onCore fun k => match k.foc.landed.find? (·.1 == d.val) with
    | none => k
    | some x => ((k.onFoc fun f => { f with landed := f.landed.eraseP (·.1 == d.val) }).cesFound (dw d) ces).partialCell d x.2.1 x.2.2 ue)

/-- Replace a retained partial. -/
def Core.putPartial (k : Core) (p : Partial) : Core :=
  k.onFoc fun f => { f with partials := f.partials.map fun x =>
    if x.src = p.src ∧ x.ctx = p.ctx ∧ x.seq = p.seq then p else x }

/-- The retained partial a message is about. -/
def Core.partialOf (k : Core) (m : FocMsg) : Option Partial :=
  k.foc.partials.find? fun x => x.src == m.dst && x.ctx == m.ctx && x.seq == m.seq && x.gen == m.gen

/-- Resend a whole partial, or fail its context once it has been sent RETRY + 1 times (R478). -/
def Core.resendPartial (k : Core) (p : Partial) : Core :=
  if k.rd R.FOC_PART_CFG_RETRY (dw p.src) 0 0 + 1 ≤ p.sends then k.focFail p.ctx 5
  else ((k.putPartial { p with next := 0 }).bump R.FOC_PART_REPLAY_CNT (dw p.src) 0 0 1).raise (dw p.src) 0x60 3

/-- PARTIAL_ACK_RECEIVE (R478). -/
def execPartialAckReceive (d : Fin 8) (s : State) : Host.Outcome State Fault Refusal :=
  done (s.onCore fun k => match k.takeFocMsg d .ack with
    | none => k
    | some (m, k1) => match k1.partialOf m with
      | some p => k1.putPartial { p with acked := true }
      | none => k1)

/-- PARTIAL_NACK_RECEIVE (R478). -/
def execPartialNackReceive (d : Fin 8) (s : State) : Host.Outcome State Fault Refusal :=
  done (s.onCore fun k => match k.takeFocMsg d .nack with
    | none => k
    | some (m, k1) => match k1.partialOf m with
      | some p => if p.acked ∨ ¬ k1.ctxIs d p.ctx p.gen then k1 else k1.resendPartial p
      | none => k1)

/-- PARTIAL_ACK_TIMEOUT (R478): the die's oldest partial that was sent in full has waited ACK_TMO_US. -/
def execPartialAckTimeout (d : Fin 8) (s : State) : Host.Outcome State Fault Refusal :=
  done (s.onCore fun k =>
    let tmo := k.rd R.FOC_PART_CFG_ACK_TMO_US (dw d) 0 0 * 1000
    match k.foc.partials.find? fun x =>
        x.src == d.val && x.next == x.cells && !x.acked && k.ctxIs d x.ctx x.gen && decide (0 < x.sends ∧ x.sentAt + tmo ≤ k.time.now) with
    | some p => k.resendPartial p
    | none => k)

/-! ### Results (R479 to R482) -/

/-- Inject a Focus frame of a context from what its entry says (R481, R482). -/
def Core.focInject (k : Core) (root : Nat) (i : FocInj) (hdr payload : List Byte) (prs : Option Nat) : Option Core :=
  k.inject root i.pipe i.port i.pg i.tc false (some (k.rd R.FOC_CFG_RES_RES_ENTRY (dw root) 0 0))
    (buildUdp i.tpl i.v6 i.ipOfs (hdr ++ payload)) none prs

/-- A chunk that is complete at its root is rounded, its RESULT injected, and the chunk closed on every die (R479). -/
def Core.injectResult (k : Core) (x : Chunk) (prs : Option Nat) : Option Core :=
  let d := x.die
  let slot := x.slot
  let op := k.ctx T.FOC_CTX_OP d slot
  let ty := k.ctx T.FOC_CTX_TYPE d slot
  let gen := k.ctx T.FOC_CTX_GEN d slot
  let c := d * 512 + slot
  let r := roundAll op ty (k.ctx T.FOC_CTX_FP8_SAT d slot == 1) x.acc
  match k.focInject d (k.focInj d slot) (mkFocHdr 8 ty r.2 (gen * 4096 + c) x.seq (x.count - 1)) r.1 prs with
  | none => none
  | some k1 =>
    let k2 := (((k1.bump R.FOC_RES_CNT (dw d) 0 0 1).tbump T.FOC_CSTAT_RESULT (dw d) 0 slot 1).count (dw d) 6 3 0 1)
    let k3 := ((k2.ctxDies d slot).filter (· != d)).foldl (fun k z => k.focSend ⟨.close, d, z, c, x.seq, gen⟩) k2
    some (k3.closeChunk d slot x.seq)

/-- After a RESULT: a context that was to fail with code 2 fails once no other RESULT of it is due (R499). -/
def Core.failAfter (k : Core) (c : Nat) : Core :=
  if k.foc.failLater.contains c ∧ ¬ (k.foc.chunks.any fun x => x.die == c / 512 && x.slot == c % 512 && x.complete) then
    (k.onFoc fun f => { f with failLater := f.failLater.filter (· != c) }).focFail c 2
  else k

/-- Report a command: status, reason, tag and the command-done event. -/
def Core.focDone (k : Core) (d tag reason : Nat) : Core :=
  let w := dw d
  (((k.wr R.FOC_CMD_STAT_TAG w 0 0 tag).wr R.FOC_CMD_STAT_STATUS w 0 0 (if reason = 0 then 0 else 5)).wr
    R.FOC_CMD_STAT_REASON w 0 0 reason).raise w 0x60 2

/-- DESTROY takes effect (R485): an ERROR with code 4 when a chunk is open, IDLE on every die whose slot is the context's,
everything it holds forgotten. A chunk another die keeps only until the close message of its RESULT arrives is not open. -/
def Core.destroyNow (k : Core) (d c tag : Nat) : Core :=
  let slot := c % 512
  let dies := k.dieList.filter fun z => k.ctx T.FOC_CTX_STATE z slot != 0 && k.ctx T.FOC_CTX_ROOT z slot == d
  let isOpen := k.foc.chunks.any fun x => x.slot == slot && dies.contains x.die && (x.die == d || k.inWindow d slot x.seq)
  let k1 := if k.ctxActive d slot ∧ isOpen then k.focError c 4 else k
  let k2 := dies.foldl (fun k z => k.tw T.FOC_CTX_STATE (dw z) 0 slot 0) k1
  (((k2.forgetCtx c dies).freeLines c).focDone d tag 0).wr R.FOC_CMD_STAT_BUSY (dw d) 0 0 0

/-- A RESULT of the slot is due at the root. -/
def Core.slotDue (k : Core) (d slot : Nat) : Bool :=
  k.foc.chunks.any fun x => x.die == d && x.slot == slot && x.complete && k.ctxActive d slot

/-- A DESTROY that waited for the RESULTs of its context goes on when none is due any more (R499). -/
def Core.destroyGoOn (k : Core) (d : Nat) : Core :=
  match k.foc.destroys.find? (·.die == d) with
  | none => k
  | some x =>
    if k.slotDue d (x.ctx % 512) then k
    else (k.onFoc fun f => { f with destroys := f.destroys.filter (·.die != d) }).destroyNow d x.ctx x.tag

/-- The RESULT of a chunk: rounded, it is injected, or keeps its slot while its ingress account has no room (R482, R492). `ue`: an
accumulator word read for the rounding is uncorrectable (R487). -/
def Core.resultOf (k : Core) (d : Nat) (x : Chunk) (ue : Bool) (prs : Option Nat) : Core :=
  if ue ∧ ¬ x.rounded then k.accUe d (d * 512 + x.slot)
  else match k.injectResult x prs with
    | some k1 => k1.failAfter (d * 512 + x.slot)
    | none => k.putChunk { x with rounded := true }

/-- RESULT_INJECT (R479, R482, R492): the oldest chunk of the die whose RESULT is due; rounding stands behind the partial
cells that have landed. -/
def execResultInject (d : Fin 8) (ue : Bool) (prs : Option (Fin 256)) (s : State) : Host.Outcome State Fault Refusal :=
  done (s.onCore fun k => match k.resultDue d with
    | none => k.destroyGoOn d
    | some x =>
      if ¬ x.rounded ∧ k.foc.landed.any (·.1 == d.val) then k
      else (k.resultOf d x ue (prs.map (·.val))).destroyGoOn d)

/-- CLOSE_MESSAGE_RECEIVE (R479): a non-root die frees the chunk's slot, once its partial is acknowledged. -/
def Core.closeReceived (k : Core) (d : Nat) : Core :=
  let free (m : FocMsg) : Bool := !(k.foc.partials.any fun x => x.src == d && x.ctx == m.ctx && x.seq == m.seq && !x.acked)
  match k.foc.msgs.find? fun m => m.dst == d && m.kind == .close && free m with
  | none => k
  | some m =>
    let k1 := k.onFoc fun f => { f with msgs := f.msgs.erase m }
    if k1.ctxIs d m.ctx m.gen then k1.closeChunk d (m.ctx % 512) m.seq else k1

/-- CLOSE_MESSAGE_RECEIVE. -/
def execCloseMessageReceive (d : Fin 8) (s : State) : Host.Outcome State Fault Refusal :=
  done (s.onCore fun k => k.closeReceived d)

/-! ### Failures (R480, R487, R488) -/

/-- CHUNK_TIMER_EXPIRE (R480): a timer of the slot's context at its root has run TIMEOUT_US. -/
def execChunkTimerExpire (d : Fin 8) (slot : Fin 512) (s : State) : Host.Outcome State Fault Refusal :=
  done (s.onCore fun k =>
    let tmo := k.ctx T.FOC_CTX_TIMEOUT_US d slot * 1000
    if k.ctxActive d slot ∧ k.ctx T.FOC_CTX_ROOT d slot = d.val ∧
        (k.foc.chunks.any fun x => x.die == d.val && x.slot == slot.val && !x.complete &&
          decide (0 < x.timer ∧ x.timer - 1 + tmo ≤ k.time.now)) then k.focFail (d * 512 + slot) 1
    else k)

/-- MEMBER_BITMAP_REPLY (R488): the die's answer to the oldest request it holds; one that comes after 5 µs is not taken in. -/
def execMemberBitmapReply (d : Fin 8) (s : State) : Host.Outcome State Fault Refusal :=
  done (s.onCore fun k => match k.takeFocMsg d .ask with
    | none => k
    | some (m, k1) =>
      let missing := memberMap (k1.focMissing d (m.ctx % 512) m.seq)
      k1.onFoc fun f => { f with errors := f.errors.map fun e =>
        if e.ctx = m.ctx ∧ e.gen = m.gen ∧ e.seq = m.seq ∧ e.waiting.contains d.val ∧ k.time.now < e.askedAt + 5000 then
          { e with bitmap := e.bitmap ||| missing, waiting := e.waiting.filter (· != d.val) }
        else e })

/-- Inject the oldest ERROR of a die that no longer waits for bitmaps (R488). -/
def Core.injectError (k : Core) (d : Nat) (prs : Option Nat) : Core :=
  match k.foc.errors.find? fun e => e.root == d && (e.waiting.isEmpty || decide (e.askedAt + 5000 ≤ k.time.now)) with
  | none => k
  | some e =>
    let hdr := mkFocHdr 9 e.inj.ty (if e.waiting.isEmpty then 0 else 8) (e.gen * 4096 + e.ctx) e.seq e.code
    let payload : List Byte := (List.range 256).map fun i => BitVec.ofNat 8 (e.bitmap / 2 ^ (8 * i))
    match k.focInject d e.inj hdr payload prs with
    | none => k
    | some k1 =>
      ((k1.onFoc fun f => { f with errors := f.errors.erase e }).bump R.FOC_ERR_CNT (dw d) 0 0 1).count (dw d) 6 4 0 1

/-- ERROR_INJECT (R488). -/
def execErrorInject (d : Fin 8) (prs : Option (Fin 256)) (s : State) : Host.Outcome State Fault Refusal :=
  done (s.onCore fun k => k.injectError d (prs.map (·.val)))

/-! ### CREATE and DESTROY (R483 to R485) -/

/-- A member list repeats an index. -/
def repeats (l : List Nat) : Bool := l.eraseDups.length != l.length

/-- The reason CREATE is refused: the first that applies, or 0 (R484). On a die outside DIESET, the entry of the slot is the
context's own only where it names the same root; a context of another root that keeps to its die shares no member with it
(R454, R456). -/
def Core.createReason (k : Core) (d c : Nat) : Nat :=
  let slot := c % 512
  let x (f : TFld) : Nat := k.ctx f d slot
  let dies := k.ctxDies d slot
  let op := x T.FOC_CTX_OP
  let ty := x T.FOC_CTX_TYPE
  let members := dies.flatMap fun z => (k.members z slot).map fun m => (z, m.1, m.2)
  let total := x T.FOC_CTX_MEMBERS
  let lines := k.ctxLines d slot
  let tpl := x T.FOC_CTX_TPL_LEN
  if dies.any fun z => k.ctx T.FOC_CTX_STATE z slot != 0 || k.ctx T.FOC_CTX_RES_LINES z slot != 0 then 1
  else if 4 < op ∨ 6 < ty ∨ (3 ≤ op ∧ 1 < ty) then 2
  else if total < 2 ∨ 2048 < total ∨ dies.foldl (fun n z => n + k.ctx T.FOC_CTX_MBR_COUNT z slot) 0 ≠ total then 3
  else if repeats (members.map (·.2.1)) ∨
      (members.any fun m => decide (total ≤ m.2.1) || m.2.2 / 256 != m.1 || !k.globalExists m.2.2) then 4
  else if dies.any fun z => decide (k.rd R.FOC_ACC_STAT_FREE_LINES (dw z) 0 0 < lines) then 5
  else if x T.FOC_CTX_ROOT ≠ d ∨ c / 512 ≠ d ∨ ¬ dies.contains d ∨ (dies.any fun z => !k.populated z || k.fenced z) ∨
      (dies.any fun z => z != d && k.ctx T.FOC_CTX_MBR_COUNT z slot == 0) ∨
      (k.dieList.any fun z => !dies.contains z && k.ctx T.FOC_CTX_ROOT z slot == d && k.ctx T.FOC_CTX_MBR_COUNT z slot != 0) then 6
  else if 4096 < (x T.FOC_CTX_MAXE_M1 + 1) * elemSize ty ∨ 4 < x T.FOC_CTX_W_LOG2 then 7
  else if tpl < 42 ∨ tpl - 8 < x T.FOC_CTX_IP_OFS + (if x T.FOC_CTX_TPL_V6 = 1 then 40 else 20) then 8
  else if x T.FOC_CTX_TIMEOUT_US = 0 ∨ 4000000 < x T.FOC_CTX_TIMEOUT_US then 9
  else if dies.any fun z => k.rd R.FOC_SEQ_READY (dw z) 0 0 == 0 || k.rd R.FOC_CFG_EN (dw z) 0 0 == 0 then 10
  else 0

/-- The counters of a context on a die. -/
def focStats : List TFld :=
  [T.FOC_CSTAT_CONTRIB, T.FOC_CSTAT_DUP, T.FOC_CSTAT_LATE, T.FOC_CSTAT_SHAPE, T.FOC_CSTAT_FAILDROP, T.FOC_CSTAT_TIMEOUT,
   T.FOC_CSTAT_RESULT]

/-- Make the context ACTIVE on one die of its set. -/
def Core.activate (k : Core) (z slot gen lines : Nat) : Core :=
  let w := dw z
  let k1 := focStats.foldl (fun k f => k.tw f w 0 slot 0) k
  ((((k1.tw T.FOC_CTX_STATE w 0 slot 1).tw T.FOC_CTX_GEN w 0 slot gen).tw T.FOC_CTX_BASE w 0 slot 0).tw
    T.FOC_CTX_RES_LINES w 0 slot lines).wr R.FOC_ACC_STAT_FREE_LINES w 0 0 (k.rd R.FOC_ACC_STAT_FREE_LINES w 0 0 - lines)

/-- FOC_CMD is written while a command runs: DESIGN CHOICE (log 146), discarded with ACC_ERR. -/
def Core.focBusy (k : Core) (m : Master) (d : Nat) (go : Core → Core) : Core :=
  if k.rd R.FOC_CMD_STAT_BUSY (dw d) 0 0 = 1 then k.accErr (dw d) 0x60 m 0x114 else go k

/-- CREATE (R484). -/
def Core.focCreate (k : Core) (d tag : Nat) : Core :=
  let c := k.rd R.FOC_CMD_CTX_CTX (dw d) 0 0
  let slot := c % 512
  let reason := k.createReason d c
  if reason ≠ 0 then k.focDone d tag reason
  else
    let gen := (k.ctx T.FOC_CTX_GEN d slot + 1) % 16
    let lines := k.ctxLines d slot
    ((k.ctxDies d slot).foldl (fun k z => k.activate z slot gen lines) k).focDone d tag 0

/-- FOCUS_CREATE. -/
def execFocusCreate (m : Master) (d : Fin 8) (tag : Fin 256) (s : State) : Host.Outcome State Fault Refusal :=
  done (s.write m (dw d) 0x60 0x114 fun k => k.focBusy m d fun k => k.focCreate d tag)

/-- DESTROY (R485, R499): RESULTs that are due are injected first. DESIGN CHOICE (log 146): while one finds no room in its
ingress account the command runs on, and the context stays ACTIVE. -/
def Core.focDestroy (k : Core) (d tag : Nat) : Core :=
  let c := k.rd R.FOC_CMD_CTX_CTX (dw d) 0 0
  let slot := c % 512
  if c / 512 ≠ d ∨ (k.ctx T.FOC_CTX_STATE d slot ≠ 0 ∧ k.ctx T.FOC_CTX_ROOT d slot ≠ d) then k.focDone d tag 6
  else
    let due := k.foc.chunks.filter fun x => x.die == d && x.slot == slot && x.complete && k.ctxActive d slot
    let k1 := due.foldl (fun k x => (k.injectResult x none).getD k) k
    if k1.slotDue d slot then (k1.onFoc fun f => { f with destroys := f.destroys ++ [⟨d, c, tag⟩] }).wr R.FOC_CMD_STAT_BUSY (dw d) 0 0 1
    else k1.destroyNow d c tag

/-- FOCUS_DESTROY. -/
def execFocusDestroy (m : Master) (d : Fin 8) (tag : Fin 256) (s : State) : Host.Outcome State Fault Refusal :=
  done (s.write m (dw d) 0x60 0x114 fun k => k.focBusy m d fun k => k.focDestroy d tag)

end Sys2Proof.Machine
end

