-- ==== Sys2Proof/Machine/HostQueues.lean ====
section
/-!
DEFINITION. The host queues and the telemetry outputs (R49, R64, R237, R245, R322, R617, R618, R743 to R746, R770, R771):
transmit and receive rings, Plate records and collector frames.
-/
namespace Sys2Proof.Machine

/-! ### Rings (R743) -/

/-- The page of a function's queues. -/
def hqPage (pf : Nat) : Nat := 0xB0 + pf

/-- Descriptors of a ring. -/
def Core.hqSize (k : Core) (pf q : Nat) : Nat := 2 ^ k.rd R.HQ_CFG_SIZE_LOG2 0 pf q

/-- The ring is active and holds a descriptor. -/
def Core.hqReady (k : Core) (pf q : Nat) : Bool :=
  k.rd R.HQ_CFG_EN 0 pf q == 1 && k.rd R.HQ_HEAD 0 pf q != k.rd R.HQ_TAIL 0 pf q

/-- The host address of the descriptor at HEAD. -/
def Core.hqDesc (k : Core) (pf q : Nat) : Nat :=
  k.rd R.HQ_BASE_HI 0 pf q * 2 ^ 32 + k.rd R.HQ_BASE_LO 0 pf q + 32 * k.rd R.HQ_HEAD 0 pf q

/-- Write back a descriptor and move HEAD on, with the event of the queue's kind. -/
def Core.hqDone (k : Core) (pf q at' : Nat) (bytes : List Byte) (evt : Nat) : Core :=
  ((k.emit (.dma pf (k.hqDesc pf q + at') bytes)).wr R.HQ_HEAD 0 pf q ((k.rd R.HQ_HEAD 0 pf q + 1) % k.hqSize pf q)).raise
    0 (hqPage pf) evt

/-- A host DMA fault on a queue (R746). -/
def Core.hqFault (k : Core) (pf q : Nat) : Core := (k.wr R.HQ_CFG_EN 0 pf q 0).raise 0 (hqPage pf) 4

/-- HQ_TAIL_WRITE (R743). -/
def execHqTailWrite (m : Master) (pf : Fin 4) (q : Fin 20) (tail : Fin 65536) (s : State) :
    Host.Outcome State Fault Refusal :=
  done (s.write m 0 (hqPage pf) (0x40C + 32 * q.val) fun k => k.wr R.HQ_TAIL 0 pf q tail)

/-! ### Transmit (R244, R245, R322, R744) -/

/-- A transmit descriptor's fields. Byte 0 is the lowest byte of the value. -/
structure TxDesc where
  len : Nat
  egress : Bool
  port : Nat
  queue : Nat
  tc : Nat
  ts : Bool
  entry : Nat
  tag : Nat

/-- Read a transmit descriptor (R744). -/
def txDesc (v : Nat) : TxDesc :=
  let b (i n : Nat) : Nat := v / 2 ^ (8 * i) % 2 ^ (8 * n)
  ⟨b 8 2, bit (b 10 2) 15 == 1, b 10 2 % 2048, bits (b 12 1) 7 4, b 12 1 % 8, bit (b 13 1) 0 == 1, b 14 2 % 2048, b 16 2⟩

/-- A host frame in egress mode is admitted to its port and queue (R245). DESIGN CHOICE: it has no ingress half, and its bridged
containers hold what one without a program would leave: 54, 55 and the flags zero, in 56 the host bit, the descriptor's TC, the
classifier's PG and the named port as ingress port, in 60 and 61 the time of injection. -/
def Core.hostEgress (k : Core) (t : TxDesc) (frame : List Byte) : Core :=
  let d := t.port / 256
  let l := t.port % 256
  let pg := (k.classify d l frame).1
  let r := k.takeId
  let s := r.2.takeId
  let g : Grp := { freshGrp r.1 d (cellsOf frame.length) l pg with ingress := none, waiting := 1 }
  let c : Copy :=
    { id := s.1, grp := r.1, die := d, pipe := l / 32, dp := t.port / 32, kind := .unicast, port := t.port,
      queue := t.queue, group := 0, noIngress := false, tc := t.tc, inPort := t.port, lossless := false, frame := frame,
      carried := ⟨0, 0, inInfo true 0 t.tc pg t.port, BitVec.ofNat 32 k.time.ns, BitVec.ofNat 32 k.time.sec,
        BitVec.ofNat 32 t.entry, 0⟩,
      entry := t.entry, replica := false, hostInjected := true, bad := false, cut := false, marked := false, short := false, aborted := false,
      sent := 0,
      tsTag := if t.ts then some t.tag else none, throttled := k.throttledNow d, replayed := false, spilled := false, turn := 0, asked := 0,
      qdepth := 0, recirculated := false, timedOut := false }
  ((s.2.addGrp g).enqueueOne d l t.queue c).copyGone r.1

/-- HOST_FRAME_INJECT (R245, R744): the queue's next descriptor and the bytes its buffer holds; a descriptor in error is written
back with ERR and no byte of its buffer is read. DESIGN CHOICE: a frame in ingress mode whose ingress account is in XOFF or
refuses its cells waits, its descriptor untaken, in a lossy PG too. -/
def Core.hostInject (k : Core) (pf q desc : Nat) (bytes : List Byte) (fault : Bool) (prs : Option Nat) : Core :=
  let t := txDesc desc
  if ¬ k.hqReady pf q then k
  else if fault then k.hqFault pf q
  else if ¬ k.globalExists t.port ∨ t.len < 60 ∨ 16348 < t.len then k.hqDone pf q 18 (leSeq 3 2) 3
  else if bytes.length < t.len then k.hqFault pf q
  else
    let frame := withFcs (bytes.take t.len)
    if t.egress then (k.hostEgress t frame).hqDone pf q 18 (leSeq 1 2) 3
    else
      let d := t.port / 256
      let l := t.port % 256
      match k.inject d (l / 32) (d * 256 + l) (k.classify d l frame).1 t.tc true none frame (if t.ts then some t.tag else none)
          prs with
      | some k1 => k1.hqDone pf q 18 (leSeq 1 2) 3
      | none => k

/-- HOST_FRAME_INJECT on transmit queue 16 + `q`. -/
def execHostFrameInject (pf : Fin 4) (q : Fin 4) (desc : BitVec 256) (frame : List Byte) (fault : Bool)
    (prs : Option (Fin 256)) (s : State) : Host.Outcome State Fault Refusal :=
  done (s.onCore fun k => k.hostInject pf (16 + q) desc.toNat frame fault (prs.map (·.val)))

/-! ### Receive (R237, R745) -/

/-- HOST_RX_DELIVER (R745): the queue's oldest copy goes to the buffer its next descriptor names, or is dropped. -/
def Core.hostDeliver (k : Core) (pf q buffer : Nat) (fault : Bool) : Core :=
  match k.hostq.rx.find? fun c => c.pf == pf && c.queue == q with
  | none => k
  | some c =>
    let k1 := { k with hostq := { k.hostq with rx := k.hostq.rx.eraseP fun c => c.pf == pf && c.queue == q } }
    if ¬ k.hqReady pf q then k1.bump R.HQ_DROP 0 pf q 1
    else if fault then k1.hqFault pf q
    else
      let cap := k.rd R.HQ_CFG_BUF_BYTES 0 pf q
      let out := c.bytes.take cap
      let status := if cap < c.bytes.length then 3 else 1
      (k1.emit (.dma pf buffer out)).hqDone pf q 8 (leSeq out.length 2 ++ leSeq status 2) 2

/-- HOST_RX_DELIVER. -/
def execHostRxDeliver (pf : Fin 4) (q : Fin 16) (buffer : BitVec 64) (fault : Bool) (s : State) :
    Host.Outcome State Fault Refusal :=
  done (s.onCore fun k => k.hostDeliver pf q buffer.toNat fault)

/-! ### The Plate archive and the collectors (R617, R618, R771) -/

/-- Write a record's lines from WP on, wrapping at the end of region 3. -/
def Core.plateLines (k : Core) (wp n : Nat) : List Nat → Core
  | [] => k
  | v :: t => (k.writeLine 3 (wp % max n 1) v).plateLines (wp + 1) n t

/-- PLATE_RECORD_WRITE (R618): the die's oldest record is written at WP, or dropped when the region is off, has no budget,
or its ring is full in stop mode. -/
def Core.plateWrite (k : Core) (d : Nat) : Core :=
  match k.cxl.plate.find? (·.die == d) with
  | none => k
  | some r =>
    let k1 := { k with cxl := { k.cxl with plate := k.cxl.plate.eraseP (·.die == d) } }
    let len := r.lines.length
    let k3 := k1.plateMeets len
    if ¬ k.regionOn 3 ∨ k.tokens 3 = 0 then k1.bump R.CXL_PLATE_DROP_CNT 0 0 0 1
    else if k.plateFull len then k3.bump R.CXL_PLATE_DROP_CNT 0 0 0 1
    else
      let n := k.regionLines 3
      let wp := k.rd R.CXL_PLATE_WP 0 0 0
      (k3.plateLines wp n r.lines).wr R.CXL_PLATE_WP 0 0 0 ((wp + len) % max n 1)

/-- PLATE_RECORD_WRITE. -/
def execPlateRecordWrite (d : Fin 8) (s : State) : Host.Outcome State Fault Refusal :=
  done (s.onCore fun k => k.plateWrite d)

/-- COLLECTOR_FRAME_INJECT (R771): the pipeline's oldest collector frame enters stage 0; it waits while its account has no
room. -/
def execCollectorFrameInject (d p : Fin 8) (prs : Option (Fin 256)) (s : State) : Host.Outcome State Fault Refusal :=
  done (s.onCore fun k => match k.tele.queue.find? fun c => c.die == d.val && c.pipe == p.val with
    | none => k
    | some c =>
      match k.inject d p (d * 256 + c.port % 256) (k.collPg d (c.port % 256)) c.tc false (some c.entry) c.frame none (prs.map (·.val)) with
      | none => k
      | some k1 => ({ k1 with tele := { k1.tele with
          queue := k1.tele.queue.erase c } }).bump R.TRC_COLL_CNT (dw d) 0 0 1)

end Sys2Proof.Machine
end

