-- ==== Sys2Proof/Machine/Link.lean ====
section
/-!
DEFINITION. Lanes and ports (R525 to R569): enabling, link-up attempts and back-off, link-down, lane states, scans,
calibration, slice substitution and the octet configuration.
-/
namespace Sys2Proof.Machine

/-! ### Ports of an octet -/

/-- Change the lanes' state. -/
def Core.onLink (k : Core) (f : Link → Link) : Core := { k with link := f k.link }

/-- A field of a port's PRT_PORT entry. -/
def Core.prt (k : Core) (f : TFld) (d l : Nat) : Nat := k.td f (dw d) (l / 8) (l % 8)

/-- Write a field of a port's PRT_PORT entry. -/
def Core.setPrt (k : Core) (f : TFld) (d l v : Nat) : Core := k.tw f (dw d) (l / 8) (l % 8) v

/-- LINK_STATE of a port (R566). -/
def Core.linkState (k : Core) (d l : Nat) : Nat := k.prt T.PRT_PORT_LINK_STATE d l

/-- Set LINK_STATE. -/
def Core.setLinkState (k : Core) (d l v : Nat) : Core := k.setPrt T.PRT_PORT_LINK_STATE d l v

/-- The lane state a disabled port shows for a request: L0, L1 or L2 (R559). -/
def restState (req : Nat) : Nat := if req = 0 then 0 else if req = 1 then 5 else 6

/-- Lanes of a port. -/
def Core.lanesOf (k : Core) (d l : Nat) : List Nat :=
  (List.range (portLanes (k.rd R.PRT_OCT_CFG_MODE (dw d) (l / 8) 0))).map (l + ·)

/-- Write a lane field of each lane of a port. -/
def Core.setLanes (k : Core) (d l : Nat) (f : Fld) (v : Nat → Nat) : Core :=
  (k.lanesOf d l).foldl (fun k x => k.wr f (dw d) (x / 8) (x % 8) (v x)) k

/-- The lane controller's microcode runs (R562). -/
def Core.mcReady (k : Core) (d o : Nat) : Bool := k.rd R.LAN_OCT_STATUS_MC_READY (dw d) o 0 == 1

/-! ### Attempts (R539 to R543) -/

/-- Precoding in force for a lane's setting: 2 follows training's request; none at 25.78125 Gb/s (R530, R531). -/
def precode (rate cfg req : Nat) : Nat := if rate = 3 then 0 else if cfg = 2 then req else cfg

/-- The precoding of a lane comes into force, as its settings and training's request say (R530, R531). -/
def Core.precodeLane (k : Core) (d x : Nat) : Core :=
  let w := dw d
  let rate := k.rd R.PRT_OCT_CFG_RATE w (x / 8) 0
  let req := k.link.preReq.get (d * 256 + x)
  (k.wr R.LAN_LANE_STAT_PRE_TX_ACT w (x / 8) (x % 8) (precode rate (k.rd R.LAN_LANE_CFG_PRECODE_TX w (x / 8) (x % 8))
    (bit req 0))).wr R.LAN_LANE_STAT_PRE_RX_ACT w (x / 8) (x % 8)
    (precode rate (k.rd R.LAN_LANE_CFG_PRECODE_RX w (x / 8) (x % 8)) (bit req 1))

/-- Training's requests stand on a port's lanes, P is 0 before their next symbol, and the precoding comes into force (R529, R530);
bit i of a mask is the request of the i-th lane. -/
def Core.setPrecode (k : Core) (d l tx rx : Nat) : Core :=
  (k.lanesOf d l).foldl (fun k x =>
    (k.onLink fun y => { y with
      preReq := y.preReq.set (d * 256 + x) (bit tx (x - l) + 2 * bit rx (x - l))
      preTx := y.preTx.set (d * 256 + x) 0
      preRx := y.preRx.set (d * 256 + x) 0 }).precodeLane d x) k

/-- The pages a port sends while it negotiates (R539): the octet's one interface, its RS FEC, no PAUSE. Their bits and the next
pages are Clause 73's. -/
def Core.advertise (k : Core) (d l : Nat) : Core :=
  let o := l / 8
  k.emit (.abilities (d * 256 + l) (k.rd R.PRT_OCT_CFG_RATE (dw d) o 0) (k.rd R.PRT_OCT_CFG_MODE (dw d) o 0)
    (k.lineForm d l).fec false)

/-- An attempt begins (R541): it negotiates and trains as AN_EN, TRAIN_EN and MEDIA say. A port of a fenced die begins none:
the die returns to service only through a reset (R66). -/
def Core.beginAttempt (k : Core) (d l : Nat) : Core :=
  if k.fenced d then k
  else
    let port := d * 256 + l
    let cr := k.rd R.PRT_OCT_CFG_MEDIA (dw d) (l / 8) 0 == 0
    let an := cr && k.prt T.PRT_PORT_AN_EN d l == 1
    let train := cr && k.prt T.PRT_PORT_TRAIN_EN d l == 1
    let eq := (k.lanesOf d l).foldl (fun m x => m.set (d * 256 + x) 0) k.link.txeq
    let k1 := k.onLink fun x => { x with
      attempts := x.attempts.filter (·.port != port) ++ [⟨port, k.time.now, an, train⟩]
      backoff := x.backoff.set port 0
      txeq := eq }
    let k2 := ((k1.setLinkState d l (if an then 1 else 2)).setPrt T.PRT_PORT_AN_MISMATCH d l 0).setPrecode d l 0 0
    if an then k2.advertise d l else k2

/-- The attempt of a port. -/
def Core.attemptOf (k : Core) (d l : Nat) : Option Attempt := k.link.attempts.find? (·.port == d * 256 + l)

/-- Replace an attempt. -/
def Core.putAttempt (k : Core) (a : Attempt) : Core :=
  k.onLink fun x => { x with attempts := x.attempts.map fun y => if y.port = a.port then a else y }

/-- End the attempt and the back-off of a port. -/
def Core.endAttempt (k : Core) (d l : Nat) : Core :=
  k.onLink fun x => { x with
    attempts := x.attempts.filter (·.port != d * 256 + l)
    backoff := x.backoff.set (d * 256 + l) 0 }

/-- PORT_ENABLE (R541, R559, R562): EN = 1 begins an attempt, at once from L0, else when the lanes are ready. -/
def Core.portEnable (k : Core) (m : Master) (d l : Nat) : Core :=
  let page := 0xA0 + l / 8
  if ¬ k.portExists d l then k.wr (indFail page 0x200) (dw d) 0 0 1
  else if ¬ k.mcReady d (l / 8) then (k.wr (indFail page 0x200) (dw d) 0 0 1).accErr (dw d) page m 0x204
  else if k.prt T.PRT_PORT_EN d l = 1 then k
  else
    let k1 := k.setPrt T.PRT_PORT_EN d l 1
    if k.linkState d l = 0 then k1.beginAttempt d l else k1

/-- PORT_ENABLE. -/
def execPortEnable (m : Master) (d : Fin 8) (l : Fin 256) (s : State) : Host.Outcome State Fault Refusal :=
  done (s.window m (dw d) (0xA0 + l.val / 8) 0x204 fun k => k.portEnable m d l)

/-- LANES_READY (R559): the lanes of an enabled port have left L1 or L2. -/
def execLanesReady (d : Fin 8) (l : Fin 256) (s : State) : Host.Outcome State Fault Refusal :=
  done (s.onCore fun k =>
    if k.prt T.PRT_PORT_EN d l = 1 ∧ (k.linkState d l = 5 ∨ k.linkState d l = 6) then k.beginAttempt d l else k)

/-- The partner's pages, the interfaces it advertises by RATE and MODE, hold the octet's own (R539). -/
def Core.commonAbility (k : Core) (d l : Nat) (partner : List (Nat × Nat)) : Bool :=
  partner.contains (k.rd R.PRT_OCT_CFG_RATE (dw d) (l / 8) 0, k.rd R.PRT_OCT_CFG_MODE (dw d) (l / 8) 0)

/-- AUTONEG_COMPLETE (R539): a common ability is found, or AN_MISMATCH is set and the attempt runs on. -/
def execAutonegComplete (d : Fin 8) (l : Fin 256) (partner : List (Fin 4 × Fin 4)) (s : State) : Host.Outcome State Fault Refusal :=
  done (s.onCore fun k => match k.attemptOf d l with
    | some a =>
      if ¬ a.needAn then k
      else if k.commonAbility d l (partner.map fun x => (x.1.val, x.2.val)) then
        (k.putAttempt { a with needAn := false }).setLinkState d l 2
      else k.setPrt T.PRT_PORT_AN_MISMATCH d l 1
    | none => k)

/-- TRAINING_COMPLETE (R530, R540): training sets the transmit coefficients, unless TXEQ_MAN, and the precoding. -/
def Core.trained (k : Core) (d l : Nat) (coefficients : List Word) (tx rx : Nat) : Core :=
  let eq := (k.lanesOf d l).foldl (fun m x =>
    if k.rd R.LAN_LANE_CFG_TXEQ_MAN (dw d) (x / 8) (x % 8) = 1 then m
    else m.set (d * 256 + x) ((coefficients.getD (x - l) 0).toNat + 1)) k.link.txeq
  (k.onLink fun x => { x with txeq := eq }).setPrecode d l tx rx

/-- TRAINING_COMPLETE. -/
def execTrainingComplete (d : Fin 8) (l : Fin 256) (coefficients : List Word) (preTx preRx : BitVec 8) (s : State) :
    Host.Outcome State Fault Refusal :=
  done (s.onCore fun k => match k.attemptOf d l with
    | some a =>
      if a.needAn ∨ ¬ a.needTrain then k
      else (k.putAttempt { a with needTrain := false }).trained d l coefficients preTx.toNat preRx.toNat
    | none => k)

/-- A frame of the port whose sending a link-down broke off is sent again from its first byte: it starts now (R369, R407). -/
def Core.sendAgain (k : Core) (d l : Nat) : Core :=
  { k with egr := { k.egr with sending := k.egr.sending.map fun x =>
      if x.copy.port = d * 256 + l then { x with start := k.time.tod } else x } }

/-- LINK_UP (R369, R541, R543): the link goes up and the buffer is told; a down-hold that runs ends without a flush. -/
def Core.linkGoesUp (k : Core) (d l : Nat) : Core :=
  let port := d * 256 + l
  let w := dw d
  let k1 := (k.endAttempt d l).sendAgain d l
  let k2 := ((k1.setLinkState d l 3).setPrt T.PRT_PORT_LOCAL_FAULT d l 0).setPrt T.PRT_PORT_REMOTE_FAULT d l 0
  let k3 := (k2.tw T.BUF_PORT_LINK_UP w 0 l 1).tw T.BUF_PORT_HOLDING w 0 l 0
  ({ k3 with buf := { k3.buf with
      holdEnd := k3.buf.holdEnd.set port 0
      dropping := k3.buf.dropping.set port 0 } }).raise w (0xA0 + l / 8) 0

/-- An attempt has reached link-up (R541): negotiation and training are done, every lane of the port is in alignment lock, the
last of them since `since`, and for 1 ms of that no local or remote fault was received; the pipeline's MACs are out of reset
(R182). Bit i of `aligned` is the i-th lane. -/
def Core.attemptGood (k : Core) (d l : Nat) (a : Attempt) (aligned since : Nat) : Bool :=
  let n := (k.lanesOf d l).length
  let fault := k.link.faultAt.get (d * 256 + l)
  !a.needAn && !a.needTrain && k.macReady d l && aligned % 2 ^ n == 2 ^ n - 1 && decide (since + 1000000 ≤ k.time.now) &&
    (fault == 0 || decide (fault - 1 + 1000000 ≤ k.time.now))

/-- LINK_UP, within the time of the attempt. -/
def execLinkUp (d : Fin 8) (l : Fin 256) (aligned : BitVec 8) (since : Nat) (s : State) : Host.Outcome State Fault Refusal :=
  done (s.onCore fun k => match k.attemptOf d l with
    | some a => if k.attemptGood d l a aligned.toNat since then k.linkGoesUp d l else k
    | none => k)

/-- ATTEMPT_TIMEOUT (R541, R542): attempt n has run ATTEMPT_MS; the back-off wait is min(BASE_MS × 2^(n − 1), MAX_MS). A link-up
reached at that moment prevails (R569): `aligned` and `since` say what it would go by. -/
def Core.attemptTimeout (k : Core) (d l aligned since : Nat) : Core :=
  let w := dw d
  let o := l / 8
  match k.attemptOf d l with
  | none => k
  | some a =>
    if k.time.now < a.since + k.rd R.PRT_LINK_CFG_ATTEMPT_MS w o 0 * 1000000 then k
    else if k.attemptGood d l a aligned since then k.linkGoesUp d l
    else
      let n := min 255 (k.prt T.PRT_PORT_ATTEMPT d l + 1)
      let ms := min (k.rd R.PRT_BACKOFF_BASE_MS w o 0 * 2 ^ (n - 1)) (k.rd R.PRT_BACKOFF_MAX_MS w o 0)
      let k1 := ((k.endAttempt d l).setPrt T.PRT_PORT_ATTEMPT d l n).setLinkState d l 4
      (k1.onLink fun x => { x with backoff := x.backoff.set (d * 256 + l) (k.time.now + ms * 1000000 + 1) }).raise w (0xA0 + o) 2

/-- ATTEMPT_TIMEOUT. -/
def execAttemptTimeout (d : Fin 8) (l : Fin 256) (aligned : BitVec 8) (since : Nat) (s : State) :
    Host.Outcome State Fault Refusal :=
  done (s.onCore fun k => k.attemptTimeout d l aligned.toNat since)

/-- BACKOFF_EXPIRE (R542): the wait is over and the next attempt begins. -/
def execBackoffExpire (d : Fin 8) (l : Fin 256) (s : State) : Host.Outcome State Fault Refusal :=
  done (s.onCore fun k =>
    let e := k.link.backoff.get (d.val * 256 + l.val)
    if e ≠ 0 ∧ e - 1 ≤ k.time.now then k.beginAttempt d l else k)

/-! ### Link-down, disable, lane states (R368, R371, R372, R544, R545, R559) -/

/-- End the slice substitutions of lanes of a port, with code 5 (R557). -/
def Core.abortSubsts (k : Core) (d l : Nat) : Core :=
  let hit (x : Subst) : Bool := x.die == d && k.portLane d (8 * x.oct + x.lane) == l
  (k.link.substs.filter hit).foldl (fun k x =>
    let w := dw d
    let k1 := (k.wr R.LAN_SPARE_STAT_STATE w x.oct 0 2).wr R.LAN_SPARE_STAT_CODE w x.oct 0 5
    let used := k1.rd R.LAN_SPARE_STAT_POOL_FREE w 0 0
    (k1.wr R.LAN_SPARE_STAT_POOL_FREE w 0 0 (used - (used &&& 2 ^ x.spare))).raise w (0x80 + x.oct) 3)
    (k.onLink fun x => { x with substs := x.substs.filter fun y => !hit y })

/-- The link of a port goes down (R544): reported to the buffer, whose down-hold begins; XOFF states end without a PFC
frame (R371); a DOWN_HOLD_US of 0 flushes at once (R372). -/
def Core.linkGoesDown (k : Core) (d l : Nat) : Core :=
  let port := d * 256 + l
  let w := dw d
  let k1 := ((k.tw T.BUF_PORT_LINK_UP w 0 l 0).tw T.BUF_PORT_XOFF_TX w 0 l 0).tbump T.PRT_PORT_LINK_DOWN_CNT w (l / 8) (l % 8) 1
  let k2 := (((k1.count w 7 2 (l / 8) 1).raise w (0xA0 + l / 8) 1).setPrt T.PRT_PORT_ATTEMPT d l 0).abortSubsts d l
  let us := k.td T.BUF_PORT_DOWN_HOLD_US w 0 l
  let k3 := { (k2.setTail port []) with buf := { k2.buf with pfcDue := k2.buf.pfcDue.filter (·.1 != port) } }
  if us = 0 then k3.downFlush d l
  else { (k3.tw T.BUF_PORT_HOLDING w 0 l 1) with buf := { (k3.tw T.BUF_PORT_HOLDING w 0 l 1).buf with
    holdEnd := k3.buf.holdEnd.set port (k.time.now + us * 1000 + 1) } }

/-- A frame under way when the link goes down ends truncated: the bytes received of it (R365, R371). -/
def Core.cutOff (k : Core) (d l : Nat) (cutFrame : List Byte) : Core :=
  if cutFrame.isEmpty then k else k.frameReceive d l cutFrame [] false true

/-- A port receives a fault, 2 local or 3 remote (R536): while it receives local fault it sends remote fault. -/
def Core.faultSeen (k : Core) (d l cause : Nat) : Core :=
  let port := d * 256 + l
  let k1 := k.onLink fun x => { x with faultAt := x.faultAt.set port (k.time.now + 1) }
  if cause = 2 then (k1.setPrt T.PRT_PORT_LOCAL_FAULT d l 1).emit (.remoteFault port)
  else k1.setPrt T.PRT_PORT_REMOTE_FAULT d l 1

/-- LINK_DOWN (R536, R544): cause 0 loss of alignment lock, 1 loss of signal, 2 local fault, 3 remote fault. The link goes
down and attempt 1 begins at once; a fault that an attempt meets holds its link-up back (R541). -/
def Core.linkDown (k' : Core) (d l cause : Nat) (cutFrame : List Byte) : Core :=
  if ¬ k'.linkUp d l then
    if 2 ≤ cause ∧ (k'.attemptOf d l).isSome then k'.faultSeen d l cause else k'
  else
    let k := k'.cutOff d l cutFrame
    let k1 := k.linkGoesDown d l
    let k2 := if 2 ≤ cause then k1.faultSeen d l cause else k1
    k2.beginAttempt d l

/-- LINK_DOWN. `cutFrame`: the bytes received of a frame under way, which ends truncated (R365, R371). -/
def execLinkDown (d : Fin 8) (l : Fin 256) (cause : Fin 4) (cutFrame : List Byte) (s : State) :
    Host.Outcome State Fault Refusal :=
  done (s.onCore fun k => k.linkDown d l cause cutFrame)

/-- A frame being sent when its port is disabled is truncated (R365, R545): what has left of it by now goes out stomped, and the
copy leaves its queue. DESIGN CHOICE (log 145): the bytes are those the port's rate sends in the time since the frame's start. -/
def Core.cutSending (k : Core) (d l : Nat) : Core :=
  match k.egr.sending.find? fun x => x.copy.port == d * 256 + l with
  | none => k
  | some x =>
    let c := x.copy
    let n := (k.time.tod - x.start) * k.portGbps d l / 524288
    let f := bodyOf (x.frame.take n)
    let frame := f ++ badFcsOf f
    let k1 := { k with egr := { k.egr with sending := k.egr.sending.filter fun y => y.copy.id != c.id } }
    let k2 := ((k1.txStats d l frame true).sendLine d l frame).emit (.frame (d * 256 + l) frame)
    ((k2.releaseEgress c l c.queue).noteIdle d l c.queue).watchQueue d l c.queue true

/-- PORT_DISABLE (R545): ends an attempt, a back-off or the link; the lanes take the state LSTATE_REQ names. -/
def Core.portDisable (k' : Core) (d l : Nat) (cutFrame : List Byte) : Core :=
  if ¬ k'.portExists d l then k'.wr (indFail (0xA0 + l / 8) 0x200) (dw d) 0 0 1
  else if k'.prt T.PRT_PORT_EN d l = 0 then k'
  else
    let k := if k'.linkUp d l then (k'.cutOff d l cutFrame).cutSending d l else k'
    let k1 := if k.linkUp d l then k.linkGoesDown d l else k.abortSubsts d l
    let k2 := ((k1.setPrt T.PRT_PORT_EN d l 0).endAttempt d l).setPrt T.PRT_PORT_ATTEMPT d l 0
    if k.linkState d l = 7 then k2 else k2.setLinkState d l (restState (k.prt T.PRT_PORT_LSTATE_REQ d l))

/-- PORT_DISABLE. `cutFrame`: the bytes received of a frame under way. -/
def execPortDisable (m : Master) (d : Fin 8) (l : Fin 256) (cutFrame : List Byte) (s : State) :
    Host.Outcome State Fault Refusal :=
  done (s.window m (dw d) (0xA0 + l.val / 8) 0x204 fun k => k.portDisable d l cutFrame)

/-- LANE_STATE_REQUEST (R559, R569): the state of the lanes while EN is 0; a calibration under way ends first. -/
def Core.laneStateRequest (k : Core) (m : Master) (d l req : Nat) : Core :=
  if ¬ k.portExists d l then k.wr (indFail (0xA0 + l / 8) 0x200) (dw d) 0 0 1
  else if req = 3 then k.cfgErr (dw d) (0xA0 + l / 8) m 0x204
  else
    let k1 := k.setPrt T.PRT_PORT_LSTATE_REQ d l req
    if k.prt T.PRT_PORT_EN d l = 1 ∨ k.linkState d l = 7 then k1 else k1.setLinkState d l (restState req)

/-- LANE_STATE_REQUEST. -/
def execLaneStateRequest (m : Master) (d : Fin 8) (l : Fin 256) (req : Fin 4) (s : State) :
    Host.Outcome State Fault Refusal :=
  done (s.window m (dw d) (0xA0 + l.val / 8) 0x204 fun k => k.laneStateRequest m d l req)

/-! ### Reticle scans (R546 to R549) -/

/-- The running scan of an octet of a kind. -/
def Core.scanOf (k : Core) (d o : Nat) (software : Bool) : Option Scan :=
  k.link.scans.find? fun x => x.die == d && x.oct == o && x.software == software

/-- Remove the running scan of an octet of a kind; a background scan that a software scan preempted goes on from its first point
(R549). DESIGN CHOICE (log 145): LAN_RTC_STAT shows the software scan until the background scan ends. -/
def Core.dropScan (k : Core) (d o : Nat) (software : Bool) : Core :=
  k.onLink fun x => { x with scans := (x.scans.filter fun y => !(y.die == d && y.oct == o && y.software == software)).map fun y =>
    if software ∧ y.die = d ∧ y.oct = o then { y with since := k.time.now } else y }

/-- LAN_RTC_STAT shows a scan that begins. -/
def Core.scanShown (k : Core) (d o lane : Nat) (software : Bool) : Core :=
  let w := dw d
  (((k.wr R.LAN_RTC_STAT_STATE w o 0 1).wr R.LAN_RTC_STAT_SW w o 0 (b2n software)).wr R.LAN_RTC_STAT_LANE w o 0 lane).wr
    R.LAN_RTC_STAT_POINTS w o 0 0

/-- The fields of LAN_RTC_CMD beside GO and ABORT. -/
def Core.rtcFields (k : Core) (m : Master) (d o v : Nat) : Core :=
  ((k.putFld m R.LAN_RTC_CMD_LANE (dw d) o 0 v 0 7).putFld m R.LAN_RTC_CMD_DWELL (dw d) o 0 v 10 30).putFld m
    R.LAN_RTC_CMD_FULL (dw d) o 0 v 0 1

/-- RTC_SCAN_GO (R549, R562, R564): a software scan begins; one that runs already makes the write an access error. -/
def Core.rtcGo (k : Core) (m : Master) (d o v : Nat) : Core :=
  if (k.scanOf d o true).isSome then k.accErr (dw d) (0x80 + o) m 0x170
  else
    let k1 := k.rtcFields m d o v
    if ¬ k.mcReady d o then k1
    else
      let lane := k1.rd R.LAN_RTC_CMD_LANE (dw d) o 0
      let full := k1.rd R.LAN_RTC_CMD_FULL (dw d) o 0 == 1
      (k1.onLink fun x => { x with scans := x.scans ++ [⟨d, o, lane, full, true, k1.rd R.LAN_RTC_CMD_DWELL (dw d) o 0, k.time.now⟩] }).scanShown d o lane true

/-- RTC_SCAN_GO. -/
def execRtcScanGo (m : Master) (d : Fin 8) (o : Fin 32) (v : Word) (s : State) : Host.Outcome State Fault Refusal :=
  done (s.write m (dw d) (0x80 + o.val) 0x170 fun k => k.rtcGo m d o v.toNat)

/-- RTC_SCAN_ABORT (R564): the software scan ends; a background scan it preempted goes on from its first point. -/
def execRtcScanAbort (m : Master) (d : Fin 8) (o : Fin 32) (v : Word) (s : State) : Host.Outcome State Fault Refusal :=
  done (s.write m (dw d) (0x80 + o.val) 0x170 fun k =>
    let k1 := k.rtcFields m d o v.toNat
    match k.scanOf d o true with
    | some x => ((k1.dropScan d o true).wr R.LAN_RTC_STAT_STATE (dw d) o 0 3).wr R.LAN_RTC_STAT_POINTS (dw d) o 0 (k1.scanned x)
    | none => k1)

/-- The eyes of a lane: three, or the one of NRZ (R547). -/
def eyesOf (rate : Nat) : List Nat := if rate = 3 then [1] else [0, 1, 2]

/-- The amplitude code at the centre of an eye. -/
def eyeCentre (e : Nat) : Nat := Config.eyeCentre e % 64

/-- The centre phase. -/
def centrePhase : Nat := Config.centrePhase % 64

/-- A scan visits a point of the grid: all, or the centre lines (R547). -/
def scanVisits (full : Bool) (rate i : Nat) : Bool :=
  full || i / 64 == centrePhase || (eyesOf rate).any fun e => eyeCentre e == i % 64

/-- The distance between the first points past an edge on either side of `c`, of 64; DESIGN CHOICE (log 145): where there is
none on a side, the edge stands just outside the grid. -/
def eyeOpening (past : Nat → Bool) (c : Nat) : Nat :=
  let up := (((List.range (64 - c)).map (c + ·)).find? past).getD 64
  let down := ((((List.range (c + 1)).map (c - ·)).find? past).map (· + 1)).getD 0
  up + 1 - down

/-- A point lies past an edge: its disagreement ratio is above 10^-6 (R547). -/
def pastEdge (dwell count : Nat) : Bool := decide (2 ^ dwell < count * 1000000)

/-- The height of an eye in mV, at the centre phase. -/
def eyeHeight (dwell : Nat) (grid : Nat → Nat) (e : Nat) : Nat :=
  Config.reticleMv (eyeOpening (fun a => pastEdge dwell (grid (centrePhase * 64 + a))) (eyeCentre e)) % 1024

/-- The width of an eye in 1/64 UI, at its centre amplitude. -/
def eyeWidth (dwell : Nat) (grid : Nat → Nat) (e : Nat) : Nat :=
  eyeOpening (fun p => pastEdge dwell (grid (p * 64 + eyeCentre e))) centrePhase

/-- A background scan's eye height, when it is the smallest of the die's quarter, goes to the ageing record (R548). -/
def Core.noteEye (k : Core) (d lane height : Nat) : Core :=
  let old := k.link.worst.get d
  if old = 0 ∨ height < (old - 1) % 1024 then
    { k with link := { k.link with worst := k.link.worst.set d (lane * 1024 + height + 1) } }
  else k

/-- The eye registers of an octet, lower, middle and upper. -/
def eyeHFlds : List Fld := [R.LAN_RTC_EYE_H_H0, R.LAN_RTC_EYE_H_H1, R.LAN_RTC_EYE_H_H2]
/-- Their widths. -/
def eyeWFlds : List Fld := [R.LAN_RTC_EYE_W_W0, R.LAN_RTC_EYE_W_W1, R.LAN_RTC_EYE_W_W2]

/-- SCAN_COMPLETE (R547, R549): the octet's scan ends; the grid holds the disagreements of the points it visited, and the eyes
are read from them. The event is for software scans only. -/
def Core.scanComplete (k : Core) (d o : Nat) (x : Scan) (counts : List (Nat × Nat)) : Core :=
  let w := dw d
  let rate := k.rd R.PRT_OCT_CFG_RATE w o 0
  let grid (i : Nat) : Nat :=
    if scanVisits x.full rate i then min (2 ^ x.dwell) (((counts.find? (·.1 == i)).map (·.2)).getD 0) else 0
  let k1 := ((k.dropScan d o x.software).scanShown d o x.lane x.software).wr R.LAN_RTC_STAT_STATE w o 0 2
  let k2 := k1.wr R.LAN_RTC_STAT_POINTS w o 0 (scanPoints x.full rate)
  let k3 := (eyesOf rate).foldl (fun k e =>
    (k.wr (eyeHFlds.getD e R.LAN_RTC_EYE_H_H1) w o 0 (eyeHeight x.dwell grid e)).wr (eyeWFlds.getD e R.LAN_RTC_EYE_W_W1) w o 0
      (eyeWidth x.dwell grid e)) k2
  let k4 := (List.range 4096).foldl (fun k i => k.tw T.LAN_RTC_GRID_DISAGREE w o i (grid i)) k3
  if x.software then k4.raise w (0x80 + o) 0
  else k4.noteEye d (o * 8 + x.lane) (((eyesOf rate).map (eyeHeight x.dwell grid)).foldl min 1023)

/-- A scan ends when it has visited all its points (R547). -/
def Core.scanEnds (k : Core) (d o : Nat) (x : Scan) (counts : List (Nat × Nat)) : Core :=
  if scanPoints x.full (k.rd R.PRT_OCT_CFG_RATE (dw d) o 0) ≤ k.scanned x then k.scanComplete d o x counts else k

/-- SCAN_COMPLETE. `counts`: the disagreements at the points. A software scan ends before the background scan it preempted. -/
def execScanComplete (d : Fin 8) (o : Fin 32) (counts : List (Fin 4096 × Word)) (s : State) : Host.Outcome State Fault Refusal :=
  done (s.onCore fun k =>
    let g := counts.map fun x => (x.1.val, x.2.toNat)
    match k.scanOf d o true with
    | some x => k.scanEnds d o x g
    | none => match k.scanOf d o false with
      | some x => k.scanEnds d o x g
      | none => k)

/-- SCAN_S seconds have passed since the last background scan of a lane began (R548). -/
def Core.scanDue (k : Core) (d o lane : Nat) : Bool :=
  let last := k.link.lastScan.get (d * 256 + 8 * o + lane)
  last == 0 || decide (last - 1 + k.rd R.LAN_BG_CFG_SCAN_S (dw d) o 0 * 1000000000 ≤ k.time.now)

/-- BACKGROUND_SCAN (R548): a summary scan of a lane that is due begins while no scan of the octet runs. -/
def execBackgroundScan (d : Fin 8) (o : Fin 32) (lane : Fin 8) (s : State) : Host.Outcome State Fault Refusal :=
  done (s.onCore fun k =>
    if k.rd R.LAN_BG_CFG_EN (dw d) o 0 = 1 ∧ k.mcReady d o ∧ k.scanDue d o lane ∧ (k.scanOf d o true).isNone ∧
        (k.scanOf d o false).isNone then
      (k.onLink fun x => { x with
        scans := x.scans ++ [⟨d, o, lane, false, false, 20, k.time.now⟩]
        lastScan := x.lastScan.set (d.val * 256 + 8 * o.val + lane.val) (k.time.now + 1) }).scanShown d o lane false
    else k)

/-! ### Calibration (R552, R553) -/

/-- The ports of an octet that exist. -/
def Core.octPorts (k : Core) (d o : Nat) : List Nat := ((List.range 8).map (8 * o + ·)).filter (k.portExists d)

/-- A port holds a copy in an egress queue, in the spill region or on its way back, in its egress half or being sent. -/
def Core.portHolds (k : Core) (d l : Nat) : Bool :=
  ((k.buf.eq ++ k.buf.spilled ++ k.buf.fetching).any fun c => c.port == d * 256 + l) || k.portBusy d l

/-- The code a calibration request is refused with, or 0 (R552, R560, R562). -/
def Core.calCode (k : Core) (d o : Nat) (ports : List Nat) : Nat :=
  if ¬ k.mcReady d o then 7
  else if k.link.calibs.any fun x => x.die == d && x.oct == o then 3
  else if ports.any fun l => k.prt T.PRT_PORT_EN d l == 1 || k.linkUp d l then 1
  else if ports.any (k.portHolds d) then 2
  else 0

/-- CALIBRATION_GO (R552). -/
def Core.calGo (k : Core) (m : Master) (d o v : Nat) : Core :=
  let w := dw d
  let k1 := (k.putFld m R.LAN_CAL_CMD_SCOPE w o 0 v 0 1).putFld m R.LAN_CAL_CMD_LANE w o 0 v 0 7
  let lane := 8 * o + k1.rd R.LAN_CAL_CMD_LANE w o 0
  let ports := if k1.rd R.LAN_CAL_CMD_SCOPE w o 0 = 1 then k1.octPorts d o else [k1.portLane d lane]
  let code := k1.calCode d o ports
  if code = 0 then
    let k2 := (k1.wr R.LAN_CAL_STAT_STATE w o 0 1).wr R.LAN_CAL_STAT_CODE w o 0 0
    ports.foldl (fun k l => k.setLinkState d l 7) (k2.onLink fun x => { x with calibs := x.calibs ++ [⟨d, o, k1.rd R.LAN_CAL_CMD_SCOPE w o 0 == 1, ports⟩] })
  else if code = 3 then k1.wr R.LAN_CAL_STAT_CODE w o 0 3
  else (k1.wr R.LAN_CAL_STAT_STATE w o 0 2).wr R.LAN_CAL_STAT_CODE w o 0 code

/-- CALIBRATION_GO. -/
def execCalibrationGo (m : Master) (d : Fin 8) (o : Fin 32) (v : Word) (s : State) : Host.Outcome State Fault Refusal :=
  done (s.write m (dw d) (0x80 + o.val) 0x180 fun k => k.calGo m d o v.toNat)

/-- CALIBRATION_COMPLETE (R553): the result, the event, and the ports back in the state their EN and LSTATE_REQ name. -/
def Core.calComplete (k : Core) (d o : Nat) (ok : Bool) : Core :=
  let w := dw d
  match k.link.calibs.find? fun x => x.die == d && x.oct == o with
  | none => k
  | some x =>
    let k1 := k.onLink fun y => { y with calibs := y.calibs.erase x }
    let k2 := (k1.wr R.LAN_CAL_STAT_STATE w o 0 2).wr R.LAN_CAL_STAT_CODE w o 0 (if ok then 0 else 4)
    let k3 := x.ports.foldl (fun k l =>
      if k.prt T.PRT_PORT_EN d l = 1 then k.beginAttempt d l
      else k.setLinkState d l (restState (k.prt T.PRT_PORT_LSTATE_REQ d l))) k2
    k3.raise w (0x80 + o) 1

/-- CALIBRATION_COMPLETE. -/
def execCalibrationComplete (d : Fin 8) (o : Fin 32) (ok : Bool) (s : State) : Host.Outcome State Fault Refusal :=
  done (s.onCore fun k => k.calComplete d o ok)

/-! ### Slices (R554 to R558) -/

/-- Spares of a die in use: the complement of POOL_FREE, held once for the die. -/
def Core.sparesUsed (k : Core) (d : Nat) : Nat := k.rd R.LAN_SPARE_STAT_POOL_FREE (dw d) 0 0

/-- SPARE_SUBSTITUTE_GO (R556, R557, R560). -/
def Core.substGo (k : Core) (m : Master) (d o v : Nat) : Core :=
  let w := dw d
  let k1 := (k.putFld m R.LAN_SPARE_CMD_LANE w o 0 v 0 7).putFld m R.LAN_SPARE_CMD_SPARE w o 0 v 0 7
  let lane := k1.rd R.LAN_SPARE_CMD_LANE w o 0
  let spare := k1.rd R.LAN_SPARE_CMD_SPARE w o 0
  let running := k1.link.substs.any fun x => x.die == d && x.oct == o
  let code := if ¬ k1.mcReady d o then 7 else if running then 3 else if bit (k1.sparesUsed d) spare = 1 then 6 else 0
  if code = 0 then
    let k2 := (k1.wr R.LAN_SPARE_STAT_STATE w o 0 1).wr R.LAN_SPARE_STAT_CODE w o 0 0
    (k2.wr R.LAN_SPARE_STAT_POOL_FREE w 0 0 (k2.sparesUsed d ||| 2 ^ spare)).onLink fun x => { x with
      substs := x.substs ++ [⟨d, o, lane, spare⟩] }
  else if code = 3 then k1.wr R.LAN_SPARE_STAT_CODE w o 0 3
  else (k1.wr R.LAN_SPARE_STAT_STATE w o 0 2).wr R.LAN_SPARE_STAT_CODE w o 0 code

/-- SPARE_SUBSTITUTE_GO. -/
def execSpareSubstituteGo (m : Master) (d : Fin 8) (o : Fin 32) (v : Word) (s : State) :
    Host.Outcome State Fault Refusal :=
  done (s.write m (dw d) (0x80 + o.val) 0x188 fun k => k.substGo m d o v.toNat)

/-- SUBSTITUTION_COMPLETE (R556, R557): the lane switches to the spare, or the substitution ends with code 4. -/
def Core.substComplete (k : Core) (d o : Nat) (ok : Bool) : Core :=
  let w := dw d
  match k.link.substs.find? fun x => x.die == d && x.oct == o with
  | none => k
  | some x =>
    let k1 := (k.onLink fun y => { y with substs := y.substs.erase x }).wr R.LAN_SPARE_STAT_STATE w o 0 2
    let k2 := if ok then ((k1.wr R.LAN_SPARE_STAT_CODE w o 0 0).wr R.LAN_LANE_STAT_SLICE w o x.lane (256 + x.spare)).wr
        R.LAN_LANE_STAT_DEGRADED w o x.lane 0
      else (k1.wr R.LAN_SPARE_STAT_CODE w o 0 4).wr R.LAN_SPARE_STAT_POOL_FREE w 0 0
        (k1.sparesUsed d - (k1.sparesUsed d &&& 2 ^ x.spare))
    k2.raise w (0x80 + o) 3

/-- SUBSTITUTION_COMPLETE. -/
def execSubstitutionComplete (d : Fin 8) (o : Fin 32) (ok : Bool) (s : State) : Host.Outcome State Fault Refusal :=
  done (s.onCore fun k => k.substComplete d o ok)

/-- SLICE_DEGRADED (R555). -/
def execSliceDegraded (d : Fin 8) (l : Fin 256) (s : State) : Host.Outcome State Fault Refusal :=
  done (s.onCore fun k =>
    if k.populated d then
      (k.wr R.LAN_LANE_STAT_DEGRADED (dw d) (l / 8) (l % 8) 1).raise (dw d) (0x80 + l.val / 8) 2
    else k)

/-! ### The octet configuration (R525, R526, R565, R568) -/

/-- The combination of RATE, MODE and MEDIA is listed, and FEC25 is not reserved. -/
def octetOk (rate mode media fec25 : Nat) : Bool :=
  (rate == 0 || (rate == 1 && decide (1 ≤ mode)) || (mode == 3 && media == 0)) && decide (fec25 ≤ 1)

/-- How many entries of a lane each window indexed by first lane holds, and whether its pages repeat per pipeline
(1), per octet (2) or not at all (0) (R568). -/
def laneTables : List (Nat × Nat × Nat) :=
  [(Tab.BUF_PORT, 1, 0), (Tab.BUF_PG, 8, 0), (Tab.BUF_Q, 16, 0), (Tab.BUF_PFCRX, 1, 0), (Tab.SCH_PORT, 1, 1),
   (Tab.SCH_QCFG, 16, 1), (Tab.SHP_Q, 16, 1), (Tab.SHP_PORT, 1, 1), (Tab.EPH_PORT, 1, 1), (Tab.EPH_LIST, 512, 1),
   (Tab.STB_COMP, 1, 0), (Tab.PRT_PORT, 1, 2), (Tab.CNT_PSTAT, 64, 0)]

/-- The octet an entry key belongs to on a window, when its table is indexed by first lane. -/
def octetOfKey (w key : Nat) : Option Nat :=
  let i := key / 512 % 16777216
  let p := key / 512 / 16777216 % 64
  let t := key / 512 / 16777216 / 64
  if t % 16 ≠ w then none
  else (laneTables.find? (·.1 == t / 16 % 64)).map fun r =>
    if r.2.2 = 0 then i / r.2.1 / 8 else if r.2.2 = 1 then 4 * p + i / r.2.1 / 8 else p

/-- Every entry of an octet's lanes returns to its reset value (R568). -/
def Core.resetOctet (k : Core) (d o : Nat) : Core :=
  let ents := k.io.ents.filter fun e => octetOfKey (dw d) e.1 != some o
  let ports := (List.range 8).map fun i => d * 256 + 8 * o + i
  let clear (m : SMap) (per : Nat) : SMap := ports.foldl (fun m g => (List.range per).foldl (fun m j => m.set (g * per + j) 0) m) m
  { k with
    io := { k.io with ents := ents }
    buf := { k.buf with
      pauseEnd := clear k.buf.pauseEnd 8
      stuckSince := clear k.buf.stuckSince 16
      lastPaused := clear k.buf.lastPaused 16
      holdEnd := clear k.buf.holdEnd 1
      dropping := clear k.buf.dropping 1
      pfcLast := clear k.buf.pfcLast 1
      pfcDue := k.buf.pfcDue.filter fun x => !ports.contains x.1 }
    egr := { k.egr with
      gated := clear k.egr.gated 1
      drrCur := clear k.egr.drrCur 1
      visited := clear k.egr.visited 16
      frac := k.egr.frac.filter fun e => octetOfKey (dw d) e.1 != some o
      swapReq := k.egr.swapReq.filter fun x => !(x.die == d && (32 * x.pipe + x.l) / 8 == o)
      swapPend := k.egr.swapPend.filter fun x => !(x.die == d && (32 * x.pipe + x.l) / 8 == o)
      dirty := k.egr.dirty.filter fun x => !(x.2.1 == dw d && (x.1 == Tab.SHP_Q || x.1 == Tab.SHP_PORT) &&
        4 * x.2.2.1 + x.2.2.2 / (if x.1 = Tab.SHP_Q then 16 else 1) / 8 == o) } }

/-- An octet still holds copies or cells (R568). -/
def Core.octetBusy (k : Core) (d o : Nat) : Bool :=
  let lanes := (List.range 8).map (8 * o + ·)
  (lanes.any fun l => k.portHolds d l || (List.range 8).any fun g => k.ingA d l g != 0) ||
    (k.buf.voq.any fun c => match c.kind with
      | .multicast => c.dp == 8 * d + o / 4 && (k.mcLanes d (o / 4) c.group).any fun l => l / 8 == o
      | _ => c.port / 8 == 32 * d + o)

/-- A Focus slot that is not IDLE binds a port of the octet (R568). -/
def Core.octetInFocus (k : Core) (d o : Nat) : Bool :=
  (List.range 512).any fun slot => k.ctx T.FOC_CTX_STATE d slot != 0 && (k.members d slot).any fun m => m.2 / 8 == 32 * d + o

/-- The stops of an octet's queues end, and every die sees it: their entries are about to be reset (R338, R568). -/
def Core.clearStops (k : Core) (d o : Nat) : Core :=
  (((k.listed T.BUF_Q_STOPPED (dw d)).map (·.2)).filter (· / 128 == o)).foldl (fun k a => k.setStop d (a / 16) (a % 16) false) k

/-- OCTET_CONFIG_WRITE (R565, R568): the new minima change F, and with it the queues of the die (R338, R381). -/
def Core.octetConfig (k : Core) (m : Master) (d o v : Nat) : Core :=
  let w := dw d
  let rate := bits v 1 0
  let mode := bits v 3 2
  let set (k : Core) : Core := (((k.wr R.PRT_OCT_CFG_RATE w o 0 rate).wr R.PRT_OCT_CFG_MODE w o 0 mode).wr
    R.PRT_OCT_CFG_MEDIA w o 0 (bit v 8)).wr R.PRT_OCT_CFG_FEC25 w o 0 (bits v 5 4)
  let changes := decide (k.rd R.PRT_OCT_CFG_RATE w o 0 ≠ rate ∨ k.rd R.PRT_OCT_CFG_MODE w o 0 ≠ mode)
  let new := set (if changes then (k.clearStops d o).resetOctet d o else k)
  if ¬ octetOk rate mode (bit v 8) (bits v 5 4) ∨ ((k.octPorts d o).any fun l => k.prt T.PRT_PORT_EN d l == 1) then
    k.cfgErr w (0xA0 + o) m 0x100
  else if changes && (k.octetBusy d o || !new.poolOk d || k.octetInFocus d o) then k.cfgErr w (0xA0 + o) m 0x100
  else new.moved d (k.freeCells d)

/-- OCTET_CONFIG_WRITE. -/
def execOctetConfigWrite (m : Master) (d : Fin 8) (o : Fin 32) (v : Word) (s : State) : Host.Outcome State Fault Refusal :=
  done (s.write m (dw d) (0xA0 + o.val) 0x100 fun k => k.octetConfig m d o v.toNat)

end Sys2Proof.Machine
end

