-- ==== Sys2Proof/Machine/Ras.lean ====
section
/-!
DEFINITION. Errors, retry, spares, scrubbing, repair from replicas and self-test (R570 to R605), and the fencing of a
die (R66).
-/
namespace Sys2Proof.Machine

/-! ### Shenor links (R575 to R578, R587, R588) -/

/-- The receiving end of a crossbar port: window and page index of its SHN page. -/
def shnAt (meridian : Bool) (p : Nat) : Nat × Nat := if meridian then (0, p) else (dw (p / 8), p % 8)

/-- The SHN page itself (R604). -/
def shnPage (meridian : Bool) (p : Nat) : Nat := if meridian then 0x20 + p else 0x30 + p % 8

/-- The end's place in the per-direction maps. -/
def shnDir (meridian : Bool) (p : Nat) : Nat := 2 * p + b2n meridian

/-- Read a SHN field of an end, given its two descriptions. -/
def Core.shnRd (k : Core) (meridian : Bool) (p : Nat) (fm fd : Fld) : Nat :=
  k.rd (if meridian then fm else fd) (shnAt meridian p).1 (shnAt meridian p).2 0

/-- Write a SHN field of an end. -/
def Core.shnWr (k : Core) (meridian : Bool) (p : Nat) (fm fd : Fld) (v : Nat) : Core :=
  k.wr (if meridian then fm else fd) (shnAt meridian p).1 (shnAt meridian p).2 0 v

/-- An event of a SHN page. -/
def Core.shnRaise (k : Core) (meridian : Bool) (p b : Nat) : Core :=
  k.raise (shnAt meridian p).1 (shnPage meridian p) b

/-- FLIT_RECEIVE (R30, R575): the next flit of a direction reaches its receiver. -/
def execFlitReceive (meridian : Bool) (p : Fin 64) (good : Bool) (flit : List Byte) (s : State) :
    Host.Outcome State Fault Refusal :=
  done (s.onCore fun k =>
    if k.xPorts ≤ p.val ∨ k.portFailed p ∨ k.fenced (p.val / 8) ∨ k.xbar.retrain.get (shnDir meridian p) ≠ 0 then k
    else k.flitReceive (shnDir meridian p) good flit)

/-- FLIT_RETRY_REQUEST (R575, R576): the sender goes back to the named flit and resends from it on, each flit counted at the
receiver; after RETRY_MAX retries in a row the direction is retrained. `ue`: the named flit's place in the Meridian die's
retry buffer is uncorrectable, and it is resent bad (R571 class 2). -/
def Core.flitRetry (k : Core) (meridian : Bool) (p : Nat) (ue : Bool) : Core :=
  let i := shnDir meridian p
  if k.link.retryAsked.get i = 0 then k
  else if k.shnRd meridian p R.M_SHN_CFG_RETRY_MAX R.SHN_CFG_RETRY_MAX ≤ k.link.retries.get i then
    k.retrainStart p (b2n meridian)
  else
    let named := k.link.retryAsked.get i - 1
    let n := k.flitsAgain i named
    let k0 := if ue ∧ ¬ meridian then (k.ueFound 0 2).onLink fun x => { x with
        flits := x.flits.map fun f => if f.dir = i ∧ f.seq = named then { f with bad := true } else f }
      else k
    let k1 := (k0.flitsFrom i named).onLink fun x => { x with
      retries := x.retries.set i (x.retries.get i + 1), retryAsked := x.retryAsked.set i 0 }
    (k1.bump (if meridian then R.M_SHN_RETRY_CNT else R.SHN_RETRY_CNT) (shnAt meridian p).1 (shnAt meridian p).2 0 n).xcount 5 p n

/-- FLIT_RETRY_REQUEST. -/
def execFlitRetryRequest (meridian : Bool) (p : Fin 64) (ue : Bool) (s : State) : Host.Outcome State Fault Refusal :=
  done (s.onCore fun k => k.flitRetry meridian p ue)

/-- The oldest retained sequence number of a pair, plus 1, or 0. -/
def oldestSeq (ps : List Parcel) (i j : Nat) : Nat :=
  match ps.find? fun x => x.src == i && x.dst == j with
  | some x => x.seq + 1
  | none => 0

/-- RETRAIN_COMPLETE (R576, R577): a direction is up again, and its sender goes on from the oldest unacknowledged flit. When
both are and the port had a crossbar-port fault, the send counts of its pairs start again and their replay goes on from the
oldest parcel. -/
def Core.retrainDone (k : Core) (meridian : Bool) (p : Nat) : Core :=
  let i := shnDir meridian p
  if k.xbar.retrain.get i = 0 then k
  else
    let k1 := ((k.onX fun x => { x with retrain := x.retrain.set i 0 }).flitsAnew i).shnWr meridian p R.M_SHN_STATUS_STATE
      R.SHN_STATUS_STATE 2
    if k1.retraining p ∨ p ∉ k1.xbar.faulty then k1
    else
      let mine (x : Parcel) : Bool := x.src == p || x.dst == p
      k1.onX fun x => { x with
        faulty := x.faulty.filter (· != p)
        retained := x.retained.map fun y => if mine y then { y with sends := 0 } else y
        replay := (x.retained.filter mine).foldl (fun m y => m.set (pairKey y.src y.dst) (oldestSeq x.retained y.src y.dst))
          x.replay }

/-- RETRAIN_COMPLETE. -/
def execRetrainComplete (meridian : Bool) (p : Fin 64) (s : State) : Host.Outcome State Fault Refusal :=
  done (s.onCore fun k => k.retrainDone meridian p)

/-- RETRAIN_TIMEOUT (R577, R578): a retrain has run 20 µs. The retrain of a fault fails the port; another one is the
port's crossbar-port fault. A port of a fenced die is not marked failed (R605). -/
def Core.retrainLate (k : Core) (meridian : Bool) (p : Nat) : Core :=
  let t := k.xbar.retrain.get (shnDir meridian p)
  if t = 0 ∨ k.time.now + 1 < t + 20000 ∨ k.fenced (p / 8) then k
  else if p ∈ k.xbar.faulty then k.portFail p
  else k.portFault p

/-- RETRAIN_TIMEOUT. -/
def execRetrainTimeout (meridian : Bool) (p : Fin 64) (s : State) : Host.Outcome State Fault Refusal :=
  done (s.onCore fun k => k.retrainLate meridian p)

/-- SHN_SPARE_GO (R587, R605). -/
def Core.shnSpareGo (k : Core) (m : Master) (meridian : Bool) (p v : Nat) : Core :=
  let f (fm fd : Fld) : Fld := if meridian then fm else fd
  let w := (shnAt meridian p).1
  let x := (shnAt meridian p).2
  let bundle := f R.M_SHN_SPARE_CMD_BUNDLE R.SHN_SPARE_CMD_BUNDLE
  let wire := f R.M_SHN_SPARE_CMD_WIRE R.SHN_SPARE_CMD_WIRE
  let spare := f R.M_SHN_SPARE_CMD_SPARE R.SHN_SPARE_CMD_SPARE
  let state := f R.M_SHN_SPARE_STAT_STATE R.SHN_SPARE_STAT_STATE
  let code := f R.M_SHN_SPARE_STAT_CODE R.SHN_SPARE_STAT_CODE
  let used := f R.M_SHN_SPARE_STAT_FREE R.SHN_SPARE_STAT_FREE
  let k1 := ((k.putFld m bundle w x 0 v 0 4).putFld m wire w x 0 v 0 63).putFld m spare w x 0 v 0 3
  let b := k1.rd bundle w x 0
  let sp := k1.rd spare w x 0
  if k1.link.wireSubs.any fun y => y.meridian == meridian && y.port == p then k1.wr code w x 0 3
  else if bit (k1.rd used w x 0) (4 * b + sp) = 1 then
    ((k1.wr state w x 0 2).wr code w x 0 6).shnRaise meridian p 1
  else if k1.xbar.retrain.get (shnDir meridian p) ≠ 0 ∨ k1.portFailed p then
    ((k1.wr state w x 0 2).wr code w x 0 5).shnRaise meridian p 1
  else (((k1.wr state w x 0 1).wr code w x 0 0).wr used w x 0 (k1.rd used w x 0 + 2 ^ (4 * b + sp))).onLink fun y => { y with
    wireSubs := y.wireSubs ++ [⟨meridian, p, b, k1.rd wire w x 0, sp⟩] }

/-- SHN_SPARE_GO. -/
def execShnSpareGo (m : Master) (meridian : Bool) (p : Fin 64) (v : Word) (s : State) : Host.Outcome State Fault Refusal :=
  done (s.write m (shnAt meridian p).1 (shnPage meridian p) 0x110 fun k => k.shnSpareGo m meridian p v.toNat)

/-- SHN_SPARE_COMPLETE (R587): the receiver switches to the spare, or the spare has not deskewed within 50 µs. -/
def Core.shnSpareDone (k : Core) (meridian : Bool) (p : Nat) (ok : Bool) : Core :=
  match k.link.wireSubs.find? fun y => y.meridian == meridian && y.port == p with
  | none => k
  | some y =>
    let at' := shnAt meridian p
    let e := y.bundle * 68 + y.wire
    let k1 := (k.onLink fun z => { z with wireSubs := z.wireSubs.erase y }).shnWr meridian p R.M_SHN_SPARE_STAT_STATE
      R.SHN_SPARE_STAT_STATE 2
    let k2 := if ok then
        ((k1.shnWr meridian p R.M_SHN_SPARE_STAT_CODE R.SHN_SPARE_STAT_CODE 0).tw
          (if meridian then T.M_SHN_WIRE_SPARED else T.SHN_WIRE_SPARED) at'.1 at'.2 e 1).tw
          (if meridian then T.M_SHN_WIRE_SPARE else T.SHN_WIRE_SPARE) at'.1 at'.2 e y.spare
      else
        let used := k1.shnRd meridian p R.M_SHN_SPARE_STAT_FREE R.SHN_SPARE_STAT_FREE
        (k1.shnWr meridian p R.M_SHN_SPARE_STAT_CODE R.SHN_SPARE_STAT_CODE 4).shnWr meridian p R.M_SHN_SPARE_STAT_FREE
          R.SHN_SPARE_STAT_FREE (used - (used &&& 2 ^ (4 * y.bundle + y.spare)))
    k2.shnRaise meridian p 1

/-- SHN_SPARE_COMPLETE. -/
def execShnSpareComplete (meridian : Bool) (p : Fin 64) (ok : Bool) (s : State) : Host.Outcome State Fault Refusal :=
  done (s.onCore fun k => k.shnSpareDone meridian p ok)

/-- WIRE_MARGIN_BELOW_LIMIT (R588, R604): SHN_WIRE reports a measurement of a wire; the page's event is raised when its margin is
below the limit (`below`), which the spec does not give. -/
def execWireMarginBelowLimit (meridian : Bool) (p : Fin 64) (wire : Fin 340) (margin : Fin 65536) (errors : Word) (below : Bool)
    (s : State) : Host.Outcome State Fault Refusal :=
  done (s.onCore fun k =>
    if k.xPorts ≤ p.val then k
    else
      let at' := shnAt meridian p
      let k1 := (k.tw (if meridian then T.M_SHN_WIRE_MARGIN else T.SHN_WIRE_MARGIN) at'.1 at'.2 wire margin).tw
        (if meridian then T.M_SHN_WIRE_ERRORS else T.SHN_WIRE_ERRORS) at'.1 at'.2 wire errors.toNat
      if below then k1.shnRaise meridian p 2 else k1)

/-! ### The fence (R66, R487, R680) -/

/-- Fence a port die: the crossbar grants it nothing more, what is on the wire for it is discarded, its ports go down,
the contexts that hold it fail with code 5, FATAL_N is driven, and the commands that waited for it go on. A crossbar-port fault
of one of its ports that is not settled ends without marking the port failed (R605). DESIGN CHOICE (R66, log 125): a port that
was up reads LINK_STATE 0 while its EN stays 1, and a port that was not up keeps its LINK_STATE; the spec says only that the
ports go down. -/
def Core.fenceDie (k : Core) (d : Nat) : Core :=
  if ¬ k.populated d ∨ k.fenced d then k
  else
    let k1 := ((k.wr R.PAG_DIEMAP_FENCED 0 0 0 (k.rd R.PAG_DIEMAP_FENCED 0 0 0 + 2 ^ d)).emit (.notice "fatal-die" d)).wr
      R.PAG_PINS_FATAL 0 0 0 1
    let k2 := if k.rd R.PAG_PINS_FATAL 0 0 0 = 1 then k1 else k1.emit (.pin "FATAL_N" true)
    let k3 := (k2.portsOf d).foldl (fun k l =>
      let k' := if k.linkUp d l then (k.linkGoesDown d l).setLinkState d l 0 else k
      k'.endAttempt d l) ((k2.onX fun x => { x with faulty := x.faulty.filter (· / 8 != d) }).dropWire (touches d))
    let fail := (List.range 4096).filter fun c =>
      k.ctxActive (c / 512) (c % 512) && k.ctx T.FOC_CTX_ROOT (c / 512) (c % 512) == c / 512 &&
        (k.ctxDies (c / 512) (c % 512)).contains d
    let k4 := fail.foldl (fun k c => k.focFail c 5) k3
    (k4.dieList.foldl Core.catPost k4).fenceFlush d

/-- DIE_FATAL_ERROR (R66): the part fences the die. -/
def execDieFatalError (d : Fin 8) (s : State) : Host.Outcome State Fault Refusal := done (s.onCore fun k => k.fenceDie d)

/-! ### Scrub passes (R570, R590 to R594) -/

/-- The last index of a class a port die's scrubber reads, or none for a class it does not scrub (R570). -/
def scrubEnd (cls : Nat) : Option Nat :=
  match cls with
  | 0 => some 73727
  | 2 => some 255
  | 4 => some 16895
  | 5 => some 262175
  | 6 => some 262143
  | 7 => some 16383
  | 8 => some 16383
  | 9 => some 524287
  | 10 => some 33279
  | 11 => some 16383
  | 13 => some 7
  | _ => none

/-- A RAS field of a die: the Meridian die's or a port die's. -/
def rasFld (w : Nat) (fm fd : Fld) : Fld := if w = 0 then fm else fd

/-- Read a RAS field of a window. -/
def Core.ras' (k : Core) (w : Nat) (fm fd : Fld) : Nat := k.rd (rasFld w fm fd) w 0 0

/-- Write a RAS field of a window. -/
def Core.rasWr (k : Core) (w : Nat) (fm fd : Fld) (v : Nat) : Core := k.wr (rasFld w fm fd) w 0 0 v

/-- Change the passes and self-tests. -/
def Core.onRas (k : Core) (f : Ras → Ras) : Core := { k with ras := f k.ras }

/-- The reason a pass is refused for, or 0 (R590). -/
def Core.scrubReason (k : Core) (w cls inst start last : Nat) : Nat :=
  match (if w = 0 then none else scrubEnd cls) with
  | none => 1
  | some top =>
    if last < start ∨ top < last then 2
    else if k.ras.scrubs.any (·.w == w) then 3
    else if k.fenced (w - 1) then 4
    else if cls = 0 ∧ k.rd R.SEQ_STATUS_LOADING w (inst % 8) 0 = 1 then 5
    else 0

/-- SCRUB_GO: start a pass, or refuse it with STATE 3 and a reason and change nothing else (R590, R603). -/
def Core.scrubGo (k : Core) (w : Nat) : Core :=
  let cls := k.ras' w R.M_RAS_SCRUB_CFG_CLASS R.RAS_SCRUB_CFG_CLASS
  let inst := k.ras' w R.M_RAS_SCRUB_CFG_INST R.RAS_SCRUB_CFG_INST
  let start := k.ras' w R.M_RAS_SCRUB_START R.RAS_SCRUB_START
  let last := k.ras' w R.M_RAS_SCRUB_END R.RAS_SCRUB_END
  let reason := k.scrubReason w cls inst start last
  if reason ≠ 0 then
    (k.rasWr w R.M_RAS_SCRUB_STAT_STATE R.RAS_SCRUB_STAT_STATE 3).rasWr w R.M_RAS_SCRUB_STAT_REASON
      R.RAS_SCRUB_STAT_REASON reason
  else
    let zero : List Fld := [R.RAS_SCRUB_READ, R.RAS_SCRUB_CORRECTED, R.RAS_SCRUB_UNCORR, R.RAS_SCRUB_REPAIRED,
      R.RAS_SCRUB_FIRST_UE_VALID, R.RAS_SCRUB_FIRST_UE_INDEX, R.RAS_SCRUB_LAST_UE, R.RAS_SCRUB_UE_LOC_MACRO,
      R.RAS_SCRUB_UE_LOC_ROW, R.RAS_SCRUB_STAT_REASON]
    let k1 := zero.foldl (fun k f => k.wr f w 0 0 0) k
    let mode := k.rd R.RAS_SCRUB_CFG_MODE w 0 0
    ((k1.wr R.RAS_SCRUB_STAT_STATE w 0 0 1).wr R.RAS_SCRUB_STAT_CURSOR w 0 0 start).onRas fun x => { x with
      scrubs := x.scrubs ++ [⟨w, cls, inst, mode, start, last, false⟩] }

/-- SCRUB_GO. -/
def execScrubGo (m : Master) (w : Fin 9) (s : State) : Host.Outcome State Fault Refusal :=
  done (s.write m w 0xC1 0x10C fun k => k.scrubGo w)

/-- SCRUB_ABORT (R594): the pass ends at its next unit. -/
def execScrubAbort (m : Master) (w : Fin 9) (s : State) : Host.Outcome State Fault Refusal :=
  done (s.write m w 0xC1 0x10C fun k => k.onRas fun x => { x with
    scrubs := x.scrubs.map fun y => if y.w = w.val then { y with abort := true } else y })

/-- The CE slot of a unit: page and slot (R300 to R604, the CE slots of the blocks). `act`: of a filter entry, the error lies
in the action store (R307). -/
def ceSlotOf (cls inst i : Nat) (act : Bool) : Nat × Nat :=
  match cls with
  | 0 => (0x08 + inst % 8, 0)
  | 2 => (0x10 + inst % 8, 0)
  | 4 => (0x18 + inst % 8, if i < 16384 then 0 else 1)
  | 5 => (0x20, if i < 262144 then 0 else 1)
  | 6 => (0x24, 0)
  | 7 => (0x26, if act then 1 else 0)
  | 8 => (0x48, 0)
  | 9 => (0x60, 0)
  | 10 => (0x60, if i < 512 then 1 else 2)
  | 11 => (0x50 + inst % 8, 0)
  | _ => (0x80 + inst % 32, 0)

/-- The uncorrectable event of a class's block, when the block has one (R573). -/
def ueEventOf (cls inst : Nat) : Option (Nat × Nat) :=
  match cls with
  | 0 => some (0x08 + inst % 8, 0)
  | 2 => some (0x10 + inst % 8, 0)
  | 4 => some (0x18 + inst % 8, 1)
  | 5 => some (0x20, 2)
  | 6 => some (0x24, 1)
  | 7 => some (0x26, 1)
  | 8 => some (0x48, 0)
  | _ => none

/-- Slots of a die whose member range holds entry `n` (R490). -/
def Core.slotsOfMember (k : Core) (d n : Nat) : List Nat :=
  (List.range 512).filter fun s =>
    k.ctx T.FOC_CTX_STATE d s != 0 && decide (k.ctx T.FOC_CTX_MBR_BASE d s ≤ n ∧
      n < k.ctx T.FOC_CTX_MBR_BASE d s + k.ctx T.FOC_CTX_MBR_COUNT d s)

/-- Containment, and the repair that mode 2 adds, of an uncorrectable unit (R570). `key` says that a Catalogue slot's key
words are correctable; `owner` is the context slot whose open chunk holds an accumulator line, if any. A slot whose repair a
lookup asked for already, on either unit of a 256-bit entry, is repaired once (R605). -/
def Core.contain (k : Core) (d cls inst mode i : Nat) (key : Bool) (owner : Option (Fin 512)) : Core :=
  let w := dw d
  match cls with
  | 0 => { k with pipes := { k.pipes with
      storeUe := (((d * 8 + inst % 8) * 73728 + i) :: k.pipes.storeUe).eraseDups } }
  | 5 =>
    let k1 := match occupant k.tables.ents d i with
      | some e => k.catRemove d e.wide e.key
      | none => k
    let ask : CatRepair := match occupant k.tables.ents d i with
      | some e => ⟨d, e.idx, if e.wide then 2 else 1, if key then some (e.wide, e.key) else none, true, k.time.now⟩
      | none => ⟨d, i, 1, none, true, k.time.now⟩
    if mode = 2 ∧ ¬ k.tables.repairs.any (fun r => r.covers d i) then
      { k1 with tables := { k1.tables with repairs := k1.tables.repairs ++ [ask] } }
    else k1
  | 6 => match (k.tables.lpm.filter (·.die == d))[i]? with
    | some e => if mode = 2 then (k.lpmPoison e).askPrefix { e with ue := true } true else k.lpmPoison e
    | none => k
  | 7 =>
    let k1 := k.fltPut { k.fltGet d i with valid := false }
    let k2 := k1.bump R.FLT_UE_CNT w 0 0 1
    if k2.rd R.FLT_UE_LOG_VALID w 0 0 = 0 then (k2.wr R.FLT_UE_LOG_INDEX w 0 0 i).wr R.FLT_UE_LOG_VALID w 0 0 1 else k2
  | 8 => k.tw T.POL_CTX_POISON w 0 i 1
  | 9 => match owner with
    | some slot => if k.ctxActive d slot ∧ k.foc.chunks.any (fun c => c.die == d && c.slot == slot.val) then
        k.focFail (k.ctx T.FOC_CTX_ROOT d slot * 512 + slot) 6
      else k
    | none => k
  | 10 => if i < 512 then k.focPoison d i else (k.slotsOfMember d (i - 512)).foldl (fun k s => k.focPoison d s) k
  | 11 =>
    let l := i / 512
    let bank := i / 256 % 2
    if k.td T.EPH_PORT_ACTIVE w (inst % 8) l = bank then
      k.tw T.EPH_LIST_MASK w (inst % 8) i
        (if i % 256 = 0 then 0xFFFF else k.td T.EPH_LIST_MASK w (inst % 8) (i - 1))
    else (k.tw T.EPH_LIST_START w (inst % 8) i 0xFFFFFFFF).tw T.EPH_LIST_MASK w (inst % 8) i 0
  -- the coefficient set of a lane is lost: none is in use until training sets it again (R541)
  | 13 => k.onLink fun x => { x with txeq := x.txeq.set (d * 256 + 8 * (inst % 32) + i % 8) 0 }
  | _ => k

/-- What a pass records of an uncorrectable unit (R592, R603). -/
def Core.recordUe (k : Core) (w i mcr row : Nat) : Core :=
  let k1 := if k.rd R.RAS_SCRUB_FIRST_UE_VALID w 0 0 = 1 then k
    else (k.wr R.RAS_SCRUB_FIRST_UE_VALID w 0 0 1).wr R.RAS_SCRUB_FIRST_UE_INDEX w 0 0 i
  ((((k1.wr R.RAS_SCRUB_LAST_UE w 0 0 (2 ^ 31 + i)).wr R.RAS_SCRUB_UE_LOC_MACRO w 0 0 mcr).wr R.RAS_SCRUB_UE_LOC_ROW w 0
    0 row).bump R.RAS_SCRUB_UNCORR w 0 0 1).raise w 0xC0 1

/-- SCRUB_UNIT (R591, R592, R594): the pass of a die reads its next unit, or ends there when it was aborted or the die is
fenced. -/
def Core.scrubUnit (k : Core) (w : Nat) (found : Ecc) (key : Bool) (owner : Option (Fin 512)) (mcr row : Nat) : Core :=
  match k.ras.scrubs.find? (·.w == w) with
  | none => k
  | some p =>
    let drop (k : Core) : Core := k.onRas fun x => { x with scrubs := x.scrubs.filter (·.w != w) }
    if p.abort ∨ (w ≠ 0 ∧ k.fenced (w - 1)) then
      ((drop k).wr R.RAS_SCRUB_STAT_STATE w 0 0 3).wr R.RAS_SCRUB_STAT_REASON w 0 0 0
    else
      let i := p.cursor
      let k1 := (k.bump R.RAS_SCRUB_READ w 0 0 1).wr R.RAS_SCRUB_STAT_CURSOR w 0 0 (i + 1)
      let k2 := match found with
        | .good => k1
        | .ce =>
          let s := ceSlotOf p.cls p.inst i key
          (k1.ceFound w s.1 s.2 p.cls).bump R.RAS_SCRUB_CORRECTED w 0 0 1
        | .ue =>
          let ka := (k1.ueFound w p.cls).recordUe w i mcr row
          let kb := match ueEventOf p.cls p.inst with
            | some e => ka.raise w e.1 e.2
            | none => ka
          if p.mode = 0 then kb else kb.contain (w - 1) p.cls p.inst p.mode i key owner
      if p.last ≤ i then ((drop k2).wr R.RAS_SCRUB_STAT_STATE w 0 0 2).raise w 0xC0 0
      else k2.onRas fun x => { x with scrubs := x.scrubs.map fun y => if y.w = w then { y with cursor := i + 1 } else y }

/-- SCRUB_UNIT. -/
def execScrubUnit (w : Fin 9) (found : Ecc) (key : Bool) (owner : Option (Fin 512)) (mcr row : Fin 65536) (s : State) :
    Host.Outcome State Fault Refusal :=
  done (s.onCore fun k => k.scrubUnit w found key owner mcr row)

/-! ### Repair from replicas (R595 to R598) -/

/-- The peer of a die: the lowest other populated die that is not fenced. -/
def Core.peerOf (k : Core) (d : Nat) : Option Nat := (k.peers d).head?

/-- A repair failed (R598). -/
def Core.unrepaired (k : Core) (d : Nat) : Core := (k.bump R.RAS_UNREPAIRED_CNT (dw d) 0 0 1).raise (dw d) 0xC0 2

/-- A repair succeeded (R598). -/
def Core.repaired (k : Core) (d : Nat) (pass : Bool) : Core :=
  let k1 := k.bump R.RAS_REPAIR_CNT (dw d) 0 0 1
  if pass then k1.bump R.RAS_SCRUB_REPAIRED (dw d) 0 0 1 else k1

/-- The entries a peer sends for a lost slot: the key's, or those of the slot's bucket, or its whole stash (R595). -/
def Core.peerSends (k : Core) (d peer idx : Nat) (key : Option (Bool × Nat)) : List CatEnt :=
  let mine := k.tables.ents.filter (·.die == peer)
  match key with
  | some (wide, x) => mine.filter fun e => e.wide == wide && e.key == x
  | none =>
    if 262144 ≤ idx then mine.filter fun e => decide (262144 ≤ e.idx)
    else mine.filter fun e =>
      let b := k.catBuckets d e.wide e.key
      b.1 == idx / 4 || b.2 == idx / 4

/-- Insert a peer's entry on a die that lacks its key, with hit bit 1 and no message (R595, R596). -/
def Core.repairInsert (k : Core) (d : Nat) (e : CatEnt) : Core :=
  match k.catFind d e.wide e.key with
  | some _ => k
  | none => (k.catPlace { e with die := d, hit := true, mark := false }).getD k

/-- CATALOGUE_REPAIR (R595, R596, R598): the oldest lost slot of a die is repaired from its peer. -/
def Core.catRepair (k : Core) (d : Nat) (peerUe : Bool) : Core :=
  match k.tables.repairs.find? (·.die == d) with
  | none => k
  | some r =>
    let k1 := { k with tables := { k.tables with repairs := k.tables.repairs.erase r } }
    match k.peerOf d with
    | none => k1.unrepaired d
    | some peer =>
      if peerUe then k1.unrepaired d
      else ((k.peerSends d peer r.idx r.key).foldl (fun k e => k.repairInsert d e) k1).repaired d r.pass

/-- CATALOGUE_REPAIR. -/
def execCatalogueRepair (d : Fin 8) (peerUe : Bool) (s : State) : Host.Outcome State Fault Refusal :=
  done (s.onCore fun k => k.catRepair d peerUe)

/-- PREFIX_REPAIR (R597, R598): the oldest poisoned word of a die is copied from its peer, which clears its poison. -/
def Core.prefixRepair (k : Core) (d : Nat) (peerUe : Bool) : Core :=
  match k.tables.prefixAsks.find? (·.die == d) with
  | none => k
  | some r =>
    let k1 := { k with tables := { k.tables with prefixAsks := k.tables.prefixAsks.erase r } }
    match k.peerOf d with
    | none => k1.unrepaired d
    | some peer =>
      let here (e : LpmEnt) (x : Nat) : Bool :=
        e.die == x && e.v6 == r.v6 && e.vrf == r.vrf && e.addr == r.addr && e.len == r.len
      if peerUe ∨ (k.tables.lpm.any fun e => here e peer && e.ue) then k1.unrepaired d
      else ({ k1 with tables := { k1.tables with
          lpm := k1.tables.lpm.map fun e => if here e d then { e with ue := false } else e } }).repaired d r.pass

/-- PREFIX_REPAIR. -/
def execPrefixRepair (d : Fin 8) (peerUe : Bool) (s : State) : Host.Outcome State Fault Refusal :=
  done (s.onCore fun k => k.prefixRepair d peerUe)

/-! ### Memory self-test (R600, R601) -/

/-- The code a self-test is refused with, or 0 (R600). -/
def Core.bistCode (k : Core) (w : Nat) : Nat :=
  let d := w - 1
  if w ≠ 0 ∧ (k.portsOf d).any fun l => k.prt T.PRT_PORT_EN d l == 1 || k.linkUp d l then 1
  else if w ≠ 0 ∧ k.buf.groups.any (·.die == d) then 2
  else if k.ras.bists.any (·.w == w) || k.ras.scrubs.any (·.w == w) then 3
  else 0

/-- BIST_GO (R600). -/
def Core.bistGo (k : Core) (w v : Nat) : Core :=
  let cls := v / 2 ^ 24 % 16
  let inst := v / 2 ^ 16 % 32
  let k1 := (k.rasWr w R.M_RAS_BIST_CMD_CLASS R.RAS_BIST_CMD_CLASS cls).rasWr w R.M_RAS_BIST_CMD_INST R.RAS_BIST_CMD_INST inst
  let code := k.bistCode w
  let k2 := k1.rasWr w R.M_RAS_BIST_STAT_CODE R.RAS_BIST_STAT_CODE code
  if code = 0 then (k2.rasWr w R.M_RAS_BIST_STAT_STATE R.RAS_BIST_STAT_STATE 1).onRas fun x => { x with
    bists := x.bists ++ [⟨w, cls, inst⟩] }
  else if k.ras.bists.any (·.w == w) then k2
  else k2.rasWr w R.M_RAS_BIST_STAT_STATE R.RAS_BIST_STAT_STATE 2

/-- BIST_GO. -/
def execBistGo (m : Master) (w : Fin 9) (v : Word) (s : State) : Host.Outcome State Fault Refusal :=
  done (s.write m w 0xC2 0x100 fun k => k.bistGo w v.toNat)

/-- Remove every stored entry of an indirect window's table on a page, so that it reads its reset value. -/
def Core.clearTab (k : Core) (tab w p : Nat) : Core :=
  k.onIo fun io => { io with ents := io.ents.filter fun e => e.1 / (512 * 16777216) != (tab * 16 + w) * 64 + p }

/-- The memory of a class and instance on a port die holds zeros. The memories of classes 1, 3, 12, 14 and 15 hold nothing
that could be cleared here: packets, copies, cells and parcels are what they hold, and R600 refuses the self-test of a die
that has any. -/
def Core.zeroMemory (k : Core) (d cls inst : Nat) : Core :=
  let w := dw d
  let p := inst % 8
  match cls with
  | 0 =>
    let mine (key : Nat) : Bool := key / 73728 == d * 8 + p
    ({ k with pipes := { k.pipes with
      store := k.pipes.store.filter fun e => !mine e.1
      storeUe := k.pipes.storeUe.filter fun e => !mine e } }).wr R.SEQ_STATUS_READY w p 0 0
  | 2 => k.clearTab Tab.PRS_TCAM w p
  | 4 => (k.clearTab Tab.HVX_MCG w p).clearTab Tab.HVX_TPL w p
  | 5 => { k with tables := { k.tables with ents := k.tables.ents.filter (·.die != d) } }
  | 6 => { k with tables := { k.tables with lpm := k.tables.lpm.filter (·.die != d) } }
  | 7 => { k with tables := { k.tables with flt := k.tables.flt.map fun e =>
      if e.die = d then { e with value := 0, mask := 0, action := 0, valid := false } else e } }
  | 8 =>
    let k1 := (k.clearTab Tab.POL_CTX w 0).clearTab (Tab.POL_CTX + 64) w 0
    (List.range 16384).foldl (fun k i => (k.tw T.POL_CTX_R_ACT w 0 i 0).tw T.POL_CTX_R_ACT.eff w 0 i 0) k1
  | 9 => { k with foc := { k.foc with chunks := k.foc.chunks.map fun c =>
      if c.die = d then { c with acc := c.acc.map fun _ => ⟨0, 0⟩ } else c } }
  | 10 => (k.clearTab Tab.FOC_CTX w 0).clearTab Tab.FOC_MBR w 0
  | 11 => k.clearTab Tab.EPH_LIST w p
  | 13 => (List.range 8).foldl (fun k i => k.onLink fun x => { x with txeq := x.txeq.set (d * 256 + 8 * (inst % 32) + i) 0 }) k
  | _ => k

/-- BIST_COMPLETE (R601): the memory holds zeros, the event is raised and RAS_BIST_STAT reports the result. -/
def Core.bistDone (k : Core) (w fails mcr row col : Nat) : Core :=
  match k.ras.bists.find? (·.w == w) with
  | none => k
  | some b =>
    let k1 := k.onRas fun x => { x with bists := x.bists.filter (·.w != w) }
    let k2 := if w = 0 then (if b.cls = 3 then k1.onIo fun io => { io with almanac := [] } else k1)
      else k1.zeroMemory (w - 1) b.cls b.inst
    let k3 := ((k2.rasWr w R.M_RAS_BIST_STAT_STATE R.RAS_BIST_STAT_STATE 2).rasWr w R.M_RAS_BIST_STAT_FAILS
      R.RAS_BIST_STAT_FAILS fails).rasWr w R.M_RAS_BIST_LOC_MACRO R.RAS_BIST_LOC_MACRO mcr
    ((k3.rasWr w R.M_RAS_BIST_LOC_ROW R.RAS_BIST_LOC_ROW row).rasWr w R.M_RAS_BIST_LOC_COL R.RAS_BIST_LOC_COL
      col).rasWr w R.M_RAS_BIST_STAT_CODE R.RAS_BIST_STAT_CODE 0 |>.raise w 0xC0 4

/-- BIST_COMPLETE. -/
def execBistComplete (w : Fin 9) (fails mcr row col : Fin 65536) (s : State) : Host.Outcome State Fault Refusal :=
  done (s.onCore fun k => k.bistDone w fails mcr row col)

end Sys2Proof.Machine
end

