-- ==== Sys2Proof/Machine/Counters.lean ====
section
/-!
DEFINITION. General counters that wrap, the user counter pages of BAR2, and the clear of the port statistics (R752 to
R762).
-/
namespace Sys2Proof.Machine

/-- A field of a general counter, by window. -/
def cntFld (w : Nat) (m p : Fld) : Fld := if w = 0 then m else p

/-- A counter of a populated die counts: CNT_CFG.EN (R753). -/
def Core.cntOn (k : Core) (w c : Nat) : Bool :=
  (w == 0 || k.populated (w - 1)) && k.rd (cntFld w R.M_CNT_CFG_EN R.CNT_CFG_EN) w 0 c == 1

/-- COUNTER_WRAP (R753, R754): in one cycle the event of an enabled counter occurs `n` times, at most 16; a count that
passes 2^64 wraps, sets WRAP and raises the event. -/
def execCounterWrap (w : Fin 9) (c : Fin 64) (n : Fin 17) (s : State) : Host.Outcome State Fault Refusal :=
  done (s.onCore fun k => if k.cntOn w c then k.onIo (·.countInto k.stamp w c n) else k)

/-- CNT_CFG[n] as a word (R773). -/
def Core.cntCfg (k : Core) (w c : Nat) : Nat :=
  k.rd (cntFld w R.M_CNT_CFG_EN R.CNT_CFG_EN) w 0 c * 2 ^ 31 + k.rd (cntFld w R.M_CNT_CFG_WRAP R.CNT_CFG_WRAP) w 0 c * 2 ^ 30 +
    k.rd (cntFld w R.M_CNT_CFG_FILTER_EN R.CNT_CFG_FILTER_EN) w 0 c * 2 ^ 29 +
    k.rd (cntFld w R.M_CNT_CFG_FILTER R.CNT_CFG_FILTER) w 0 c * 2 ^ 24 +
    k.rd (cntFld w R.M_CNT_CFG_USER R.CNT_CFG_USER) w 0 c * 2 ^ 23 +
    k.rd (cntFld w R.M_CNT_CFG_EVENT R.CNT_CFG_EVENT) w 0 c

/-- PF `f` may read a counter through its user page (R759). -/
def Core.userMayRead (k : Core) (userOff : Bool) (f w c : Nat) : Bool :=
  !userOff && bit (k.rd R.CNT_USER_CFG_EN 0 0 0) f == 1 && k.rd (cntFld w R.M_CNT_CFG_USER R.CNT_CFG_USER) w 0 c == 1 &&
    decide (w ≤ 8) && (w == 0 || k.populated (w - 1))

/-- The latch of a PF's BAR2 reads for R93, apart from its BAR0 latches (R759). -/
def userLatch (f addr : Nat) : Nat := (16 + f) * 2 ^ 29 + addr

/-- A BAR2 read by PF `f` at an offset (R758, R759): the mirrored register, or zero. -/
def Core.userRead (k : Core) (userOff : Bool) (f addr : Nat) : Core :=
  let w := addr / 4096
  let off := addr % 4096
  let out (k : Core) (v : Nat) : Core := k.emit (.readData f (2 ^ 28 + addr) v)
  let c := if off < 0x400 then (off - 0x200) / 4 else (off - 0x400) / 8
  if ¬ k.serves (.pf (Fin.ofNat 4 f)) then k
  else if off % 4 ≠ 0 ∨ off < 0x200 ∨ 0x600 ≤ off ∨ (0x300 ≤ off ∧ off < 0x400) ∨ ¬ k.userMayRead userOff f w c then
    out k 0
  else if off < 0x400 then out k (k.cntCfg w c)
  else if off % 8 = 0 then
    let hi := k.rd (cntFld w R.M_CNT_VAL_HI R.CNT_VAL_HI) w 0 c
    out (k.onIo fun io => { io with latch := io.latch.set (userLatch f (addr + 4)) (hi + 1) })
      (k.rd (cntFld w R.M_CNT_VAL_LO R.CNT_VAL_LO) w 0 c)
  else
    let held := k.io.latch.get (userLatch f addr)
    out (k.onIo fun io => { io with latch := io.latch.set (userLatch f addr) 0 })
      (if held = 0 then k.rd (cntFld w R.M_CNT_VAL_HI R.CNT_VAL_HI) w 0 c else held - 1)

/-- USER_PAGE_READ. -/
def execUserPageRead (f : Fin 4) (addr : BitVec 16) (s : State) : Host.Outcome State Fault Refusal :=
  done (s.onCore fun k => k.userRead s.fuse.userOff f addr.toNat)

/-- USER_PAGE_WRITE (R759): every write to BAR2 is discarded, and no error is recorded. -/
def execUserPageWrite (_f : Fin 4) (_addr : BitVec 16) (_v : Word) (s : State) : Host.Outcome State Fault Refusal := done s

/-- Zero the 64 statistics of a port (R762). -/
def Core.clearPstat (k : Core) (d l : Nat) : Core :=
  (List.range 64).foldl (fun k n => k.tw T.CNT_PSTAT_VALUE (dw d) 0 (l * 64 + n) 0) k

/-- A write of CNT_PSTAT_CLR: PORT, and with GO the clear. -/
def Core.pstatClr (k : Core) (d v : Nat) : Core :=
  let k1 := k.wr R.CNT_PSTAT_CLR_PORT (dw d) 0 0 (bits v 7 0)
  if bit v 31 = 1 then k1.clearPstat d (bits v 7 0) else k1

/-- PSTAT_CLEAR (R762, R774). -/
def execPstatClear (m : Master) (d : Fin 8) (v : Word) (s : State) : Host.Outcome State Fault Refusal :=
  done (s.write m (dw d) 0xCD 0x100 fun k => k.pstatClr d v.toNat)

end Sys2Proof.Machine
end

