-- ==== Sys2Proof/Machine/Events.lean ====
section
/-!
DEFINITION. The event tree, the lock registers, the CE buckets, and what ends with a master's session (R83 to R87, R94,
R104 to R117).
-/
namespace Sys2Proof.Machine

/-! ### Buckets and pending bits -/

/-- CE_BUCKET_LEAK (R84): one leak period of a bucket, down to zero. -/
def execCeBucketLeak (w : Fin 9) (page : Fin 4096) (i : Fin 8) (s : State) : Host.Outcome State Fault Refusal :=
  done (s.onCore fun k => k.wr R.PAGE_CE_STAT_LEVEL w page i (k.rd R.PAGE_CE_STAT_LEVEL w page i - 1))

/-- EVT_FORCE (R82, R105): each 1 sets the pending bit whatever EVT_ENABLE says. -/
def execEvtForce (m : Master) (w : Fin 9) (page : Fin 4096) (mask : Word) (s : State) :
    Host.Outcome State Fault Refusal :=
  done (s.write m w page 0x01C fun k => k.onIo (·.setPending k.stamp w page mask.toNat))

/-- EVT_PENDING_CLEAR (R82, R108): each 1 clears the bit. A Meridian page's source shows it at once; a port-die page's
source shows it after EVT_SRC_PENDING_UPDATE, and the clear is noted for the master's next arming. -/
def execEvtPendingClear (m : Master) (w : Fin 9) (page : Fin 4096) (mask : Word) (s : State) :
    Host.Outcome State Fault Refusal :=
  done (s.write m w page 0x018 fun k =>
    let old := k.rd R.EVT_PENDING w page 0
    let k1 := k.wr R.EVT_PENDING w page 0 (old - (old &&& mask.toNat))
    if w.val = 0 then k1.onIo (·.refreshSource 0 page)
    else k1.onIo fun io => { io with w1c := io.w1c ++ [(m.id, w.val, page.val)] })

/-- EVT_SRC_PENDING_UPDATE (R63, R109): a port-die page's state reaches the tree, from a fenced die too; an absent one has
none. -/
def execEvtSrcPendingUpdate (d : Fin 8) (page : Fin 4096) (s : State) : Host.Outcome State Fault Refusal :=
  done (s.onCore fun k =>
    if k.populated d ∧ (blockOf (dw d) page).isSome then
      k.onIo fun io => { io.refreshSource (dw d) page with
        w1c := io.w1c.filter fun x => !(x.2.1 == dw d && x.2.2 == page.val) }
    else k)

/-! ### Vectors (R106 to R108) -/

/-- The armed vectors, as one 64-bit set. -/
def Core.armed (k : Core) : Nat := k.rd64 R.EVT_VEC_ARM_LO R.EVT_VEC_ARM_HI 0 0 0

/-- Every page with a source: window and page (R104). -/
def sourcePages : List (Nat × Nat) :=
  (List.range 9).flatMap fun w => (pagesOf w).flatMap fun r =>
    (List.range (r.2.1 + 1 - r.1)).map fun i => (w, r.1 + i)

/-- A vector has a pending source (R106, R107). -/
def Core.vecActive (k : Core) (v : Nat) : Bool :=
  sourcePages.any fun x =>
    k.rd R.EVT_ROUTE_VECTOR x.1 x.2 0 == v &&
      bit (k.rd R.EVT_SRC_PENDING 0 0 (sourceOf x.1 x.2 / 32)) (sourceOf x.1 x.2 % 32) == 1

/-- EVT_VEC_ARM (R108): the master's earlier clears take effect in the tree, then the named vectors are armed. -/
def execEvtVecArm (m : Master) (hi : Bool) (mask : Word) (s : State) : Host.Outcome State Fault Refusal :=
  done (s.write m 0 0x002 (if hi then 0x204 else 0x200) fun k =>
    let mine := k.io.w1c.filter (·.1 == m.id)
    let k1 := k.onIo fun io => mine.foldl (fun io x => io.refreshSource x.2.1 x.2.2)
      { io with w1c := io.w1c.filter (·.1 != m.id) }
    let f := if hi then R.EVT_VEC_ARM_HI else R.EVT_VEC_ARM_LO
    k1.wr f 0 0 0 (k1.rd f 0 0 0 ||| mask.toNat))

/-- Messages of an entry that wait in the PBA leave it once their function's entry is no longer masked (R107). -/
def Core.pbaRelease (k : Core) (v : Nat) (masked : BitVec 4) : Core :=
  let go := k.io.pba.filter fun x => x.2 == v && bit masked.toNat x.1 == 0
  go.foldl (fun k x => k.emit (.msix x.1 x.2))
    { k with io := { k.io with pba := k.io.pba.filter fun x => !(x.2 == v && bit masked.toNat x.1 == 0) } }

/-- An MSI-X message of an entry: held in the PBA while the function's entry is masked, sent otherwise. -/
def Core.msixSend (k : Core) (f v : Nat) (masked : BitVec 4) : Core :=
  if bit masked.toNat f = 1 then { k with io := { k.io with pba := k.io.pba.filter (· != (f, v)) ++ [(f, v)] } }
  else k.emit (.msix f v)

/-- MSIX_MESSAGE_SEND (R107): an enabled, armed and active vector whose holdoff has passed sends its message and is
disarmed; one that is not due sends nothing. Bit f of `masked` says that function f masks its MSI-X entry: the message is
then held in the PBA, and is sent at the next such command that finds the entry unmasked. -/
def execMsixMessageSend (v : Fin 64) (masked : BitVec 4) (s : State) : Host.Outcome State Fault Refusal :=
  done (s.onCore fun k0 =>
    let k := k0.pbaRelease v masked
    let last := k.io.vecLast.get v
    if k.rd R.EVT_VEC_CFG_EN 0 0 v = 1 ∧ bit k.armed v = 1 ∧ k.vecActive v ∧
        (last = 0 ∨ last - 1 + k.rd R.EVT_VEC_CFG_HOLDOFF 0 0 v * 1000 ≤ k.time.now) then
      let k1 := k.msixSend (k.rd R.EVT_VEC_CFG_PF 0 0 v) v masked
      let k2 := k1.onIo fun io => io.wr64 R.EVT_VEC_ARM_LO R.EVT_VEC_ARM_HI 0 0 0 (k.armed - 2 ^ v.val)
      k2.onIo fun io => { io with vecLast := io.vecLast.set v (k.time.now + 1) }
    else k)

/-! ### Locks (R111 to R116) -/

/-- Lock `i` is held. -/
def Core.lockHeld (k : Core) (i : Nat) : Bool := k.rd R.LCK_LOCK_HELD 0 0 i == 1

/-- Free a lock. -/
def Core.freeLock (k : Core) (i : Nat) : Core :=
  ((k.wr R.LCK_LOCK_HELD 0 0 i 0).wr R.LCK_LOCK_OWNER 0 0 i 0).onIo fun io =>
    { io with lockSince := io.lockSince.set i 0, lockRaised := io.lockRaised.filter (· != i) }

/-- A holding whose age exceeds HOLD_LIMIT raises the lock-hold event, once (R115). DESIGN CHOICE: a pulse of EVT_RAW bit 0,
which never stays 1. -/
def Core.lockOverdue (k : Core) (i : Nat) : Core :=
  if k.lockHeld i ∧ !k.io.lockRaised.contains i ∧
      k.io.lockSince.get i - 1 + k.rd R.LCK_CFG_HOLD_LIMIT 0 0 0 * 1000 < k.time.now then
    ({ k with io := { k.io with lockRaised := k.io.lockRaised ++ [i] } }).raise 0 0x004 0
  else k

/-- LOCK_ACQUIRE_READ (R112): a free lock reads 0 and the reader becomes its owner; a held one reads HELD and the
owner. -/
def Core.lockRead (k : Core) (m : Master) (i : Nat) : Core :=
  let addr := regAddr 0 0x004 (0x100 + 4 * i)
  if k.lockHeld i then k.emit (.readData m.id addr (2 ^ 31 + k.rd R.LCK_LOCK_OWNER 0 0 i))
  else (((k.wr R.LCK_LOCK_HELD 0 0 i 1).wr R.LCK_LOCK_OWNER 0 0 i m.id).onIo fun io =>
    { io with lockSince := io.lockSince.set i (k.time.now + 1) }).emit (.readData m.id addr 0)

/-- LOCK_ACQUIRE_READ. -/
def execLockAcquireRead (m : Master) (i : Fin 64) (s : State) : Host.Outcome State Fault Refusal :=
  done (s.read m 0 0x004 (0x100 + 4 * i.val) fun k => k.lockRead m i)

/-- LOCK_RELEASE (R113): the owner's write of its own ID frees the lock; any other write is discarded with ACC_ERR. -/
def execLockRelease (m : Master) (i : Fin 64) (v : Word) (s : State) : Host.Outcome State Fault Refusal :=
  done (s.write m 0 0x004 (0x100 + 4 * i.val) fun k =>
    if k.lockHeld i ∧ k.rd R.LCK_LOCK_OWNER 0 0 i = m.id ∧ v.toNat % 16 = m.id then k.freeLock i
    else k.accErr 0 0x004 m (0x100 + 4 * i.val))

/-- Free the held locks of a list and raise the lock-broken event: at the reset of a master (`always`) in any case, at a
write of LCK_BREAK when it frees at least one (R116). DESIGN CHOICE: both events of the page are pulses of EVT_RAW. -/
def Core.breakLocks (k : Core) (is : List Nat) (always : Bool) : Core :=
  let held := is.filter k.lockHeld
  if held.isEmpty && !always then k else (held.foldl Core.freeLock k).raise 0 0x004 1

/-- LOCK_BREAK_WRITE (R114, R116): PF0 and the MP free the named locks; another master's write is discarded with
ACC_ERR. -/
def execLockBreakWrite (m : Master) (hi : Bool) (mask : Word) (s : State) : Host.Outcome State Fault Refusal :=
  let off := if hi then 0x20C else 0x208
  done (s.write m 0 0x004 off fun k =>
    if m = .pf 0 ∨ m = .mp then
      k.breakLocks (((List.range 32).filter fun i => bit mask.toNat i == 1).map fun i => if hi then i + 32 else i) false
    else k.accErr 0 0x004 m off)

/-- LOCK_HOLD_LIMIT_WRITE (R114, R115): a new limit applies to every holding in progress; 0 is reserved. -/
def execLockHoldLimitWrite (m : Master) (v : Word) (s : State) : Host.Outcome State Fault Refusal :=
  done (s.write m 0 0x004 0x210 fun k =>
    if v.toNat % 65536 = 0 then k.cfgErr 0 0x004 m 0x210
    else (List.range 64).foldl Core.lockOverdue (k.wr R.LCK_CFG_HOLD_LIMIT 0 0 0 (v.toNat % 65536)))

/-- LOCK_HOLD_EXPIRE (R115): a holding longer than the limit raises the event once. -/
def execLockHoldExpire (i : Fin 64) (s : State) : Host.Outcome State Fault Refusal :=
  done (s.onCore fun k => k.lockOverdue i)

/-! ### The end of a session (R87, R94, R116) -/

/-- A master's session ends: its pages lose their owner, its held low halves and latches go, its locks are freed. -/
def Core.endSession (k : Core) (m : Master) : Core :=
  let k1 := k.breakLocks ((List.range 64).filter fun i => k.lockHeld i && k.rd R.LCK_LOCK_OWNER 0 0 i == m.id) true
  let k2 := sourcePages.foldl (fun k x =>
    if k.rd R.PAGE_OWNER_VALID x.1 x.2 0 = 1 ∧ k.rd R.PAGE_OWNER_OWNER x.1 x.2 0 = m.id then
      k.wr R.PAGE_OWNER_VALID x.1 x.2 0 0 else k) k1
  k2.onIo fun io => { io with
    hold := io.hold.filter (fun e => e.1 / 2 ^ 29 != m.id)
    latch := io.latch.filter (fun e => e.1 / 2 ^ 29 != m.id) }

end Sys2Proof.Machine
end

