-- ==== Sys2Proof/Machine/Cxl.lean ====
section
/-!
DEFINITION. The CXL memory tier's commands (R606 to R624): enabling and disabling regions, budgets, timeouts, the loss of
a device and its restart.
-/
namespace Sys2Proof.Machine

/-- Change the memory tier. -/
def Core.onCxl (k : Core) (f : Cxl → Cxl) : Core := { k with cxl := f k.cxl }

/-- A field of region `r`. -/
def Core.reg (k : Core) (f : Fld) (r : Nat) : Nat := k.rd f 0 0 r

/-- The budget of a region: 50 Gb/s for region 0 (R609). -/
def Core.regBudget (k : Core) (r : Nat) : Nat := if r = 0 then 50 else k.reg R.CXL_REG_BUDGET_GBPS r

/-- The largest size of a region in units, and its largest budget (R609). -/
def regionMax (r : Nat) : Nat × Nat :=
  match r with
  | 0 => (4096, 50)
  | 1 => (2, 1600)
  | 2 => (1024, 1200)
  | _ => (1024, 400)

/-- The smallest size of a region. -/
def regionMin (r : Nat) : Nat := if r = 0 then 4 else 1

/-- The range [base, base + size) that region `x` takes on port `p`, when it is enabled there; a mirrored region 0 takes
it on both ports (R614). -/
def Core.rangeOn (k : Core) (x p : Nat) : Option (Nat × Nat) :=
  if k.reg R.CXL_REG_EN x = 1 ∧ (k.reg R.CXL_REG_PORT x = p ∨ (x = 0 ∧ k.reg R.CXL_REG_MIRROR 0 = 1)) then
    some (k.reg R.CXL_REG_DPA_BASE x, k.reg R.CXL_REG_DPA_BASE x + k.reg R.CXL_REG_SIZE x)
  else none

/-- Budgets enabled on a port, region `r` left out. -/
def Core.otherBudgets (k : Core) (r p : Nat) : Nat :=
  ((List.range 4).filter fun x => x != r && (k.rangeOn x p).isSome).foldl (fun n x => n + k.regBudget x) 0

/-- A budget the region may have on a port (R611, R612). -/
def Core.budgetOk (k : Core) (r p budget : Nat) : Bool :=
  decide (1 ≤ budget ∧ budget ≤ (regionMax r).2 ∧ k.otherBudgets r p + budget ≤ 1800)

/-- The checks of R611 on enabling region `r` on port `p`. -/
def Core.regionFits (k : Core) (r p budget : Nat) : Bool :=
  let base := k.reg R.CXL_REG_DPA_BASE r
  let size := k.reg R.CXL_REG_SIZE r
  k.cxlUp p && decide (regionMin r ≤ size ∧ size ≤ (regionMax r).1) && k.budgetOk r p budget &&
    decide (base + size ≤ k.rd R.CXL_PORT_CAP_UNITS 0 p 0) &&
    (List.range 4).all fun x => x == r || (match k.rangeOn x p with
      | some (lo, hi) => decide (base + size ≤ lo ∨ hi ≤ base)
      | none => true)

/-- A write of a region's first register by a master (R624): region 0 is the MP's. -/
def Core.regionWrite (k : Core) (m : Master) (r : Nat) (f : Core → Core) : Core :=
  if r = 0 ∧ m ≠ .mp then k.accErr 0 0x93 m (0x100 + 32 * r) else f k

/-- CXL_REGION_ENABLE (R611, R612): EN = 1 of a disabled region is checked and starts the commit, or is discarded with
CFG_ERR; in an enabled region PORT keeps its value and a budget is checked and written. -/
def Core.regionEnable (k : Core) (m : Master) (r v : Nat) : Core :=
  let port := v / 2 ^ 16 % 2
  let budget := if r = 0 then 50 else v % 2 ^ 11
  let err (k : Core) : Core := k.cfgErr 0 0x93 m (0x100 + 32 * r)
  if k.reg R.CXL_REG_EN r = 1 then
    let k1 := if port = k.reg R.CXL_REG_PORT r then k else err k
    if budget = k.regBudget r then k1
    else if k1.regionFits r (k.reg R.CXL_REG_PORT r) budget then k1.wr R.CXL_REG_BUDGET_GBPS 0 0 r budget
    else err k1
  else if k.regionFits r port budget then
    -- a deep catalogue that stayed enabled and no longer fits is stuck until its EN is written 0 (R295)
    let small := if r = 1 then k.dieList.filter fun d => k.rd R.CAT_DEEP_CFG_EN (dw d) 0 0 == 1 && !k.deepFits d else []
    (((k.wr R.CXL_REG_EN 0 0 r 1).wr R.CXL_REG_PORT 0 0 r port).wr R.CXL_REG_BUDGET_GBPS 0 0 r budget).onCxl fun x => { x with
      committing := x.committing ++ [r]
      deepStuck := (x.deepStuck ++ small).eraseDups }
  else err k

/-- CXL_REGION_ENABLE. -/
def execCxlRegionEnable (m : Master) (r : Fin 4) (v : Word) (s : State) : Host.Outcome State Fault Refusal :=
  done (s.write m 0 0x93 (0x100 + 32 * r.val) fun k => k.regionWrite m r fun k => k.regionEnable m r v.toNat)

/-- REGION_COMMIT_COMPLETE (R611): both decoders of a region are committed. -/
def execRegionCommitComplete (r : Fin 4) (s : State) : Host.Outcome State Fault Refusal :=
  done (s.onCore fun k =>
    if k.cxl.committing.contains r.val then
      ((k.wr R.CXL_REG_COMMITTED 0 0 r 1).wr R.CXL_REG_STATE 0 0 r 1).onCxl fun x => { x with
        committing := x.committing.filter (· != r.val) }
    else k)

/-- CXL_REGION_DISABLE (R612): EN = 0; of region 2 it is refused with CFG_ERR while cells of any die are spilled. PORT
keeps its value when the region was enabled, and a budget is checked as R611 says. -/
def Core.regionDisable (k : Core) (m : Master) (r v : Nat) : Core :=
  let port := v / 2 ^ 16 % 2
  let budget := v % 2 ^ 11
  let on := k.reg R.CXL_REG_EN r = 1
  if on ∧ r = 2 ∧ k.dieList.any (fun d => k.spillCellsOf d != 0) then k.cfgErr 0 0x93 m (0x100 + 32 * r)
  else
    let k1 := if on ∧ port ≠ k.reg R.CXL_REG_PORT r then k.cfgErr 0 0x93 m (0x100 + 32 * r)
      else k.wr R.CXL_REG_PORT 0 0 r port
    let k2 := if r = 0 ∨ (on ∧ budget = k.regBudget r) then k1
      else if on ∧ ¬ k.regionFits r (k.reg R.CXL_REG_PORT r) budget then k1.cfgErr 0 0x93 m (0x100 + 32 * r)
      else k1.wr R.CXL_REG_BUDGET_GBPS 0 0 r budget
    (((k2.wr R.CXL_REG_EN 0 0 r 0).wr R.CXL_REG_COMMITTED 0 0 r 0).wr R.CXL_REG_STATE 0 0 r 0).onCxl fun x => { x with
      committing := x.committing.filter (· != r) }

/-- CXL_REGION_DISABLE. -/
def execCxlRegionDisable (m : Master) (r : Fin 4) (v : Word) (s : State) : Host.Outcome State Fault Refusal :=
  done (s.write m 0 0x93 (0x100 + 32 * r.val) fun k => k.regionWrite m r fun k => k.regionDisable m r v.toNat)

/-- CXL_BUDGET_REFILL (R610, R612): every region's budget comes into force, and its bucket gains 16 ns of it, 2 bytes for
each Gb/s; requests that waited for it go on (R613). -/
def Core.budgetRefill (k : Core) : Core :=
  let k1 := ((List.range 4).foldl (fun k r => k.onCxl fun x =>
    let b := k.regBudget r
    { x with budget := x.budget.set r b, taken := x.taken.set r (x.taken.get r - 2 * b) }) k).spillersEval
  k1.dieList.foldl (fun k d => k.catDrain d 16) k1

/-- CXL_BUDGET_REFILL. -/
def execCxlBudgetRefill (s : State) : Host.Outcome State Fault Refusal := done (s.onCore Core.budgetRefill)

/-! ### Loss and restart (R614 to R616) -/

/-- Every deep lookup that waits for the memory ends with the error bit (R293, R616). -/
def Core.endDeep (k : Core) : Core := (k.pipes.pkts.map (·.id)).foldl (fun k id => k.deepReturn id 0 true) k

/-- Every spilled copy is discarded and counted in its port's FLUSH_DROP; the queues that spilled act as back-pressure
queues from here on (R375, R616). -/
def Core.spillLost (k : Core) : Core :=
  let gone := k.buf.spilled ++ k.buf.fetching
  let k1 := { k with buf := { k.buf with spilled := [], fetching := [] } }
  let k2 := (gone.foldl (fun k c =>
    let d := c.port / 256
    let l := c.port % 256
    ((k.tbump T.BUF_PSTAT_FLUSH_DROP (dw d) 0 l 1).tw T.BUF_Q_SPILLED (dw d) 0 (l * 16 + c.queue) 0).noteIdle d l c.queue)
      k1).spillersEval
  let dies := k.dieList.filter fun d => (k.listed T.BUF_Q_SPILLING (dw d)).any fun e => k.td T.BUF_Q_SPILLING (dw d) e.1 e.2 == 1
  dies.foldl (fun k d => k.raise (dw d) 0x28 3) k2

/-- The read of region contents in progress ends in error: it completes with FAIL (R615, R620). -/
def Core.failRead (k : Core) (r : Nat) : Core :=
  if k.rd R.CXL_RD_SEL_REGION 0 0 0 = r then
    k.onIo fun io => { io with ind := io.ind.map fun o =>
      if o.tab = Tab.CXL_RD ∧ o.write = false then { o with refused := true } else o }
  else k

/-- A region's device is lost (R615, R616): one whose decoders are being committed is committed and lost at once (R625). -/
def Core.regionLost (k' : Core) (r : Nat) : Core :=
  let k := if k'.cxl.committing.contains r then k'.wr R.CXL_REG_COMMITTED 0 0 r 1 else k'
  let k1 := ((k.wr R.CXL_REG_STATE 0 0 r 2).failRead r).onCxl fun x => { x with committing := x.committing.filter (· != r) }
  match r with
  | 1 => k1.endDeep
  | 2 => k1.spillLost
  | 3 => (k1.bump R.CXL_PLATE_DROP_CNT 0 0 0 k.cxl.plate.length).onCxl fun x => { x with plate := [] }
  | _ => k1

/-- CXL_DEVICE_LOST (R614 to R616): the port is lost; a mirrored region 0 moves to the surviving port, and each other
region of the port is lost. -/
def Core.deviceLost (k : Core) (p : Nat) : Core :=
  if k.rd R.CXL_PORT_STATUS_STATE 0 p 0 = 0 ∨ k.rd R.CXL_PORT_STATUS_STATE 0 p 0 = 4 then k
  else
    let k1 := ((k.wr R.CXL_PORT_STATUS_STATE 0 p 0 4).bump R.CXL_PORT_LOSS_CNT 0 p 0 1).raise 0 0x90 p
    let k2 := k1.onCxl fun x => { x with
      timeouts := x.timeouts.set p 0
      restarting := x.restarting.filter (· != p) }
    let mirrored := k.reg R.CXL_REG_EN 0 = 1 ∧ k.reg R.CXL_REG_MIRROR 0 = 1
    let k3 := if mirrored then
        (((k2.wr R.CXL_REG_MIRROR 0 0 0 0).wr R.CXL_REG_PORT 0 0 0 (1 - p)).wr R.CXL_REG_STATE 0 0 0 3).raise 0 0x90 3
      else k2
    ((List.range 4).filter fun r => k3.reg R.CXL_REG_EN r == 1 && k3.reg R.CXL_REG_PORT r == p).foldl
      (fun k r => k.regionLost r) k3

/-- CXL_DEVICE_LOST. -/
def execCxlDeviceLost (p : Fin 2) (s : State) : Host.Outcome State Fault Refusal := done (s.onCore fun k => k.deviceLost p)

/-- The outstanding deep lookups of a die, with the instants they were issued at. -/
def Core.deepAsked (k : Core) (d : Nat) : List (Nat × Nat) :=
  k.pipes.pkts.filterMap fun p => match p.deep with
    | .issued _ t => if p.die = d then some (t, p.id) else none
    | _ => none

/-- Since when the oldest request of die `d` to region `r` is outstanding (R615): a deep lookup, a spill fetch or a queued capture
record; `d` = 8 is the read of region contents (R620). -/
def Core.requestSince (k : Core) (r d : Nat) : Option Nat :=
  if d = 8 then
    if k.rd R.CXL_RD_SEL_REGION 0 0 0 ≠ r then none
    else (k.io.ind.find? fun o => o.tab == Tab.CXL_RD && !o.write && !o.refused).map (·.since)
  else match r with
    | 1 => ((k.deepAsked d).map (·.1)).min?
    | 2 => (k.buf.fetching.find? (·.die == d)).map (·.asked)
    | 3 => (k.cxl.plate.find? (·.die == d)).map (·.since)
    | _ => none

/-- The oldest request of die `d` to region `r` ends in error (R293, R615, R617, R620). -/
def Core.requestError (k : Core) (r d : Nat) : Core :=
  if d = 8 then k.failRead r
  else match r with
  | 1 => match (k.deepAsked d).find? fun x => some x.1 == k.requestSince 1 d with
    | some x => k.deepReturn x.2 0 true
    | none => k
  | 2 => k.spillReturn d false true
  | 3 => match k.cxl.plate.find? (·.die == d) with
    | some x => (k.bump R.CXL_PLATE_DROP_CNT 0 0 0 1).onCxl fun y => { y with plate := y.plate.erase x }
    | none => k
  | _ => k

/-- CXL_REQUEST_TIMEOUT (R615): die `d`'s oldest request to region `r`, or the read of region contents (`d` = 8), has had no
response for CPL_TMO_US; LOSS_TMO of them in a row lose the device. -/
def Core.requestTimeout (k : Core) (r d : Nat) : Core :=
  let p := k.regionPort r
  let late : Bool := match k.requestSince r d with
    | some t => decide (t + k.rd R.CXL_PORT_CFG_CPL_TMO_US 0 p 0 * 1000 ≤ k.time.now)
    | none => false
  if k.reg R.CXL_REG_EN r = 0 ∨ ¬ k.cxlUp p ∨ ¬ late then k
  else
    let n := k.cxl.timeouts.get p + 1
    let k1 := ((k.bump R.CXL_PORT_CPL_TMO_CNT 0 p 0 1).requestError r d).onCxl fun x => { x with
      timeouts := x.timeouts.set p n }
    if k.rd R.CXL_PORT_CFG_LOSS_TMO 0 p 0 ≤ n then k1.deviceLost p else k1

/-- CXL_REQUEST_TIMEOUT. -/
def execCxlRequestTimeout (r : Fin 4) (d : Fin 9) (s : State) : Host.Outcome State Fault Refusal :=
  done (s.onCore fun k => k.requestTimeout r d)

/-- CXL_PORT_RESTART (R615): refused with CFG_ERR while a region on the port has EN = 1; otherwise the link retrains, and
what the device held is gone. -/
def Core.portRestart (k : Core) (m : Master) (p : Nat) : Core :=
  if (List.range 4).any fun r => (k.rangeOn r p).isSome then k.cfgErr 0 (0x91 + p) m 0x10C
  else (k.wr R.CXL_PORT_STATUS_STATE 0 p 0 1).onCxl fun x => { x with
    lines := x.lines.filter fun e => e.1 / 2 ^ 36 != p
    poison := x.poison.filter fun e => e / 2 ^ 36 != p
    restarting := x.restarting.filter (· != p) ++ [p]
    timeouts := x.timeouts.set p 0 }

/-- CXL_PORT_RESTART. -/
def execCxlPortRestart (m : Master) (p : Fin 2) (s : State) : Host.Outcome State Fault Refusal :=
  done (s.write m 0 (0x91 + p.val) 0x10C fun k => k.portRestart m p)

/-- A device enumerates on a port with `units` of capacity, or none does (R607, R615). -/
def Core.enumerated (k : Core) (p units : Nat) (fast wide : Bool) : Core :=
  ((((k.wr R.CXL_PORT_STATUS_STATE 0 p 0 (if units = 0 then 0 else 3)).wr R.CXL_PORT_CAP_UNITS 0 p 0 units).wr
    R.CXL_PORT_STATUS_SPEED 0 p 0 (if units = 0 then 0 else b2n fast)).wr R.CXL_PORT_STATUS_WIDTH 0 p 0
    (if units = 0 then 0 else if wide then 16 else 8)).onCxl fun x => { x with
      restarting := x.restarting.filter (· != p) }

/-- CXL_RESTART_COMPLETE (R615). -/
def execCxlRestartComplete (p : Fin 2) (units : Fin 4097) (fast wide : Bool) (s : State) :
    Host.Outcome State Fault Refusal :=
  done (s.onCore fun k => if k.cxl.restarting.contains p.val then k.enumerated p units fast wide else k)

end Sys2Proof.Machine
end

