-- ==== Sys2Proof/Machine/Boot.lean ====
section
/-!
DEFINITION. The boot flash and its records (R696 to R701), manifests and images (R702 to R708), the measurement log (R721
to R723) and the identity key (R724).
-/
namespace Sys2Proof.Machine

/-! ### Bytes -/

/-- `n` bytes of a number, byte 0 lowest. -/
def leOf (v n : Nat) : List Byte := (List.range n).map fun i => BitVec.ofNat 8 (v / 2 ^ (8 * i))

/-- The little-endian number in `n` bytes of a list from offset `i`. -/
def leAt (b : List Byte) (i n : Nat) : Nat := leNat ((b.drop i).take n)

/-- Every byte is zero. -/
def allZero (b : List Byte) : Bool := b.all (· == 0)

/-- The 64-byte SHAKE256 output (R702). -/
def shake64 (b : List Byte) : List Byte := (List.range 64).map (Config.shakeByte b)

/-- The first 32 bytes of SHAKE256 (R707, R724). -/
def shake32 (b : List Byte) : List Byte := (List.range 32).map (Config.shakeByte b)

/-- The ASCII bytes of a label. -/
def ascii (s : String) : List Byte := s.toList.map fun c => BitVec.ofNat 8 c.toNat

/-! ### The flash (R696 to R699) -/

/-- A byte of the flash. -/
def flashByte (f : SMap) (a : Nat) : Byte := BitVec.ofNat 8 (f.get a ^^^ 0xFF)

/-- `n` bytes of the flash from an address. -/
def flashRead (f : SMap) (a n : Nat) : List Byte := (List.range n).map fun i => flashByte f (a + i)

/-- Write bytes to the flash. -/
def flashWrite (f : SMap) : Nat → List Byte → SMap
  | _, [] => f
  | a, b :: t => flashWrite (f.set a (b.toNat ^^^ 0xFF)) (a + 1) t

/-- Erase [lo, hi). -/
def flashErase (f : SMap) (lo hi : Nat) : SMap := f.filter fun e => !decide (lo ≤ e.1 ∧ e.1 < hi)

/-- The start of a bank, and its size. -/
def bankBase (b : Nat) : Nat := if b = 0 then 0 else 0x10000000
/-- Bytes of a bank. -/
def bankSize : Nat := 0x0F000000

/-- The start of a records area. -/
def recordsBase (c : Nat) : Nat := if c = 0 then 0x0F000000 else 0x1F000000

/-- A record slot: its offset in a records area, its size, and whether the record ends in a digest of itself. -/
structure Slot where
  off : Nat
  size : Nat
  digest : Bool

/-- The slots of R698. -/
def selectorSlot : Slot := ⟨0, 0x1000, true⟩
/-- Identity certificate: it carries a signature, and no digest (R701). -/
def certSlot : Slot := ⟨0x1000, 0xF000, false⟩
/-- Board description. -/
def boardSlot : Slot := ⟨0x10000, 0x10000, true⟩
/-- Soft-repair map. -/
def softSlot : Slot := ⟨0x20000, 0x80000, true⟩
/-- Ageing record. -/
def ageSlot : Slot := ⟨0xA0000, 0x80000, true⟩

/-- A record's last 64 bytes are the digest of the others. -/
def digestOk (b : List Byte) : Bool := decide (64 ≤ b.length) && b.drop (b.length - 64) == shake64 (b.take (b.length - 64))

/-- The record in copy `c` of a slot with its generation, when it is valid (R699). -/
def recordIn (f : SMap) (s : Slot) (c : Nat) : Option (Nat × List Byte) :=
  let h := flashRead f (recordsBase c + s.off) 16
  let len := leAt h 8 4
  if leAt h 0 4 = 0x4C534D4E ∧ leAt h 12 4 = 0 ∧ len + 16 ≤ s.size then
    let b := flashRead f (recordsBase c + s.off + 16) len
    if s.digest = false ∨ digestOk b then some (leAt h 4 4, b) else none
  else none

/-- The record of a slot: the valid copy, of two valid ones the higher generation; none is an absent record (R699). -/
def readRecord (f : SMap) (s : Slot) : Option (List Byte) :=
  match recordIn f s 0, recordIn f s 1 with
  | some a, some b => some (if a.1 < b.1 then b.2 else a.2)
  | some a, none => some a.2
  | none, some b => some b.2
  | none, none => none

/-- Write a record: to the invalid copy or the lower generation, with a generation one above the other's (R699). -/
def writeRecord (f : SMap) (s : Slot) (b : List Byte) : SMap :=
  let put (c gen : Nat) : SMap :=
    flashWrite f (recordsBase c + s.off) (leOf 0x4C534D4E 4 ++ leOf gen 4 ++ leOf b.length 4 ++ leOf 0 4 ++ b)
  match recordIn f s 0, recordIn f s 1 with
  | some x, some y => if x.1 ≤ y.1 then put 0 (y.1 + 1) else put 1 (x.1 + 1)
  | some x, none => put 1 (x.1 + 1)
  | none, some y => put 0 (y.1 + 1)
  | none, none => put 0 1

/-- A record's bytes with the digest that ends it. -/
def withDigest (b : List Byte) : List Byte := b ++ shake64 b

/-- The boot selector (R700): preferred bank, TRIAL, ATTEMPTED. -/
structure Selector where
  preferred : Nat
  trial : Nat
  attempted : Nat
  deriving DecidableEq, Repr

/-- The selector in force; an absent one acts as bank A without trial. -/
def readSelector (f : SMap) : Selector :=
  match readRecord f selectorSlot with
  | some b => if leAt b 0 4 = 0x4C53424E then ⟨leAt b 4 1, leAt b 5 1, leAt b 6 1⟩ else ⟨0, 0, 0⟩
  | none => ⟨0, 0, 0⟩

/-- Write the selector. -/
def writeSelector (f : SMap) (s : Selector) : SMap :=
  writeRecord f selectorSlot (withDigest (leOf 0x4C53424E 4 ++ leOf s.preferred 1 ++ leOf s.trial 1 ++ leOf s.attempted 1 ++
    leOf 0 9))

/-! ### Manifests (R702 to R706) -/

/-- A manifest entry (R703). -/
def entryOf (b : List Byte) : ImgEntry :=
  { type := leAt b 0 2, flags := leAt b 2 2, version := leAt b 4 4, offset := leAt b 8 4, length := leAt b 12 4,
    head := b.take 80, digest := (b.drop 16).take 64, iv := (b.drop 80).take 12, tag := (b.drop 92).take 16,
    rest := (b.drop 108).take 4 }

/-- Read a manifest from `read offset length` (R702). At most 32 entries are read: a larger count is not valid. -/
def manifestAt (read : Nat → Nat → List Byte) : Manifest :=
  let h := read 0 1984
  let n := min 32 (leAt h 12 4)
  { magic := leAt h 0 4, format := leAt h 4 2, kind := leAt h 6 1, slot := leAt h 7 1, svn := leAt h 8 4,
    count := leAt h 12 4, bind := leAt h 16 8, revoke := leAt h 24 1, reserved := (h.drop 25).take 7,
    pubkey := (h.drop 32).take 1952, entries := (List.range n).map fun i => entryOf (read (1984 + 112 * i) 112),
    body := read 0 (1984 + 112 * n), sig := read (1984 + 112 * n) 3309 }

/-- The bytes of a whole manifest, signature included. -/
def Manifest.bytes (m : Manifest) : List Byte := m.body ++ m.sig

/-- An image type is encrypted (R704); none for a reserved type. -/
def typeEncrypted (t : Nat) : Option Bool := if 1 ≤ t ∧ t ≤ 4 then some true else if t = 0x10 then some false else none

/-- FLAGS bit 0: encrypted. -/
def ImgEntry.encrypted (e : ImgEntry) : Bool := bit e.flags 0 == 1

/-- FLAGS bit 1: boot program. -/
def ImgEntry.bootProgram (e : ImgEntry) : Bool := bit e.flags 1 == 1

/-- The entry lies in its bank's image area, and its fields and encryption are right (code 1 of R705). -/
def ImgEntry.formOk (e : ImgEntry) : Bool :=
  decide (0x200000 ≤ e.offset ∧ e.offset % 4096 = 0 ∧ 1 ≤ e.length ∧ e.length ≤ 67108864 ∧ e.offset + e.length ≤ bankSize ∧
    e.flags < 4) && allZero e.rest && typeEncrypted e.type == some e.encrypted &&
    (e.encrypted || (allZero e.iv && allZero e.tag))

/-- Two entries do not overlap. -/
def ImgEntry.apart (a b : ImgEntry) : Bool := decide (a.offset + a.length ≤ b.offset ∨ b.offset + b.length ≤ a.offset)

/-- No two entries of a list overlap. -/
def noOverlap : List ImgEntry → Bool
  | [] => true
  | e :: t => t.all e.apart && noOverlap t

/-- Entries of a type. -/
def Manifest.ofType (m : Manifest) (t : Nat) : List ImgEntry := m.entries.filter (·.type == t)

/-- The manifest's form (code 1 of R705). -/
def Manifest.formOk (m : Manifest) (kind : Nat) : Bool :=
  decide (m.magic = 0x464D4D4E ∧ m.format = 1 ∧ m.kind = kind ∧ m.svn ≤ 64 ∧ 1 ≤ m.count ∧ m.count ≤ 32 ∧
    (kind = 0 ∨ m.revoke = 0)) && allZero m.reserved && m.entries.all ImgEntry.formOk && noOverlap m.entries

/-- The counts of R704 for a kind of manifest (code 9 of R705). -/
def Manifest.countsOk (m : Manifest) (kind : Nat) : Bool :=
  let n (t : Nat) : Nat := (m.ofType t).length
  if kind = 0 then
    decide (n 1 = 1 ∧ n 2 = 1 ∧ n 3 = 1 ∧ n 4 ≤ 16 ∧ n 1 + n 2 + n 3 + n 4 = m.entries.length)
  else decide (1 ≤ n 0x10 ∧ n 0x10 ≤ 16 ∧ n 0x10 = m.entries.length)

/-- The key slots of a kind: programmed, revoked, hashes (R709). -/
def Fuses.keys (fz : Fuses) (kind : Nat) : Nat × Nat × List (List Byte) :=
  if kind = 0 then (fz.vendorValid, fz.vendorRevoked, fz.vendorHash) else (fz.ownerValid, fz.ownerRevoked, fz.ownerHash)

/-- A key slot is programmed and not revoked. -/
def Fuses.slotLive (fz : Fuses) (kind slot : Nat) : Bool :=
  decide (slot < 4) && bit (fz.keys kind).1 slot == 1 && bit (fz.keys kind).2.1 slot == 0

/-- Some key slot of a kind is programmed: its valid bit is burned, revoked or not (R709, R718). -/
def Fuses.anyValid (fz : Fuses) (kind : Nat) : Bool := decide ((fz.keys kind).1 % 16 ≠ 0)

/-- The rollback counter of a kind. -/
def Fuses.rollback (fz : Fuses) (kind : Nat) : Nat := if kind = 0 then fz.vendorRb else fz.ownerRb

/-- PAG_SERIAL. -/
def Fuses.serial (fz : Fuses) : Nat := fz.part.serialHi * 2 ^ 32 + fz.part.serialLo

/-- The lowest failing code of R705 of a manifest of a kind, or none when it is valid. `others` are the boot-program flags
of the bank's other manifest. -/
def Fuses.manifestCode (fz : Fuses) (kind : Nat) (m : Manifest) (others : Nat) : Option Nat :=
  if ¬ m.formOk kind then some 1
  else if ¬ fz.slotLive kind m.slot then some 2
  else if shake64 m.pubkey ≠ (fz.keys kind).2.2.getD m.slot [] then some 3
  else if ¬ Config.mldsaVerify m.pubkey m.body m.sig then some 4
  else if m.svn < fz.rollback kind then some 5
  else if m.bind ≠ 0 ∧ m.bind ≠ fz.serial then some 6
  else if ¬ m.countsOk kind ∨ 1 < others + (m.entries.filter ImgEntry.bootProgram).length then some 9
  else none

/-- The key of encrypted images (R707). -/
def patchKey : List Byte := shake32 ((List.range 32).map Config.classSecret ++ ascii "NYM-PATCH-KEY")

/-- The failing code of R706 of an image's stored bytes, or none when it is valid. -/
def imageCode (e : ImgEntry) (stored : List Byte) : Option Nat :=
  if shake64 stored ≠ e.digest then some 7
  else if e.encrypted ∧ ¬ Config.gcmValid patchKey e.iv e.head stored e.tag then some 8
  else none

/-- The plain bytes of a valid image (R707). -/
def imagePlain (e : ImgEntry) (stored : List Byte) : List Byte :=
  if e.encrypted then (List.range stored.length).map (Config.gcmPlain patchKey e.iv stored) else stored

/-- A manifest of a bank of the flash. -/
def bankManifest (f : SMap) (b kind : Nat) : Manifest :=
  manifestAt fun o n => flashRead f (bankBase b + kind * 0x100000 + o) n

/-- Boot-program flags of a bank's manifest of a kind, when it is a manifest at all. -/
def bankBootFlags (f : SMap) (b kind : Nat) : Nat :=
  let m := bankManifest f b kind
  if m.formOk kind then (m.entries.filter ImgEntry.bootProgram).length else 0

/-- The failing code of a bank's manifest. -/
def Fuses.bankCode (fz : Fuses) (f : SMap) (b kind : Nat) : Option Nat :=
  fz.manifestCode kind (bankManifest f b kind) (bankBootFlags f b (1 - kind))

/-- The stored bytes of an entry in a bank. -/
def bankImage (f : SMap) (b : Nat) (e : ImgEntry) : List Byte := flashRead f (bankBase b + e.offset) e.length

/-- The firmware entry of a bank's vendor manifest, when manifest and image are valid (R715). -/
def Fuses.bankFirmware (fz : Fuses) (f : SMap) (b : Nat) : Option (Manifest × ImgEntry) :=
  if (fz.bankCode f b 0).isSome then none
  else
    let m := bankManifest f b 0
    match (m.ofType 1).head? with
    | some e => if (imageCode e (bankImage f b e)).isNone then some (m, e) else none
    | none => none

/-! ### Measurements (R721 to R723) -/

/-- SEC_FUSE as a word (R729). -/
def Fuses.secFuse (fz : Fuses) : Nat :=
  b2n fz.debugOff * 2 ^ 31 + b2n fz.matrixLock * 2 ^ 30 + fz.ownerRevoked * 2 ^ 20 + fz.ownerValid * 2 ^ 16 +
    fz.vendorRevoked * 2 ^ 8 + fz.vendorValid

/-- SEC_RB as a word. -/
def Fuses.secRb (fz : Fuses) : Nat := fz.ownerRb * 2 ^ 16 + fz.vendorRb

/-- SEC_STATUS as a word. -/
def Core.secStatus (k : Core) : Nat :=
  let r (f : Fld) : Nat := k.rd f 0 0 0
  r R.SEC_STATUS_DEBUG_ACTIVE * 2 ^ 31 + r R.SEC_STATUS_TRIAL * 2 ^ 30 + r R.SEC_STATUS_LOG_TRUNC * 2 ^ 29 +
    r R.SEC_STATUS_ID_READY * 2 ^ 28 + r R.SEC_STATUS_VENDOR_SLOT * 2 ^ 24 + r R.SEC_STATUS_OWNER_SLOT * 2 ^ 20 +
    r R.SEC_STATUS_OWNER_STATE * 2 ^ 12 + r R.SEC_STATUS_OWNER_REASON * 2 ^ 8

/-- Extend the accumulator with a 128-byte entry; beyond 2,048 entries nothing is stored (R722). -/
def State.extend (s : State) (e : List Byte) : State :=
  let room := decide (s.sec.log.length < 2048)
  let k := s.core.wr R.SEC_LOG_COUNT 0 0 0 (s.core.rd R.SEC_LOG_COUNT 0 0 0 + 1)
  { s with
    sec := { acc := shake64 (s.sec.acc ++ e), log := if room then s.sec.log ++ [e] else s.sec.log }
    core := if room then k else (k.wr R.SEC_STATUS_LOG_TRUNC 0 0 0 1).raise 0 0xA0 3 }

/-- A log entry of R722 made now, with the next index. -/
def State.logEntry (s : State) (kind type version svn : Nat) (digest : List Byte) : List Byte :=
  leOf (s.core.rd R.SEC_LOG_COUNT 0 0 0) 4 ++ leOf kind 2 ++ leOf type 2 ++ leOf version 4 ++ leOf svn 4 ++
    leOf (s.core.time.sec % 2 ^ 32) 4 ++ leOf s.core.time.ns 4 ++ digest ++ leOf 0 40

/-- Measure: build the entry and extend. -/
def State.measure (s : State) (kind type version svn : Nat) (digest : List Byte) : State :=
  s.extend (s.logEntry kind type version svn digest)

/-- Measure a vendor (`kind` 0) or an owner manifest (1): kinds 1 and 2 of R722. -/
def State.measureManifest (s : State) (kind : Nat) (m : Manifest) : State := s.measure (kind + 1) 0 0 m.svn (shake64 m.bytes)

/-- Measure an image of a manifest (kind 3), or the program of a program change (kind 4). -/
def State.measureImage (s : State) (kind : Nat) (m : Manifest) (e : ImgEntry) : State :=
  s.measure kind e.type e.version m.svn e.digest

/-- Measure the security state (kind 6). -/
def State.measureSecurity (s : State) : State :=
  s.measure 6 0 0 0 (shake64 (leOf s.fuse.secFuse 4 ++ leOf s.fuse.secRb 4 ++ leOf s.core.secStatus 4))

/-! ### Identity (R724, R725) -/

/-- The seed of the identity key: production, or debug while the debug port is enabled. -/
def idSeed (debug : Bool) : List Byte :=
  shake32 ((List.range 32).map Config.uniqueSecret ++ ascii (if debug then "NYM-ID-DEBUG" else "NYM-ID-PROD"))

/-- PAG_PART as a word (R88). -/
def Part.word (p : Part) : Nat := p.dies * 2 ^ 16 + p.stepping * 2 ^ 8 + 0x4E

/-- Bytes 0 to 167 of a quote (R725). -/
def State.quoteBody (s : State) (nonce : List Byte) : List Byte :=
  leOf 0x514D594E 4 ++ leOf 1 2 ++ leOf 0 2 ++ leOf s.fuse.serial 8 ++ leOf s.fuse.part.word 4 ++ leOf s.fuse.secFuse 4 ++
    leOf s.fuse.secRb 4 ++ leOf s.core.secStatus 4 ++ leOf (s.core.rd R.SEC_LOG_COUNT 0 0 0) 4 ++ leOf 0 4 ++ nonce ++ s.sec.acc

/-- MEAS_EXTEND (R722, R729): the MP extends with SEC_MEAS_EXT; any other master's write sets ACC_ERR. -/
def execMeasExtend (m : Master) (s : State) : Host.Outcome State Fault Refusal :=
  done (if ¬ s.core.live then s
    else match s.core.verdict m 0 0xA0 0x200 true with
    | .ok =>
      if m = .mp then s.extend ((List.range 32).flatMap fun j => leOf (s.core.rd R.SEC_MEAS_EXT 0 0 j) 4)
      else s.onCore fun k => k.accErr 0 0xA0 m 0x200
    | .silent => s
    | .error ew ep => s.onCore fun k => k.accErr ew ep m 0x200)

end Sys2Proof.Machine
end

