-- ==== Sys2Proof/Machine/Pmu.lean ====
section
/-!
DEFINITION. Power, droop and ageing (R626 to R656): the epochs of the power management units and the governor, throttle
steps, caps, boost, lockstep, droop, the core rail, PMBus, and the ageing record.
-/
namespace Sys2Proof.Machine

/-! ### The units -/

/-- A limit at rest. -/
def Limit.zero : Limit := ⟨0, 0⟩

/-- The unit of a window after a reset of the part (R655). -/
def PmuDie.fresh (w : Nat) : PmuDie :=
  { w, limits := List.replicate 5 .zero, alone := List.replicate 2 .zero, hot := false, lastMeas := 0, same := 0,
    estRef := 0, apart := 0, close := 0, power := 0, boostRun := 0, drooped := false, inEpoch := 0,
    gain := 1000, railLost := false, trimmed := false,
    noBoost := false, ceiling := 64, stretch := 0, stretchNs := 0, msNs := 0, msRaised := false, msIndex := 0,
    serdesMs := 0, life := 0, lifeSum := 0, base := List.replicate 8 0, want := 0 }

/-- The unit of a window. -/
def Core.unit (k : Core) (w : Nat) : PmuDie := (k.pmu.dies.find? (·.w == w)).getD (.fresh w)

/-- Put a unit back. -/
def Core.putUnit (k : Core) (u : PmuDie) : Core :=
  { k with pmu := { k.pmu with dies := u :: k.pmu.dies.filter fun x => x.w != u.w } }

/-- The windows that have a unit: the Meridian die and the populated port dies. -/
def Core.units (k : Core) : List Nat := 0 :: k.dieList.map dw

/-- A PMU field of a window: the Meridian twin or the port die's. -/
def pick (w : Nat) (m p : Fld) : Fld := if w = 0 then m else p

/-- The page of a window's PMU registers. -/
def pmuPage (w : Nat) : Nat := if w = 0 then 0x81 else 0xC8

/-! ### Frequency and voltage (R630, R640, R650) -/

/-- Base clock in MHz: a ceiling below 1.75 GHz, else 1.75 GHz and 25 MHz a boost level. -/
def baseMhz (ceiling b : Nat) : Nat := if ceiling < 64 then 1750 * ceiling / 64 else 1750 + 25 * b

/-- cclk in MHz without stretch, rounded down (R630). -/
def cclkMhz (ceiling b s : Nat) : Nat :=
  if ceiling < 64 then 1750 * ceiling * (64 - s) / 4096 else (1750 + 25 * b) * (64 - s) / 64

/-- TRIM of a window's die. -/
def Core.trim (k : Core) (w : Nat) : Nat := k.rd (pick w R.M_PMU_VOLT_TRIM_MV R.PMU_VOLT_TRIM_MV) w 0 0

/-- The setpoint for a clock: V0(f) + TRIM, clipped to 600 to 850 mV (R640). -/
def Core.setpoint (k : Core) (w mhz : Nat) : Nat := max 600 (min 850 (Config.v0 w mhz + k.trim w))

/-- MARGIN_MV (R650). -/
def Core.margin (k : Core) (w : Nat) : Int := 850 - ((Config.v0 w 1750 + k.trim w : Nat) : Int)

/-- The highest 1/64 step of 1.75 GHz, `n` or below, that the rail at 850 mV allows. -/
def Core.ceilingFor (k : Core) (w : Nat) : Nat → Nat
  | 0 => 0
  | n + 1 => if Config.v0 w (1750 * (n + 1) / 64) + k.trim w ≤ 850 then n + 1 else k.ceilingFor w n

/-- What a margin does (R650): boost off and the margin-low event below 20 mV, and a ceiling below 0. -/
def Core.applyMargin (k : Core) (w : Nat) : Core :=
  let m := k.margin w
  let k1 := (if w = 0 then k else k.noteStalls (w - 1)).wr (pick w R.M_PMU_AGE_STAT_MARGIN_MV R.PMU_AGE_STAT_MARGIN_MV) w 0 0 (BitVec.ofInt 16 m).toNat
  let u := k.unit w
  let low := decide (m < 20)
  let k2 := k1.putUnit { u with noBoost := u.noBoost || low, ceiling := if m < 0 then k.ceilingFor w 64 else 64 }
  if low then k2.raise w (pmuPage w) 5 else k2

/-! ### Limits and demands (R631) -/

/-- A limit's demand after an epoch: 4 steps up while it is exceeded, 1 down every 16 epochs counted from the first epoch
far enough below, held in between. -/
def Limit.next (l : Limit) (top : Nat) (above far : Bool) : Limit :=
  if above then ⟨min top (l.demand + 4), 0⟩
  else if far then
    let n := l.below + 1
    if 1 < n ∧ (n - 1) % 16 = 0 then ⟨l.demand - 1, n⟩ else ⟨l.demand, n⟩
  else ⟨l.demand, 0⟩

/-- The limit on a value: exceeded above it, far below at 95 % of it or less. -/
def Limit.against (l : Limit) (top value limit : Nat) : Limit :=
  l.next top (decide (limit < value)) (decide (value * 100 ≤ limit * 95))

/-- An allowance of R633, as the exact fraction num/den in 0.005 W. -/
structure Allowance where
  d : Nat
  num : Int
  den : Nat

/-- The shares of R633, for open dies (die, P in 0.1 W, weight); each round closes at least one die. -/
def allowances : Nat → Int → List (Nat × Nat × Nat) → List Allowance
  | 0, _, _ => []
  | n + 1, pool, opn =>
    let total := opn.foldl (fun a x => a + x.2.2) 0
    let isLight (x : Nat × Nat × Nat) : Bool := decide (((21 * x.2.1 * total : Nat) : Int) < pool * x.2.2)
    let light := opn.filter isLight
    if light.isEmpty then opn.map fun x => ⟨x.1, pool * x.2.2, total⟩
    else light.map (fun x => ⟨x.1, ((21 * x.2.1 : Nat) : Int), 1⟩) ++
      allowances n (light.foldl (fun a x => a - ((21 * x.2.1 : Nat) : Int)) pool) (opn.filter fun x => !isLight x)

/-- The smaller of two allowances (R633). -/
def Allowance.smaller (a b : Allowance) : Allowance := if a.num * b.den ≤ b.num * a.den then a else b

/-- A power in 0.1 W exceeds an allowance. -/
def Allowance.isOver (a : Allowance) (p : Nat) : Bool := decide (a.num < ((20 * p * a.den : Nat) : Int))

/-- A power in 0.1 W is at most `pc` per cent of an allowance. -/
def Allowance.within (a : Allowance) (p pc : Nat) : Bool := decide (((2000 * p * a.den : Nat) : Int) ≤ a.num * pc)

/-- An allowance in whole watts. -/
def Allowance.watts (a : Allowance) : Nat := (a.num / (200 * a.den : Nat)).toNat

/-! ### Readings (R627 to R629) -/

/-- A reading of nothing. -/
def noReading : Reading := ⟨0, 0, false, 0, 0, 0, [], [], []⟩

/-- The hottest sensor, 0.1 °C. -/
def hottest (r : Reading) : Int :=
  match r.temps with
  | [] => 0
  | x :: t => t.foldl max x

/-- The sensed power with the gain of R627 applied. -/
def PmuDie.sensed (u : PmuDie) (r : Reading) : Int := r.sensed * u.gain / 1000

/-- MEAS is implausible (R629). -/
def PmuDie.implausible (u : PmuDie) (r : Reading) : Bool :=
  let m := u.sensed r
  let same := if m = u.lastMeas then u.same + 1 else 0
  r.fault || decide (m < 0) || decide ((if u.w = 0 then 6000 else 8000) < m) ||
    (decide (64 ≤ same) && decide (u.estRef < 10 * ((r.est : Int) - u.estRef).natAbs)) ||
    decide (u.gain < 800 ∨ 1250 < u.gain) || u.railLost

/-- The readings of an epoch: MEAS, its replacement, the disagreement and P. -/
def Core.power (k : Core) (w : Nat) (r : Reading) : Core :=
  let u := k.unit w
  let raw := u.sensed r
  let bad := u.implausible r
  let meas := if bad then r.est * 125 / 100 else raw.toNat
  let apart := decide (max r.est meas < 4 * ((r.est : Int) - meas).natAbs)
  let na := if apart then u.apart + 1 else 0
  let nc := if apart then 0 else u.close + 1
  let f (m p : Fld) : Nat := k.rd (pick w m p) w 0 0
  let was := f R.M_PMU_EST_STAT_DISAGREE R.PMU_EST_STAT_DISAGREE == 1
  let rise := !was && decide (10000 < na)
  let now := (was && decide (nc < 10000)) || rise
  let u1 := { u with lastMeas := raw, same := if raw = u.lastMeas then u.same + 1 else 0,
                     estRef := if raw = u.lastMeas then u.estRef else r.est, apart := na, close := nc,
                     power := if now then max r.est meas else meas }
  let first := bad && f R.M_PMU_EST_STAT_IMPLAUSIBLE R.PMU_EST_STAT_IMPLAUSIBLE == 0
  let k1 := (((k.putUnit u1).wr (pick w R.M_PMU_POWER_MEAS_DW R.PMU_POWER_MEAS_DW) w 0 0 (min meas 65535)).wr
    (pick w R.M_PMU_POWER_EST_DW R.PMU_POWER_EST_DW) w 0 0 (min r.est 65535)).wr
    (pick w R.M_PMU_EST_STAT_IMPLAUSIBLE R.PMU_EST_STAT_IMPLAUSIBLE) w 0 0 (b2n bad)
  let k2 := k1.wr (pick w R.M_PMU_EST_STAT_DISAGREE R.PMU_EST_STAT_DISAGREE) w 0 0 (b2n now)
  let k3 := if first then k2.raise w (pmuPage w) 1 else k2
  if rise then (k3.bump (pick w R.M_PMU_EST_STAT_DISAGREE_CNT R.PMU_EST_STAT_DISAGREE_CNT) w 0 0 1).raise w (pmuPage w) 0
  else k3

/-- The ageing monitors of a die (R648): 16 of each kind on a port die, 8 on the Meridian die. -/
def monitors (w : Nat) : Nat := if w = 0 then 8 else 16

/-- Show the entries of PMU_MON from `base` on, as many as the die has monitors (R659). -/
def Core.showMonitors (k : Core) (w base : Nat) (vs : List Nat) : Core :=
  (vs.take (monitors w)).zipIdx.foldl (fun k x =>
    k.tw (if w = 0 then T.M_PMU_MON_VALUE else T.PMU_MON_VALUE) w 0 (base + x.2) x.1) k

/-- The monitors' slack as it stands, and the ring oscillators where their second has come (R648). -/
def Core.ageMonitors (k : Core) (w : Nat) (slack : List Nat) (ppm : List Int) : Core :=
  (k.showMonitors w 64 slack).showMonitors w 80 (ppm.map fun x => (BitVec.ofInt 16 x).toNat)

/-- Temperatures and life (R635, R647 TJ_MAX, R652), and the SerDes current (R634). -/
def Core.heat (k : Core) (w : Nat) (r : Reading) : Core :=
  let u := k.unit w
  let t := (hottest r)
  let hot := decide (1100 ≤ t) || (u.hot && decide (1050 ≤ t))
  let ms := k.time.tod / 65536 / 1000000
  let surge := decide (k.rd (pick w R.M_PMU_ILIM_SERDES_A R.PMU_ILIM_SERDES_A) w 0 0 * 10 < r.serdes)
  let u1 := { u with hot, life := u.life + 1, lifeSum := u.lifeSum + t, serdesMs := if surge then ms + 1 else u.serdesMs }
  let put (k : Core) (m p : Fld) (v : Nat) : Core := k.wr (pick w m p) w 0 0 v
  let k1 := put (k.putUnit u1) R.M_PMU_STATUS_TJ_MAX R.PMU_STATUS_TJ_MAX (min 255 (t / 10).toNat)
  let k2 := put k1 R.M_PMU_LIFE_TJ_MAX_DC R.PMU_LIFE_TJ_MAX_DC
    (max (k.rd (pick w R.M_PMU_LIFE_TJ_MAX_DC R.PMU_LIFE_TJ_MAX_DC) w 0 0) (min 4095 t.toNat))
  let k3 := if 1050 < t then put k2 R.M_PMU_LIFE_TJ_PEAK_EXCEEDED R.PMU_LIFE_TJ_PEAK_EXCEEDED 1 else k2
  let k4 := put k3 R.M_PMU_LIFE_TJ_AVG_DC R.PMU_LIFE_TJ_AVG_DC (min 4095 (u1.lifeSum / u1.life).toNat)
  let k5 := put k4 R.M_PMU_LIFE_HOURS R.PMU_LIFE_HOURS (u1.life / 3600000000)
  let k6 := r.temps.zipIdx.foldl (fun k x =>
    k.tw (if w = 0 then T.M_PMU_MON_VALUE else T.PMU_MON_VALUE) w 0 (x.2 % 64) (BitVec.ofInt 16 x.1).toNat) k5
  let k7 := if hot ∧ ¬ u.hot then k6.raise w (pmuPage w) 3 else k6
  if surge ∧ u.serdesMs ≠ ms + 1 then k7.raise w (pmuPage w) 4 else k7

/-! ### Caps (R631, R633) -/

/-- Sum of the newest `n` package powers. -/
def Core.pastPower (k : Core) (n : Nat) : Nat := (k.pmu.history.take n).foldl (· + ·) 0

/-- The sustained cap begins or stops binding on an average (R633). -/
def sustBinds (sum limit : Nat) (was : Bool) (low : Nat) : Bool :=
  decide (limit * 99 ≤ sum * 100) || (was && decide (low < 10000))

/-- Whether the caps would bind if MEAS alone were controlled (R647). -/
def Core.capMeas (k : Core) (rs : List Reading) : Core :=
  let p := k.units.foldl (fun a w => a + ((k.unit w).sensed (rs.getD w noReading)).toNat) 0
  let hist := (p :: k.pmu.measHistory).take 10000000
  let sumOf (n : Nat) : Nat := (hist.take n).foldl (· + ·) 0
  let n := k.rd R.PMU_CAP_SUST_WINDOW_MS 0 0 0 * 1000
  let ws := k.rd R.PMU_CAP_SUST_WATTS 0 0 0 * 10 * n
  let low := if sumOf n * 100 < ws * 97 then k.pmu.measLow + 1 else 0
  { k with pmu := { k.pmu with
      measHistory := hist, measLow := low, measSust := sustBinds (sumOf n) ws k.pmu.measSust low
      measFast := decide (k.rd R.PMU_CAP_FAST_WATTS 0 0 0 * 10 * 100 ≤ sumOf 100) } }

/-- A block event of the governor's page follows its condition: EVT_RAW shows it while it lasts (R82, R657). -/
def Core.govEvent (k : Core) (b : Nat) (on : Bool) : Core :=
  k.onIo fun io => if on then io.raiseLevel k.stamp 0 0x80 b else io.lowerLevel 0 0x80 b

/-- Package power is recorded, the averages shown, and each cap begins or stops binding. -/
def Core.capState (k : Core) : Core :=
  let p := k.units.foldl (fun a w => a + (k.unit w).power) 0
  let k1 := { k with pmu := { k.pmu with history := (p :: k.pmu.history).take 10000000 } }
  let n := k.rd R.PMU_CAP_SUST_WINDOW_MS 0 0 0 * 1000
  let sum := k1.pastPower n
  let fast := k1.pastPower 100
  let ws := k.rd R.PMU_CAP_SUST_WATTS 0 0 0 * 10 * n
  let was := k.rd R.PMU_GOV_STATUS_SUST_BIND 0 0 0 == 1
  let low := if sum * 100 < ws * 97 then k.pmu.sustLow + 1 else 0
  let bind := sustBinds sum ws was low
  let fbind := decide (k.rd R.PMU_CAP_FAST_WATTS 0 0 0 * 10 * 100 ≤ fast)
  let k2 := { k1 with pmu := { k1.pmu with sustLow := low } }
  let k3 := ((k2.wr R.PMU_PKG_PWR_FAST_W 0 0 0 (fast / 1000)).wr R.PMU_PKG_PWR_SUST_W 0 0 0 (sum / (10 * n))).wr
    R.PMU_GOV_STATUS_SUST_BIND 0 0 0 (b2n bind)
  let k4 := k3.wr R.PMU_GOV_STATUS_FAST_BIND 0 0 0 (b2n fbind)
  (k4.govEvent 0 bind).govEvent 1 fbind

/-- The unfenced port dies as R633 sees them. -/
def Core.openDies (k : Core) : List (Nat × Nat × Nat) :=
  (k.dieList.filter fun d => !k.fenced d).map fun d => (d, (k.unit (dw d)).power, k.rd R.PMU_DIE_WEIGHT 0 0 d)

/-- Allowances under a cap in watts, none while it does not bind. -/
def Core.shares (k : Core) (bind watts : Fld) : List Allowance :=
  if k.rd bind 0 0 0 = 0 then []
  else allowances 9 (((200 * k.rd watts 0 0 0 : Nat) : Int) - ((20 * (k.unit 0).power : Nat) : Int)) k.openDies

/-- The allowances of the sustained and the fast cap. -/
def Core.sustShares (k : Core) : List Allowance := k.shares R.PMU_GOV_STATUS_SUST_BIND R.PMU_CAP_SUST_WATTS
/-- The fast cap's. -/
def Core.fastShares (k : Core) : List Allowance := k.shares R.PMU_GOV_STATUS_FAST_BIND R.PMU_CAP_FAST_WATTS

/-- A cap's limit on a die: without an allowance it only falls. -/
def Limit.capped (l : Limit) (a : Option Allowance) (p : Nat) : Limit :=
  match a with
  | some a => l.next 48 (a.isOver p) (a.within p 95)
  | none => l.next 48 false true

/-- The demands of a port die after an epoch. -/
def Core.dieLimits (k : Core) (d : Nat) (r : Reading) (sust fast : List Allowance) : Core :=
  let w := dw d
  let u := k.unit w
  -- when both caps bind, each uses the smaller allowance (R633)
  let (a0, a1) := match sust.find? (·.d == d), fast.find? (·.d == d) with
    | some a, some b => (some (a.smaller b), some (a.smaller b))
    | a, b => (a, b)
  let l (i : Nat) : Limit := u.limits.getD i .zero
  let raw := (u.sensed r).toNat
  let t := (hottest r)
  let limits := [(l 0).capped a0 u.power, (l 1).capped a1 u.power,
    (l 2).against 48 r.core (k.rd R.PMU_ILIM_CORE_A w 0 0 * 10),
    (l 3).against 48 r.sram (k.rd R.PMU_ILIM_SRAM_A w 0 0 * 10),
    (l 4).next 48 (decide (1000 ≤ t)) (decide (t ≤ 980))]
  let alone := [(u.alone.getD 0 .zero).capped a0 raw, (u.alone.getD 1 .zero).capped a1 raw]
  let least := match a0, a1 with
    | some a, some _ => a.watts
    | some a, none => a.watts
    | none, some b => b.watts
    | none, none => 0
  (k.putUnit { u with limits, alone }).wr R.PMU_DIE_ALLOW 0 0 d (if k.fenced d then 0 else least)

/-- The demands of the Meridian die (R636): its thermal and current limits, and a cap while every port die is at 48; `alone` is
what the caps would demand on MEAS alone (R647). -/
def Core.meridianLimits (k : Core) (r : Reading) : Core :=
  let u := k.unit 0
  let l (i : Nat) : Limit := u.limits.getD i .zero
  let floor := (k.dieList.filter fun d => !k.fenced d).all fun d => k.rd R.PMU_STATUS_S (dw d) 0 0 == 48
  let cap (l : Limit) (on : Bool) : Limit := l.next 32 (on && floor) (!on)
  let t := (hottest r)
  k.putUnit { u with
    limits := [cap (l 0) (k.rd R.PMU_GOV_STATUS_SUST_BIND 0 0 0 == 1), cap (l 1) (k.rd R.PMU_GOV_STATUS_FAST_BIND 0 0 0 == 1),
    (l 2).against 32 r.core (k.rd R.M_PMU_ILIM_CORE_A 0 0 0 * 10),
    (l 3).against 32 r.sram (k.rd R.M_PMU_ILIM_SRAM_A 0 0 0 * 10),
    (l 4).next 32 (decide (1000 ≤ t)) (decide (t ≤ 980))],
    alone := [cap (u.alone.getD 0 .zero) k.pmu.measSust, cap (u.alone.getD 1 .zero) k.pmu.measFast] }

/-- The demand of the pin in the epoch that ends, by what was seen of it before that epoch began (R631). -/
def Core.extDemand (k : Core) : Nat := if k.pmu.extAt then k.rd R.PMU_GOV_CFG_EXT_S 0 0 0 else 0

/-- A port die's own demand: the largest of its limits, of R635 and of the pin. -/
def Core.ownDemand (k : Core) (d : Nat) : Nat :=
  let u := k.unit (dw d)
  max (u.limits.foldl (fun a l => max a l.demand) 0) (max (if u.hot then 48 else 0) k.extDemand)

/-! ### Lockstep (R644 to R646) -/

/-- Put a die set into the groups: it merges those it meets. -/
def mergeGroup (gs : List Nat) (m : Nat) : List Nat :=
  ((gs.filter fun g => g &&& m != 0).foldl (· ||| ·) m) :: gs.filter fun g => g &&& m == 0

/-- Number of ones in the low eight bits. -/
def ones8 (m : Nat) : Nat := (List.range 8).countP fun i => bit m i == 1

/-- Port dies that are populated and not fenced, as a mask. -/
def Core.openMask (k : Core) : Nat :=
  (k.dieList.filter fun d => !k.fenced d).foldl (fun m d => m + 2 ^ d) 0

/-- The lockstep groups: die sets of ACTIVE contexts, fenced dies removed, two dies or more, joined through chains. -/
def Core.groups (k : Core) : List Nat :=
  if k.rd R.PMU_GOV_CFG_LOCKSTEP_EN 0 0 0 = 0 then []
  else
    let sets := (List.range 4096).filterMap fun c =>
      if k.ctxActive (c / 512) (c % 512) then some (k.ctx T.FOC_CTX_DIESET (c / 512) (c % 512) &&& k.openMask) else none
    (sets.filter fun m => decide (2 ≤ ones8 m)).foldl mergeGroup []

/-- The group of a die. -/
def lockGroup (gs : List Nat) (d : Nat) : Option Nat := gs.find? fun g => bit g d == 1

/-- The dies that throttle with a die: its group, or itself (R645). -/
def Core.withDie (k : Core) (gs : List Nat) (d : Nat) : List Nat :=
  match lockGroup gs d with
  | some g => k.dieList.filter fun x => bit g x == 1
  | none => [d]

/-- The demand on a die: the largest of its group, or its own (R645). -/
def Core.wantedS (k : Core) (gs : List Nat) (d : Nat) : Nat :=
  (k.withDie gs d).foldl (fun a x => max a (k.ownDemand x)) 0

/-- The least steps, from `n` up to the ones applied, whose clock the rail of a die allows: it is raised before cclk (R640). -/
def Core.railFloor (k : Core) (d n : Nat) : Nat :=
  let w := dw d
  let s := k.rd R.PMU_STATUS_S w 0 0
  (((List.range (s - n)).map (n + ·)).find? fun x =>
    decide (k.setpoint w (cclkMhz (k.unit w).ceiling 0 x) ≤ k.rd R.PMU_VOLT_CORE_MV w 0 0)).getD (max n s)

/-- The steps a die applies: the demand on it, and more while the rail of a die of its group is too low for that clock. DEDUCED
(log 129): a fall of S that would outrun the rail waits for it, and a group waits together (R640, R645). -/
def Core.appliedS (k : Core) (gs : List Nat) (d : Nat) : Nat :=
  let want := k.wantedS gs d
  (k.withDie gs d).foldl (fun a x => max a (k.railFloor x want)) want

/-! ### Boost, application and reasons (R638, R639, R645, R647) -/

/-- The conditions of boost hold in this epoch. -/
def Core.boostOk (k : Core) (gs : List Nat) (d : Nat) (r : Reading) (sust fast : List Allowance) : Bool :=
  let w := dw d
  let u := k.unit w
  let fits (as : List Allowance) : Bool := (as.filter (·.d == d)).all fun a => a.within u.power 90
  k.rd R.PMU_CFG_BOOST_EN w 0 0 == 1 && k.rd R.PMU_GOV_CFG_FIXED 0 0 0 == 0 && decide (14 ≤ k.rd R.PAG_BOOT_PROG_STEP 0 0 0) &&
    k.ownDemand d == 0 && (lockGroup gs d).isNone && decide ((hottest r) ≤ 900) && fits sust && fits fast &&
    decide (r.core ≤ k.rd R.PMU_ILIM_CORE_A w 0 0 * 9) && u.stretch == 0 && !u.drooped &&
    k.rd R.PMU_STATUS_S w 0 0 == 0 && !u.noBoost && u.ceiling == 64

/-- The boost level of the next epoch and how long its conditions have held: one level a millisecond, once the rail is
high enough for it (R638, R640). -/
def Core.nextBoost (k : Core) (d : Nat) (ok : Bool) : Nat × Nat :=
  let w := dw d
  let b := k.rd R.PMU_STATUS_B w 0 0
  let n := (k.unit w).boostRun + 1
  if ¬ ok then (0, 0)
  else if 1000 ≤ n ∧ b < 6 ∧ k.setpoint w (baseMhz 64 (b + 1)) ≤ k.rd R.PMU_VOLT_CORE_MV w 0 0 then (b + 1, 0)
  else (b, n)

/-- Bit r: reason r counts while `s` is applied and `want` is the demand of the group (R647). -/
def Core.reasons (k : Core) (w s own want : Nat) (ext : Bool) : Nat :=
  let u := k.unit w
  let l (i : Nat) : Nat := (u.limits.getD i .zero).demand
  let lower (i : Nat) : Bool := decide ((u.alone.getD i .zero).demand < l i)
  let c0 := l 0 == s
  let c1 := l 1 == s
  if s = 0 then 0
  else
    b2n (c0 && !lower 0) + b2n (c1 && !lower 1) * 2 + b2n (l 2 == s || l 3 == s) * 4 +
      b2n (l 4 == s || (u.hot && s == (if w = 0 then 32 else 48))) * 8 + b2n (decide (own < want)) * 32 + b2n ext * 64 +
      b2n ((c0 && lower 0) || (c1 && lower 1)) * 128

/-- Add to a saturating 64-bit accumulator in two registers. -/
def Core.sat64 (k : Core) (lo hi : Fld) (w i n : Nat) : Core :=
  k.onIo fun io => io.wr64 lo hi w 0 i (min (2 ^ 64 - 1) (io.rd64 lo hi w 0 i + n))

/-- Accumulator `r` gains microseconds. -/
def Core.throttledFor (k : Core) (w r n : Nat) : Core :=
  k.sat64 (pick w R.M_PMU_THR_US_LO R.PMU_THR_US_LO) (pick w R.M_PMU_THR_US_HI R.PMU_THR_US_HI) w r n

/-- Apply steps and boost to a port die for the next epoch. -/
def Core.applyDie (k : Core) (gs : List Nat) (d : Nat) (r : Reading) (sust fast : List Allowance) : Core :=
  let w := dw d
  let s := k.appliedS gs d
  let (b, run) := k.nextBoost d (k.boostOk gs d r sust fast)
  let u := k.unit w
  let mask := k.reasons w s (k.ownDemand d) (k.wantedS gs d) (k.extDemand == s)
  let k1 := ((((k.noteStalls d).putUnit { u with
      boostRun := run, drooped := u.stretch != 0, want := k.wantedS gs d }).wr R.PMU_STATUS_S w 0 0 s).wr
    R.PMU_STATUS_B w 0 0 b).wr
    R.PMU_FREQ_MHZ w 0 0 (cclkMhz u.ceiling b s)
  let k2 := k1.wr R.PMU_STATUS_REASONS w 0 0 (mask + b2n (u.stretch != 0) * 16)
  let k3 := (List.range 8).foldl (fun k i => if bit mask i = 1 then k.throttledFor w i 1 else k) k2
  let k4 := if 0 < s then k3.count w 8 0 0 1 else k3
  if u.ceiling < 64 then k4.sat64 R.PMU_AGE_CEIL_US_LO R.PMU_AGE_CEIL_US_HI w 0 1 else k4

/-- Apply K to the Meridian die (R636, R647). -/
def Core.applyMeridian (k : Core) : Core :=
  let u := k.unit 0
  let s := max (u.limits.foldl (fun a l => max a l.demand) 0) (if u.hot then 32 else 0)
  let mask := k.reasons 0 s s s false
  let k1 := (k.wr R.M_PMU_STATUS_S 0 0 0 s).wr R.M_PMU_STATUS_REASONS 0 0 0 mask
  let k2 := (List.range 8).foldl (fun k i => if bit mask i = 1 then k.throttledFor 0 i 1 else k) k1
  let k3 := if 0 < s then k2.count 0 8 0 0 1 else k2
  if u.ceiling < 64 then k3.sat64 R.M_PMU_AGE_CEIL_US_LO R.M_PMU_AGE_CEIL_US_HI 0 0 1 else k3

/-! ### Droop (R642, R643) -/

/-- Account the stretch of a die up to now: ns carried into accumulator 4, the stretched periods of class 8, and the event
of a millisecond with more than 10 µs. -/
def Core.stretched (k : Core) (d : Nat) : Core :=
  let w := dw d
  let u := k.unit w
  if u.stretch = 0 then k
  else
    let ns := k.time.now + 1 - u.stretch
    let idx := (k.time.tod - 1) / 65536 / 1000000
    let ms := (if idx = u.msIndex then u.msNs else 0) + ns
    let raised := decide (idx = u.msIndex) && u.msRaised
    let k1 := k.putUnit { u with stretch := k.time.now + 1, inEpoch := u.inEpoch + ns,
                                 stretchNs := (u.stretchNs + ns) % 1000, msNs := ms,
                                 msIndex := idx, msRaised := raised || decide (10000 < ms) }
    let k2 := (k1.throttledFor w 4 ((u.stretchNs + ns) / 1000)).count w 8 1 0 (ns * k.cclkUnits d * 2 / 12288000)
    if ¬ raised ∧ 10000 < ms then k2.raise w (pmuPage w) 2 else k2

/-- DROOP_DETECT (R642). -/
def execDroopDetect (d : Fin 8) (s : State) : Host.Outcome State Fault Refusal :=
  done (s.onCore fun k =>
    let u := k.unit (dw d.val)
    if k.populated d.val ∧ u.stretch = 0 then
      ((k.noteStalls d.val).putUnit { u with stretch := k.time.now + 1, drooped := true }).wr R.PMU_STATUS_REASONS (dw d.val) 0 0
        (k.rd R.PMU_STATUS_REASONS (dw d.val) 0 0 ||| 16)
    else k)

/-- DROOP_STRETCH_END (R642, R643). -/
def execDroopStretchEnd (d : Fin 8) (s : State) : Host.Outcome State Fault Refusal :=
  done (s.onCore fun k =>
    let k1 := k.stretched d.val
    let mask := k.rd R.PMU_STATUS_REASONS (dw d.val) 0 0
    ((k1.noteStalls d.val).putUnit { k1.unit (dw d.val) with stretch := 0 }).wr R.PMU_STATUS_REASONS (dw d.val) 0 0
      (mask - (mask &&& 16)))

/-! ### The epoch -/

/-- How far ahead the next start of an epoch lies, a whole microsecond of time of day, in 2^-16 ns (R626). -/
def Core.epochAhead (k : Core) : Nat :=
  let part := k.time.tod % 65536000
  if part = 0 ∧ k.time.flow ≠ k.pmu.epochFlow then 0 else 65536000 - part

/-- The clock stands at the start of the next epoch (R626). -/
def Core.toEpoch (k : Core) : Core :=
  let k1 := k.pass k.epochAhead
  { k1 with pmu := { k1.pmu with epochFlow := k1.time.flow } }

/-- The clock of a window without stretch, in 4,096ths of a MHz: cclk of a port die, fclk of the Meridian die (R16, R39). -/
def Core.clockUnitsOf (k : Core) (w : Nat) : Nat := if w = 0 then 2200 * 4096 else k.cclkUnits (w - 1)

/-- The general counters' class 0 and HOLDOVER events over an epoch that began when `from'` of follower time had elapsed: clock
cycles at the rate in force, the lengthened periods of a stretch among them, and microseconds (R753, R755). -/
def Core.epochCounts (k : Core) (from' : Nat) : Core :=
  let held := k.rd R.STB_STATUS_TOD_STATE 0 0 0 == 3 || k.rd R.STB_STATUS_CYC_STATE 0 0 0 == 3
  let k1 := if held then k.count 0 11 2 0 1 else k
  k1.units.foldl (fun k w =>
    let u := k.unit w
    let f := k.clockUnitsOf w
    let cycles := k.time.flow * f / 268435456000 - from' * f / 268435456000 - u.inEpoch * f / 12288000
    ((k.putUnit { u with inEpoch := 0 }).count w 0 0 0 cycles).count w 0 1 0 (k.time.flow / 65536000 - from' / 65536000)) k1

/-- PMU_EPOCH: an epoch ends with these readings, by window, and the next begins with what they decide (R626 to R639,
R644 to R647). The clock is brought to the whole microsecond where it does. -/
def Core.epochEnd (k' : Core) (rs : List Reading) : Core :=
  let k0 := k'.toEpoch
  let k := (k0.dieList.foldl Core.stretched k0).epochCounts k'.pmu.epochFlow
  let r (w : Nat) : Reading := rs.getD w noReading
  let second := k.time.now / 1000000000
  let ring (ps : List Int) : List Int := if second = k.pmu.ringAt then [] else ps
  let k1 := k.units.foldl (fun k w => ((k.power w (r w)).heat w (r w)).ageMonitors w (r w).slack (ring (r w).ppm)) k
  let k2 := k1.capState.capMeas rs
  let sust := k2.sustShares
  let fast := k2.fastShares
  let k3 := k2.dieList.foldl (fun k d => k.dieLimits d (r (dw d)) sust fast) k2
  let k4 := k3.meridianLimits (r 0)
  let gs := k4.groups
  let k5 := k4.wr R.PMU_GOV_STATUS_LOCK_DIES 0 0 0 (gs.foldl (· + ·) 0)
  let k6 := (k5.dieList.foldl (fun k d => k.applyDie gs d (r (dw d)) sust fast) k5).applyMeridian
  { k6 with pmu := { k6.pmu with extAt := k6.pmu.ext, ringAt := second } }

/-- The thermal trip (R679, R685): THERM_TRIP_N asserts, the trip is recorded in fuse-backed state, the clocks stop. -/
def State.trip (s : State) : State :=
  if ¬ s.core.live then s
  else
    let k := (s.core.wr R.PAG_PINS_TRIP 0 0 0 1).emit (.pin "THERM_TRIP_N" true)
    { s with fuse := { s.fuse with trip := true }, core := { k with pack := { k.pack with tripped := true, hostUp := false } } }

/-- PMU_EPOCH. A sensor of any die at 120 °C or above trips the part (R679). -/
def execPmuEpoch (readings : List Reading) (s : State) : Host.Outcome State Fault Refusal :=
  let s1 := s.onCore fun k => k.epochEnd readings
  done (if s.core.units.any fun w => decide (1200 ≤ hottest (readings.getD w noReading)) then s1.trip else s1)

/-- EXT_THROT_N as filtered (R631, R677). -/
def Core.extPin (k : Core) (on : Bool) : Core :=
  let k1 := { k with pmu := { k.pmu with ext := on } }.wr R.PMU_GOV_STATUS_EXT 0 0 0 (b2n on)
  k1.govEvent 2 on

/-- The pin EXT_THROT_N changes: its level is the board's also while the part does not run, and acts from step 3 (R692, R695). -/
def State.extThrot (s : State) (on : Bool) : State :=
  let k := { s.core with pack := { s.core.pack with ext := on } }.wr R.PAG_PINS_EXT_THROT 0 0 0 (b2n on)
  { s with core := if k.live ∧ 3 ≤ k.rd R.PAG_BOOT_PROG_STEP 0 0 0 then k.extPin on else k }

/-- EXT_THROT_ASSERT. -/
def execExtThrotAssert (s : State) : Host.Outcome State Fault Refusal := done (s.extThrot true)

/-- EXT_THROT_DEASSERT. -/
def execExtThrotDeassert (s : State) : Host.Outcome State Fault Refusal := done (s.extThrot false)

/-! ### The core rail and PMBus (R640, R641, R627, R674) -/

/-- The setpoint a die's rail moves toward: that of the clock in force, or of the higher clock that is wanted next, fewer
steps or a boost level more, so that the voltage is there before the clock rises (R640, log 129). -/
def Core.railTarget (k : Core) (w : Nat) : Nat :=
  let u := k.unit w
  if k.margin w < 0 then 850
  else if w = 0 then k.setpoint 0 1750
  else
    let b := k.rd R.PMU_STATUS_B w 0 0
    let up := if 1000 ≤ u.boostRun ∧ b < 6 then b + 1 else b
    k.setpoint w (cclkMhz u.ceiling up (min u.want (k.rd R.PMU_STATUS_S w 0 0)))

/-- VOLTAGE_STEP (R640): one step of at most 10 mV. -/
def execVoltageStep (w : Fin 9) (s : State) : Host.Outcome State Fault Refusal :=
  done (s.onCore fun k =>
    let f := pick w.val R.M_PMU_VOLT_CORE_MV R.PMU_VOLT_CORE_MV
    let v := k.rd f w.val 0 0
    let t := k.railTarget w.val
    if (k.unit w.val).trimmed then k.wr f w.val 0 0 (if v < t then min t (v + 10) else max t (v - 10)) else k)

/-- RAIL, DIE and SETTABLE of a board-description entry (R673). -/
def brdRail (e : Nat) : Nat := bits e 48 45
/-- DIE, as a window. -/
def brdWin (e : Nat) : Nat := if bits e 44 41 = 8 then 0 else bits e 44 41 + 1
/-- SETTABLE. -/
def brdSettable (e : Nat) : Bool := bit e 32 == 1

/-- One regulator's read: its values, or a miss, the third in a row of which is a fault (R641). -/
def Core.regRead (k : Core) (i : Nat) (r : Option (BitVec 16 × BitVec 16)) : Core :=
  match r with
  | some (mv, da) => { k with pmu := { k.pmu with
      missed := k.pmu.missed.set i 0, rails := k.pmu.rails.set i (mv.toNat * 65536 + da.toNat + 1) } }
  | none =>
    let n := k.pmu.missed.get i + 1
    let k1 := { k with pmu := { k.pmu with missed := k.pmu.missed.set i (min n 3) } }
    if n = 3 then k1.raise 0 0x80 3 else k1

/-- A die's rails are lost while a regulator of them has missed three reads. -/
def Core.railsSeen (k : Core) : Core :=
  k.units.foldl (fun k w => k.putUnit { k.unit w with
    railLost := k.pmu.board.zipIdx.any fun x => brdWin x.1 == w && k.pmu.missed.get x.2 == 3 }) k

/-- PMBUS_POLL (R641): what each regulator of the board description answered, voltage in mV and current in 0.1 A. -/
def execPmbusPoll (reads : List (Option (BitVec 16 × BitVec 16))) (s : State) : Host.Outcome State Fault Refusal :=
  done (s.onCore fun k =>
    ((List.range k.pmu.board.length).foldl (fun k i => k.regRead i (reads.getD i none)) k).railsSeen)

/-- SENSE_GAIN_CORRECT (R627): the gain becomes the PMBus current of the die's own rails over the sensed one, 0.1 A. Of a
die whose core rail no regulator sets, the fused gain stays (R674). -/
def execSenseGainCorrect (w : Fin 9) (sensed : Nat) (s : State) : Host.Outcome State Fault Refusal :=
  done (s.onCore fun k =>
    let mine := k.pmu.board.zipIdx.filter fun x => brdWin x.1 == w.val
    let sum := mine.foldl (fun a x => a + (k.pmu.rails.get x.2 - 1) % 65536) 0
    if mine.isEmpty ∨ sensed = 0 ∨ ¬ (k.unit w.val).trimmed then k
    else k.putUnit { k.unit w.val with gain := sum * 1000 / sensed })

/-! ### Ageing (R648 to R654, R656) -/

/-- An entry of the ageing record (R653). -/
structure AgeEntry where
  quarter : Nat
  die : Nat
  flags : Nat
  hours : Nat
  avg : Nat
  max' : Nat
  trim : Nat
  margin : Nat
  slack : Nat
  ppm : Nat
  lane : Nat
  eye : Nat
  degraded : Nat
  thr : List Nat

/-- The DIE code of a window. -/
def dieCode (w : Nat) : Nat := if w = 0 then 8 else w - 1

/-- An entry's 64 bytes. -/
def AgeEntry.bytes (e : AgeEntry) : List Byte :=
  leOf e.quarter 2 ++ leOf e.die 1 ++ leOf e.flags 1 ++ leOf e.hours 4 ++ leOf e.avg 2 ++ leOf e.max' 2 ++ leOf e.trim 2 ++
    leOf e.margin 2 ++ leOf e.slack 2 ++ leOf e.ppm 2 ++ leOf e.lane 2 ++ leOf e.eye 2 ++ leOf e.degraded 1 ++ leOf 0 7 ++
    (List.range 8).flatMap fun i => leOf (e.thr.getD i 0) 4

/-- Read an entry. -/
def ageEntryOf (b : List Byte) : AgeEntry :=
  ⟨leAt b 0 2, leAt b 2 1, leAt b 3 1, leAt b 4 4, leAt b 8 2, leAt b 10 2, leAt b 12 2, leAt b 14 2, leAt b 16 2, leAt b 18 2,
   leAt b 20 2, leAt b 22 2, leAt b 24 1, (List.range 8).map fun i => leAt b (32 + 4 * i) 4⟩

/-- The ageing record in flash, none when it is absent or its header is wrong. -/
def readAge (f : SMap) : Option (List AgeEntry) :=
  match readRecord f ageSlot with
  | some b =>
    if leAt b 0 4 = 0x47414D4E ∧ leAt b 4 2 = 1 ∧ leAt b 8 4 ≤ 4096 ∧ b.length = 80 + 64 * leAt b 8 4 then
      some ((List.range (leAt b 8 4)).map fun i => ageEntryOf ((b.drop (16 + 64 * i)).take 64))
    else none
  | none => none

/-- Write the ageing record. -/
def writeAge (f : SMap) (es : List AgeEntry) : SMap :=
  writeRecord f ageSlot (withDigest (leOf 0x47414D4E 4 ++ leOf 1 2 ++ leOf 0 2 ++ leOf es.length 4 ++ leOf 0 4 ++
    es.flatMap AgeEntry.bytes))

/-- Append an entry; a full record first drops its oldest quarter. -/
def ageAppend (es : List AgeEntry) (e : AgeEntry) : List AgeEntry :=
  match es with
  | [] => [e]
  | x :: _ => (if es.length < 4096 then es else es.filter fun y => y.quarter != x.quarter) ++ [e]

/-- Accumulator `r` of R647. -/
def Core.throttle (k : Core) (w r : Nat) : Nat :=
  k.rd64 (pick w R.M_PMU_THR_US_LO R.PMU_THR_US_LO) (pick w R.M_PMU_THR_US_HI R.PMU_THR_US_HI) w 0 r

/-- The life fields of a window's entry now (R652). -/
def Core.lifeOf (k : Core) (w : Nat) (e : AgeEntry) : AgeEntry :=
  let f (m p : Fld) : Nat := k.rd (pick w m p) w 0 0
  { e with
    flags := e.flags ||| f R.M_PMU_LIFE_TJ_PEAK_EXCEEDED R.PMU_LIFE_TJ_PEAK_EXCEEDED
    hours := f R.M_PMU_LIFE_HOURS R.PMU_LIFE_HOURS
    avg := f R.M_PMU_LIFE_TJ_AVG_DC R.PMU_LIFE_TJ_AVG_DC
    max' := f R.M_PMU_LIFE_TJ_MAX_DC R.PMU_LIFE_TJ_MAX_DC }

/-- The seconds each reason has throttled a window in the quarter that runs (R653). -/
def Core.quarterThr (k : Core) (w : Nat) : List Nat :=
  (List.range 8).map fun r => (k.throttle w r - (k.unit w).base.getD r 0) / 1000000

/-- Slices of a port die marked DEGRADED (R555). -/
def Core.degraded (k : Core) (w : Nat) : Nat :=
  if w = 0 then 0 else (List.range 256).countP fun l => k.rd R.LAN_LANE_STAT_DEGRADED w (l / 8) (l % 8) == 1

/-- A window's entry for the quarter named, from what a measurement read. -/
def Core.ageEntry (k : Core) (w flags quarter : Nat) (a : AgeReading) : AgeEntry :=
  let eye := k.link.worst.get (w - 1)
  let seen := w ≠ 0 ∧ eye ≠ 0
  k.lifeOf w ⟨quarter, dieCode w, flags ||| b2n (decide ((k.unit w).ceiling < 64)) * 4, 0, 0, 0, k.trim w, (BitVec.ofInt 16 (k.margin w)).toNat, (least' a.slack) % 65536,
    (BitVec.ofInt 16 (a.ppm.headD 0)).toNat, if seen then (eye - 1) / 1024 else 0, if seen then (eye - 1) % 1024 else 0,
    k.degraded w, k.quarterThr w⟩
where
  /-- The least of a list, 0 for none. -/
  least' : List Nat → Nat
    | [] => 0
    | x :: t => t.foldl min x

/-- Measure one die (R649): its monitors are shown, TRIM may rise, its margin applies, and a new quarter begins. -/
def Core.measureDie (k : Core) (w : Nat) (a : AgeReading) : Core :=
  let k2 := k.ageMonitors w a.slack a.ppm
  let want := match a.slack with
    | [] => 0
    | x :: t => (Config.trimFor w (t.foldl min x) + 1) / 2 * 2
  let f (m p : Fld) : Fld := pick w m p
  let q := k.rd (f R.M_PMU_AGE_STAT_QUARTERS R.PMU_AGE_STAT_QUARTERS) w 0 0 + 1
  let k3 := ((k2.wr (f R.M_PMU_VOLT_TRIM_MV R.PMU_VOLT_TRIM_MV) w 0 0 (max (k.trim w) want)).applyMargin w).wr
    (f R.M_PMU_AGE_STAT_QUARTERS R.PMU_AGE_STAT_QUARTERS) w 0 0 q
  let k4 := k3.wr (f R.M_PMU_AGE_LAST R.PMU_AGE_LAST) w 0 0 (k.rd (f R.M_PMU_LIFE_HOURS R.PMU_LIFE_HOURS) w 0 0)
  let cmd := f R.M_PMU_AGE_CMD R.PMU_AGE_CMD
  if k.rd cmd w 0 0 = 1 then k4.wr cmd w 0 0 2 else k4

/-- An ageing measurement of every die: measured, then one entry each is appended and the quarter's counts begin anew. -/
def State.measureAge (s : State) (as : List AgeReading) : State :=
  let a (w : Nat) : AgeReading := as.getD w ⟨[], []⟩
  let k := s.core.units.foldl (fun k w => k.measureDie w (a w)) s.core
  let q (w : Nat) : Nat := k.rd (pick w R.M_PMU_AGE_STAT_QUARTERS R.PMU_AGE_STAT_QUARTERS) w 0 0
  let es := k.units.foldl (fun es w => ageAppend es (k.ageEntry w 0 (q w) (a w))) ((readAge s.flash).getD [])
  let k1 := k.units.foldl (fun k w => k.putUnit { k.unit w with base := (List.range 8).map (k.throttle w) }) k
  { s with flash := writeAge s.flash es, core := { k1 with
      pmu := { k1.pmu with lifeAt := k1.time.now, retryAt := 0 }, link := { k1.link with worst := [] } } }

/-- Firmware runs (MBX_MP_STATUS.STATE 1). -/
def Core.firmware (k : Core) : Bool := k.live && k.rd R.MBX_MP_STATUS_STATE 0 0 0 == 1

/-- AGEING_MEASURE (R649): 2,160 powered hours have passed since the last, or a measurement was asked for. -/
def execAgeingMeasure (readings : List AgeReading) (s : State) : Host.Outcome State Fault Refusal :=
  let k := s.core
  let due := k.units.any fun w =>
    decide (k.rd (pick w R.M_PMU_AGE_LAST R.PMU_AGE_LAST) w 0 0 + 2160 ≤
      k.rd (pick w R.M_PMU_LIFE_HOURS R.PMU_LIFE_HOURS) w 0 0) ||
    k.rd (pick w R.M_PMU_AGE_CMD R.PMU_AGE_CMD) w 0 0 == 1
  done (if k.firmware ∧ due ∧ k.pmu.retryAt = 0 then s.measureAge readings else s)

/-- AGE_MEASURE_CMD (R659): a write of 1 asks for a measurement; 3 is a reserved encoding. -/
def execAgeMeasureCmd (m : Master) (w : Fin 9) (s : State) : Host.Outcome State Fault Refusal :=
  let page := if w.val = 0 then 0x82 else 0xC9
  done (s.write m w.val page 0x108 fun k => k.wr (pick w.val R.M_PMU_AGE_CMD R.PMU_AGE_CMD) w.val 0 0 1)

/-- AGE_MEASURE_RETRY (R656): an hour after firmware restarted. -/
def execAgeMeasureRetry (readings : List AgeReading) (s : State) : Host.Outcome State Fault Refusal :=
  let k := s.core
  done (if k.firmware ∧ k.pmu.retryAt ≠ 0 ∧ k.pmu.retryAt ≤ k.time.now + 1 then s.measureAge readings else s)

/-- Update the latest entry of each die with its life. -/
def Core.lifeEntries (k : Core) : List AgeEntry → List AgeEntry
  | [] => []
  | e :: t =>
    let w := if e.die = 8 then 0 else e.die + 1
    (if t.any fun x => x.die == e.die then e else k.lifeOf w e) :: k.lifeEntries t

/-- LIFE_RECORD_WRITE (R652): every 24 hours the life accounting goes to the ageing record. -/
def execLifeRecordWrite (s : State) : Host.Outcome State Fault Refusal :=
  let k := s.core
  done (if k.firmware ∧ k.pmu.lifeAt + 86400000000000 ≤ k.time.now then
    match readAge s.flash with
    | some es => { s with flash := writeAge s.flash (k.lifeEntries es),
                          core := { k with pmu := { k.pmu with lifeAt := k.time.now } } }
    | none => s
  else s)

end Sys2Proof.Machine
end

