-- ==== Sys2Proof/Machine/MboxOps.lean ====
section
/-!
DEFINITION. The mailbox channels (R732 to R736), the form of requests and replies (R737 to R739) and the table of services
(R740): what every service shares.
-/
namespace Sys2Proof.Machine

/-! ### Channels -/

/-- STATE of a channel (R734). -/
def Core.mbxState (k : Core) (ch : Nat) : Nat := k.rd R.MBX_STATUS_STATE 0 ch 0

/-- Put a channel in a state. -/
def Core.mbxTo (k : Core) (ch st : Nat) : Core := k.wr R.MBX_STATUS_STATE 0 ch 0 st

/-- Request word `j` of a channel. -/
def Core.req (k : Core) (ch j : Nat) : Nat := k.rd R.MBX_REQ 0 ch j

/-- Clear a channel's reply words. -/
def Core.clearReply (k : Core) (ch : Nat) : Core := (List.range 16).foldl (fun k j => k.wr R.MBX_RSP 0 ch j 0) k

/-- The MP's doorbell: some channel is POSTED (R736). -/
def Core.doorbell (k : Core) : Bool := (List.range 13).any fun ch => k.mbxState ch == 1

/-- The channel firmware takes next: round robin from the one after the last taken, among those that are POSTED (R736). -/
def Core.nextChannel (k : Core) : Option Nat :=
  ((List.range 13).map fun i => (k.mbx.lastTaken + i) % 13).find? fun ch => k.mbxState ch == 1

/-- A firmware record of the Almanac (R747). -/
def Core.almRecord (k : Core) (kind bts : Nat) (data : List Nat) : Core :=
  k.onIo (·.almAppend k.stamp 0xFFFF kind bts data)

/-- A reset of a channel's sender (R735). -/
def Core.senderReset (k : Core) (ch : Nat) : Core :=
  let st := k.mbxState ch
  if st = 1 then k.mbxTo ch 5
  else if st = 2 then { k with mbx := { k.mbx with orphans := ch :: k.mbx.orphans.filter (· != ch) } }
  else if st = 3 ∨ st = 4 then k.mbxTo ch 0
  else k

/-- An MP reset as a channel sees it (R735): a request posted or taken is abandoned, its reply words discarded. -/
def Core.mpAbandon (k : Core) (ch : Nat) : Core :=
  if k.mbxState ch = 1 ∨ k.mbxState ch = 2 then ((k.clearReply ch).mbxTo ch 4).raise 0 (0xB0 + ch) 1 else k

/-- Forget what firmware was doing for the channels. -/
def Core.mpForget (k : Core) : Core := { k with mbx := { k.mbx with
  orphans := [], replied := [], change := none, running := none } }

/-! ### Requests and replies -/

/-- A reply: STATUS and the words from MBX_RSP[1] on. -/
structure Reply where
  status : Nat
  words : List Nat

/-- Firmware writes a reply while the channel is TAKEN; the reply of an orphaned request is discarded (R735, R737). -/
def Core.reply (k : Core) (ch : Nat) (r : Reply) : Core :=
  let k1 := { k with mbx := { k.mbx with
    replied := ch :: k.mbx.replied.filter (· != ch)
    running := k.mbx.running.filter (· != ch)
    status := k.mbx.status.set ch r.status } }
  if k.mbx.orphans.contains ch then k1
  else
    let k2 := k1.wr R.MBX_RSP 0 ch 0 (k.req ch 0 / 256 * 256 + r.status)
    (List.range 15).foldl (fun k j => k.wr R.MBX_RSP 0 ch (j + 1) (r.words.getD j 0)) k2

/-- DONE (R735): the reply stands and the reply-ready event asserts, or an orphaned channel falls idle. A kind-2 record
goes to the Almanac (R747). -/
def Core.finish (k : Core) (ch : Nat) : Core :=
  let w0 := k.req ch 0
  let k1 := k.almRecord 2 (bits w0 31 16 * 65536 + k.mbx.status.get ch % 256 * 256 + ch) []
  let k2 := { k1 with mbx := { k1.mbx with
    orphans := k1.mbx.orphans.filter (· != ch), replied := k1.mbx.replied.filter (· != ch)
    running := k1.mbx.running.filter (· != ch) } }
  if k.mbx.orphans.contains ch then (k2.clearReply ch).mbxTo ch 0
  else (k2.mbxTo ch 3).raise 0 (0xB0 + ch) 0

/-- The host buffer of a request (R738): address and length. -/
def Core.bufAddr (k : Core) (ch : Nat) : Nat := k.req ch 2 * 2 ^ 32 + k.req ch 1
/-- Bytes of the host buffer. -/
def Core.bufLen (k : Core) (ch : Nat) : Nat := k.req ch 3

/-- What firmware gets when it reads the buffer: `buf` is what the host memory returned, none when the transfer failed. -/
def Core.bufIn (k : Core) (ch : Nat) (buf : Option (List Byte)) : Option (List Byte) :=
  match buf with
  | some b => if k.bufLen ch ≤ b.length then some (b.take (k.bufLen ch)) else none
  | none => none

/-- Firmware writes the buffer under the sender's requester ID. -/
def Core.bufOut (k : Core) (ch : Nat) (b : List Byte) : Core := k.emit (.dma (senderId ch) (k.bufAddr ch) b)

/-- A refusal with a reason and a further word. -/
def refusal (reason more : Nat) : Reply := ⟨2, [reason, more]⟩

/-! ### The services (R740, R741) -/

/-- A service command: code, command, LEN where it is fixed, channels, group F. -/
structure Service where
  code : Nat
  cmd : Nat
  len : Nat
  channels : List Nat
  group : Bool

/-- Channel sets. -/
def chAll : List Nat := List.range 13
/-- PF0 and the debug port. -/
def chPf0Debug : List Nat := [0, 12]
/-- The four PFs and the debug port. -/
def chHost : List Nat := [0, 1, 2, 3, 12]
/-- PF0. -/
def chPf0 : List Nat := [0]

/-- R740, with the lengths R741 and R742 give. -/
def svcStart : Service := ⟨0x01, 1, 0, chAll, false⟩
/-- Sensors READ. -/
def svcRead : Service := ⟨0x02, 1, 1, chAll, false⟩
/-- Sensors LOG_CFG. -/
def svcLogCfg : Service := ⟨0x02, 2, 1, chAll, false⟩
/-- Program change LOAD. -/
def svcLoad : Service := ⟨0x10, 1, 5, chPf0Debug, true⟩
/-- Program change RESTORE. -/
def svcRestore : Service := ⟨0x10, 2, 1, chPf0Debug, true⟩
/-- Repair map READ. -/
def svcMapRead : Service := ⟨0x11, 1, 3, chPf0Debug, true⟩
/-- Repair map ADD. -/
def svcMapAdd : Service := ⟨0x11, 2, 3, chPf0Debug, true⟩
/-- Repair map REMOVE. -/
def svcMapRemove : Service := ⟨0x11, 3, 1, chPf0Debug, true⟩
/-- Quote. -/
def svcQuote : Service := ⟨0x20, 1, 3, chHost, false⟩
/-- Certificate GET. -/
def svcCert : Service := ⟨0x21, 1, 3, chHost, false⟩
/-- Owner key ADD. -/
def svcKeyAdd : Service := ⟨0x22, 1, 3, chPf0, true⟩
/-- Owner key REVOKE. -/
def svcKeyRevoke : Service := ⟨0x22, 2, 1, chPf0, true⟩
/-- Rollback COMMIT. -/
def svcCommit : Service := ⟨0x23, 1, 1, chPf0, true⟩
/-- Fuse lock MATRIX. -/
def svcMatrix : Service := ⟨0x24, 1, 3, chPf0, true⟩
/-- Fuse lock DEBUG_OFF. -/
def svcDebugOff : Service := ⟨0x24, 2, 3, chPf0, true⟩
/-- Fuse lock BOTH. -/
def svcBoth : Service := ⟨0x24, 3, 3, chPf0, true⟩
/-- Update STAGE. -/
def svcStage : Service := ⟨0x25, 1, 4, chPf0, true⟩
/-- Update APPLY. -/
def svcApply : Service := ⟨0x25, 2, 0, chPf0, true⟩
/-- Confirm. -/
def svcConfirm : Service := ⟨0x26, 1, 0, chPf0, true⟩
/-- Board description WRITE. -/
def svcBoard : Service := ⟨0x27, 1, 3, chPf0, true⟩
/-- Recovery STAGE. -/
def svcRecStage : Service := ⟨0x28, 1, 3, chPf0, true⟩
/-- Recovery WRITE. -/
def svcRecWrite : Service := ⟨0x28, 2, 0, chPf0, true⟩

/-- All services with a stated layout. -/
def services : List Service :=
  [svcStart, svcRead, svcLogCfg, svcLoad, svcRestore, svcMapRead, svcMapAdd, svcMapRemove, svcQuote, svcCert, svcKeyAdd,
   svcKeyRevoke, svcCommit, svcMatrix, svcDebugOff, svcBoth, svcStage, svcApply, svcConfirm, svcBoard, svcRecStage,
   svcRecWrite]

/-- The request on a channel names the service and command. -/
def Core.asks (k : Core) (ch : Nat) (sv : Service) : Bool :=
  decide (bits (k.req ch 0) 31 24 = sv.code ∧ bits (k.req ch 0) 23 16 = sv.cmd)

/-- Firmware cannot offer the service now (status 7): the recovery service runs only in recovery and no other does;
program change waits for the end of the start; R619 turns away program loads and changes of the repair map. -/
def Core.unready (k : Core) (sv : Service) : Bool :=
  let rec' := decide (k.rd R.MBX_MP_STATUS_STATE 0 0 0 = 2)
  (rec' != decide (sv.code = 0x28)) ||
    (decide (sv.code = 0x10) && decide (k.rd R.PAG_BOOT_PROG_STEP 0 0 0 < 14)) ||
    (!k.regionOn 0 && (decide (sv.code = 0x10 ∧ sv.cmd = 1) || decide (sv.code = 0x11 ∧ sv.cmd ≠ 1)))

/-- The status a request gets before its service runs, none when it runs (R739, R740): a bad form, a channel without the
service, a service that is not ready, and a group-F service while another channel's runs or a program change is in progress, in that order. -/
def Core.screen (k : Core) (ch : Nat) (sv : Service) : Option Nat :=
  if bits (k.req ch 0) 7 5 ≠ 0 ∨ bits (k.req ch 0) 4 0 ≠ sv.len then some 3
  else if ch ∉ sv.channels then some 4
  else if k.unready sv then some 7
  else if sv.group ∧ (k.mbx.change.isSome ∨ k.mbx.running.any (· != ch)) then some 1
  else none

/-- Firmware takes a request of group F that it will carry out: until its reply it is the one that runs (R740). -/
def Core.begin' (k : Core) (ch : Nat) : Core :=
  if k.mbx.running.isNone ∧ services.any fun sv => sv.group && k.asks ch sv && (k.screen ch sv).isNone then
    { k with mbx := { k.mbx with running := some ch } }
  else k

/-- Firmware works on the channel's request: it is TAKEN, names the service, has no reply yet and is not the program
change in progress; and firmware, or the boot ROM in recovery, runs. -/
def Core.working (k : Core) (ch : Nat) (sv : Service) : Bool :=
  k.live && decide (k.mbxState ch = 2) && k.asks ch sv && !k.mbx.replied.contains ch &&
    !(k.mbx.change.any fun c => c.ch == ch) &&
    decide (k.rd R.MBX_MP_STATUS_STATE 0 0 0 = 1 ∨ k.rd R.MBX_MP_STATUS_STATE 0 0 0 = 2)

/-- Reply over the whole state. -/
def State.reply (s : State) (ch : Nat) (r : Reply) : State := { s with core := s.core.reply ch r }

/-- Run a service on a channel's request: `f` gives the state and the reply, none when the reply comes later. -/
def State.serve (s : State) (ch : Nat) (sv : Service) (f : State → State × Option Reply) : State :=
  if ¬ s.core.working ch sv then s
  else match s.core.screen ch sv with
    | some st => s.reply ch ⟨st, []⟩
    | none => match f s with
      | (s1, some r) => s1.reply ch r
      | (s1, none) => s1

end Sys2Proof.Machine
end

