-- ==== Sys2Proof/Machine/Program.lean ====
section
/-!
DEFINITION. Programs: the Bapel image and its checks (R178 to R181, R778), the program-change service (R174 to R177,
R184, R719), epoch flips (R171) and the old-half-idle event.
-/
namespace Sys2Proof.Machine

/-! ### The word rules of R181 -/

/-- The destination of ALU `j` of a word, when that ALU writes (R199). -/
def aluBad (w j : Nat) : Bool :=
  let a := aluField w j
  decide (a.op ≠ 0 ∧ a.mode ≠ 3 ∧ (a.cont = 63 ∨ (57 ≤ a.cont ∧ a.cont ≤ 61)))

/-- Containers first, first + 1, … run past 63 or meet a container that EDIT may not write (R199, R218). -/
def rangeBad (first n : Nat) : Bool :=
  decide (64 < first + n) || (List.range n).any fun i => decide (first + i = 63 ∨ (57 ≤ first + i ∧ first + i ≤ 61))

/-- EDIT breaks R199 or R218 in a stage. -/
def editBad (w st : Nat) : Bool :=
  let e := wEdit w
  let op := bits e 31 28
  if op = 1 then rangeBad (bits e 21 16) (bits e 15 12 + 1) || decide (64 < bits e 27 22 + (bits e 15 12 + 1))
  else if op = 2 then rangeBad (bits e 27 22) (bits e 21 18 + 1)
  else decide (4 ≤ op ∧ op ≤ 7 ∧ st < 12)

/-- A WAIT word breaks R158: its WAITSEL is reserved, or the word lacks what the condition needs. -/
def waitBad (w : Nat) : Bool :=
  let ws := wWaitsel w
  if ws = 1 then !(wLookup w && decide (wTable w = 7))
  else if ws = 2 then decide (wDispKind w ≠ 5)
  else if ws = 3 then !(wLookup w && decide (wTable w ≤ 1))
  else decide (¬ (0x10 ≤ ws ∧ ws ≤ 0x1F))

/-- TABLE breaks R133 or R137. -/
def tableBad (w : Nat) : Bool :=
  if wTable w = 1 ∧ wLookup w then
    decide (wCycles w = 0) || (List.range 4).any fun j => decide (wKeysel w j % 2 = 1)
  else if wTable w = 7 then !(wLookup w && decide (wSeq w = 6 ∧ wWaitsel w = 1))
  else false

/-- A word of stage `st` breaks a word rule (reason 5 of R181): R125, R133, R137, R144, R145, R150, R158, R199, R218,
R228. -/
def wordBreaks (w st : Nat) : Bool :=
  decide (w / 2 ^ 236 % 2 ^ 20 ≠ 0) || tableBad w || decide (2048 ≤ wTarget w) ||
    decide (wSeq w = 5 ∧ 2032 < wTarget w % 2048) || decide (wSeq w = 6 ∧ 12 ≤ st) ||
    (decide (wSeq w = 6) && waitBad w) || (List.range 4).any (aluBad w) || editBad w st ||
    decide (12 ≤ st ∧ wDispKind w ∈ [1, 2, 5, 6])

/-- A word holds a reserved encoding (reason 6 of R181). DESIGN CHOICE: a reserved TABLE is refused with LOOKUP_EN 0 too: R181
refuses it without a condition, where R133 only leaves the two conditions of 256-bit keys unbound. -/
def wordReserved (w : Nat) : Bool :=
  let e := wEdit w
  let op := bits e 31 28
  decide (8 ≤ wSeq w) || decide (8 ≤ wTable w) || decide (8 ≤ wDispKind w) || decide (bits (wTelem w) 7 6 = 3) ||
    decide (bits (wTelem w) 5 4 = 3) || decide (wSeq w = 4 ∧ 0x32 ≤ wCond w) ||
    (List.range 4).any (fun j => decide (0x1A ≤ (aluField w j).op)) || decide (op = 3 ∨ 8 ≤ op) ||
    decide (op = 6 ∧ bits e 8 7 = 3)

/-- The reason a word is refused for, the lowest one. -/
def wordReason (w st : Nat) : Option Nat :=
  if wordBreaks w st then some 5 else if wordReserved w then some 6 else none

/-! ### The Bapel image -/

/-- A stage block (R179), with the offset of its words in the image. -/
structure Block where
  stage : Nat
  first : Nat
  count : Nat
  clear : Bool
  words : Nat
  deriving DecidableEq, Repr

/-- `n` blocks back to back from an offset. -/
def blocksAt (b : List Byte) : Nat → Nat → List Block
  | 0, _ => []
  | n + 1, o =>
    let c := leAt b (o + 4) 2
    ⟨leAt b o 2, leAt b (o + 2) 2, c, allZero ((b.drop (o + 6)).take 10), o + 16⟩ :: blocksAt b n (o + 16 + 32 * c)

/-- The blocks of an image. -/
def imageBlocks (b : List Byte) : List Block := blocksAt b (leAt b 0x14 2) 0x40

/-- Bytes of header and blocks. -/
def imageSpan (b : List Byte) : Nat := (imageBlocks b).foldl (fun n x => n + 16 + 32 * x.count) 0x40

/-- The image header is right (reason 2 of R181), for an entry of `len` stored bytes. FLAGS is not among what reason 2
examines. -/
def headerOk (b : List Byte) (len : Nat) : Bool :=
  decide (leAt b 0 4 = 0x4C504142 ∧ leAt b 4 2 = 1 ∧ 1 ≤ leAt b 0x14 2 ∧ leAt b 0x14 2 ≤ 256) &&
    decide (leAt b 0x18 4 = len ∧ imageSpan b ≤ leAt b 0x18 4 ∧ (leAt b 6 2 ≠ 0 ∨ leAt b 0x18 4 ≤ imageSpan b)) &&
    allZero ((b.drop 0x16).take 2) && allZero ((b.drop 0x20).take 32)

/-- The reason a block header is refused for. -/
def Block.reason (x : Block) : Option Nat :=
  if ¬ x.clear then some 2
  else if 17 < x.stage ∨ 2047 < x.first ∨ x.count < 1 ∨ 2048 < x.first + x.count then some 3
  else none

/-- The lowest place, as stage × 2,048 + offset, that a block shares with one of a list. -/
def Block.meets (x : Block) (ys : List Block) : List Nat :=
  ys.filterMap fun y =>
    if x.stage = y.stage ∧ x.first < y.first + y.count ∧ y.first < x.first + x.count then
      some (x.stage * 2048 + max x.first y.first) else none

/-- The places at which pairs of blocks first overlap. -/
def overlaps : List Block → List Nat
  | [] => []
  | x :: t => x.meets t ++ overlaps t

/-- The least number of a list. -/
def least : List Nat → Option Nat
  | [] => none
  | x :: t => match least t with
    | some y => some (min x y)
    | none => some x

/-- Word `i` of a block: its place and its 256 bits. -/
def Block.word (x : Block) (b : List Byte) (i : Nat) : Nat × Nat :=
  (x.stage * 2048 + (x.first + i), leAt b (x.words + 32 * i) 32)

/-- All words of an image with their places. -/
def imageWords (b : List Byte) : List (Nat × Nat) :=
  (imageBlocks b).flatMap fun x => (List.range x.count).map (x.word b)

/-- A refusal of an image: reason, stage and offset (R181). -/
structure Refused where
  reason : Nat
  stage : Nat
  ofs : Nat
  deriving DecidableEq, Repr

/-- A refusal without a place in the image. -/
def Refused.whole (reason : Nat) : Refused := ⟨reason, 0xFFFF, 0xFFFF⟩

/-- The word fault at the lowest place (reasons 5 and 6). -/
def wordFault (ws : List (Nat × Nat)) : Option Refused :=
  match least (ws.filterMap fun x => if (wordReason x.2 (x.1 / 2048)).isSome then some x.1 else none) with
  | some p => match ws.find? (fun x => x.1 == p) with
    | some x => some ⟨(wordReason x.2 (p / 2048)).getD 5, p / 2048, p % 2048⟩
    | none => none
  | none => none

/-- Live pipelines of the part: (die, pipeline). -/
def Core.livePipes (k : Core) : List (Nat × Nat) :=
  (k.dieList.filter fun d => !k.fenced d && k.released d).flatMap fun d => (List.range 8).map fun p => (d, p)

/-- The checks 2 to 7 of R181 in their order, on the plain bytes of an image of `len` stored bytes. -/
def Core.imageRefused (k : Core) (b : List Byte) (len : Nat) : Option Refused :=
  if ¬ headerOk b len then some (.whole 2)
  else match (imageBlocks b).find? (fun x => x.reason.isSome) with
    | some x => some ⟨x.reason.getD 2, x.stage, x.first⟩
    | none => match least (overlaps (imageBlocks b)) with
      | some p => some ⟨4, p / 2048, p % 2048⟩
      | none => match wordFault (imageWords b) with
        | some r => some r
        | none =>
          if k.livePipes.any fun x => decide (k.rd R.SEQ_PARK_CFG_ENTRIES (dw x.1) x.2 0 < leAt b 0x1C 4) then
            some (.whole 7) else none

/-! ### Writing stores -/

/-- The stages of a half. -/
def inHalf (egress : Bool) (st : Nat) : Bool := if egress then decide (12 ≤ st) else decide (st < 12)

/-- Fill half `e` (0 or 1) of the stages of one half of a pipeline with an image: uncovered offsets become zero (R180). -/
def Core.fillHalf (k : Core) (d p : Nat) (egress : Bool) (e : Nat) (ws : List (Nat × Nat)) : Core :=
  let mine (key : Nat) : Bool := key / 4096 / 18 == d * 8 + p && inHalf egress (key / 4096 % 18) && key % 4096 / 2048 == e
  let base := k.pipes.store.filter fun x => !mine x.1
  let put (m : SMap) (x : Nat × Nat) : SMap :=
    if inHalf egress (x.1 / 2048) then m.set (storeKey d p (x.1 / 2048) (e * 2048 + x.1 % 2048)) x.2 else m
  { k with pipes := { k.pipes with
      store := ws.foldl put base, storeUe := k.pipes.storeUe.filter fun key => !mine key } }

/-- The same in firmware's retained image (R190). -/
def Core.fillImage (k : Core) (egress : Bool) (e : Nat) (ws : List (Nat × Nat)) : Core :=
  let mine (key : Nat) : Bool := inHalf egress (key / 4096) && key % 4096 / 2048 == e
  let put (m : SMap) (x : Nat × Nat) : SMap :=
    if inHalf egress (x.1 / 2048) then m.set (x.1 / 2048 * 4096 + e * 2048 + x.1 % 2048) x.2 else m
  { k with pipes := { k.pipes with image := ws.foldl put (k.pipes.image.filter fun x => !mine x.1) } }

/-- The epoch of the part's programs: that of its first live pipeline (R123). -/
def Core.partEpoch (k : Core) (egress : Bool) : Nat :=
  match k.livePipes.head? with
  | some x => k.epoch x.1 x.2 egress
  | none => 0

/-- Set or clear SEQ_STATUS.LOADING on every live pipeline: firmware writes inactive halves (R175 step 3). -/
def Core.setLoading (k : Core) (v : Nat) : Core :=
  k.livePipes.foldl (fun k x => k.wr R.SEQ_STATUS_LOADING (dw x.1) x.2 0 v) k

/-- Load an image into the inactive half of every live pipeline. -/
def Core.loadInactive (k : Core) (egress : Bool) (ws : List (Nat × Nat)) : Core :=
  let k1 := k.fillImage egress (1 - k.partEpoch egress) ws
  k.livePipes.foldl (fun k x => k.fillHalf x.1 x.2 egress (1 - k.epoch x.1 x.2 egress) ws) k1

/-! ### PROGRAM_CHANGE_LOAD -/

/-- The halves a request names, in the order of its flips (R741 word 4): true is egress. -/
def changeHalves (word4 : Nat) : List Bool :=
  if word4 = 0 then [false] else if word4 = 1 then [true] else if word4 = 2 then [true, false] else [false, true]

/-- Where the program's bytes stand in the buffer: the 4 KiB boundary after the manifest (R741). -/
def programAt (m : Manifest) : Nat := (1984 + 112 * m.entries.length + 3309 + 4095) / 4096 * 4096

/-- The reply of a refused load (R741). -/
def loadRefusal (r : Refused) (code : Nat) : Reply := refusal (r.reason + 256 * code) (r.stage * 65536 + r.ofs)

/-- Steps 1 to 6 of R175 on the bytes of the buffer: the loading of the halves lasts until their flips take effect (DESIGN
CHOICE: the command stands for the whole of steps 1 to 4, and LOADING falls at a pipeline's flip). `bad` is a word whose check
bits still differ after one rewrite. -/
def State.load (s : State) (ch : Nat) (b : List Byte) (bad : Option (Nat × Nat)) : State × Option Reply :=
  let k := s.core
  let m := manifestAt fun o n => (b.drop o).take n
  let halves := changeHalves (k.req ch 4)
  match m.entries[k.req ch 5]? with
  | none => (s, some ⟨3, []⟩)
  | some e =>
    let stored := (b.drop (programAt m)).take e.length
    if stored.length < e.length then (s, some ⟨5, []⟩)
    else if e.type ≠ 4 ∧ e.type ≠ 0x10 then (s, some ⟨3, []⟩)
    else match s.fuse.manifestCode (min 1 m.kind) m 0 with
      | some code => (s, some (loadRefusal (.whole 1) code))
      | none => match imageCode e stored with
        | some code => (s, some (loadRefusal (.whole 1) code))
        | none =>
          let plain := imagePlain e stored
          match k.imageRefused plain e.length with
          | some r => (s, some (loadRefusal r 0))
          | none =>
            if k.livePipes.any fun x => halves.any fun h => decide (k.oldUse x.1 x.2 h ≠ 0) then
              (s, some (loadRefusal (.whole 8) 0))
            else
              let k1 := halves.foldl (fun k h => k.loadInactive h (imageWords plain)) k
              match bad with
              | some (st, o) => ({ s with core := k1 }, some (loadRefusal ⟨9, st, o⟩ 0))
              | none =>
                let flips := halves.zipIdx.flatMap fun h => k.livePipes.map fun x => (x.1 * 8 + x.2, h.1, h.2 != 0)
                let left := k.livePipes.map fun x => x.1 * 8 + x.2
                let pipes := { k1.pipes with flips := k1.pipes.flips ++ flips }
                let mbx := { k1.mbx with change := some ⟨left, ch, m, e⟩ }
                ({ s with core := { k1 with pipes, mbx }.setLoading 1 }, none)

/-- PROGRAM_CHANGE_LOAD (R175, R181, R719, R741). -/
def execProgramChangeLoad (ch : Fin 13) (buf : Option (List Byte)) (bad : Option (Fin 18 × Fin 2048)) (s : State) :
    Host.Outcome State Fault Refusal :=
  done (s.serve ch.val svcLoad fun s =>
    if 3 < s.core.req ch.val 4 then (s, some ⟨3, []⟩)
    else match s.core.bufIn ch.val buf with
      | none => (s, some ⟨5, []⟩)
      | some b => s.load ch.val b (bad.map fun x => (x.1.val, x.2.val)))

/-! ### Flips and the end of a change -/

/-- A write of SEQ_EPOCH_CMD by the MP queues a flip; any other master's sets ACC_ERR (R192). -/
def Core.flipCmd (k : Core) (m : Master) (d p : Nat) (egress : Bool) : Core :=
  if m = .mp then { k with pipes := { k.pipes with flips := k.pipes.flips ++ [(d * 8 + p, egress, false)] } }
  else k.accErr (dw d) (8 + p) m 0x108

/-- EPOCH_FLIP_IN (R171). -/
def execEpochFlipIn (m : Master) (d p : Fin 8) (s : State) : Host.Outcome State Fault Refusal :=
  done (s.write m (dw d.val) (8 + p.val) 0x108 fun k => k.flipCmd m d.val p.val false)

/-- EPOCH_FLIP_EG (R171). -/
def execEpochFlipEg (m : Master) (d p : Fin 8) (s : State) : Host.Outcome State Fault Refusal :=
  done (s.write m (dw d.val) (8 + p.val) 0x108 fun k => k.flipCmd m d.val p.val true)

/-- The oldest flip of a pipeline takes effect for packets that enter the half from now on (R171, R172); the second half of a
program change flips nowhere before the first has flipped everywhere (R175 steps 5 and 6). -/
def Core.flipApply (k : Core) (d p : Nat) : Core :=
  match k.pipes.flips.find? (fun x => x.1 == d * 8 + p) with
  | none => k
  | some x =>
    if x.2.2 ∧ k.pipes.flips.any (fun y => !y.2.2) then k
    else
      let k1 := ({ k with pipes := { k.pipes with flips := k.pipes.flips.erase x } }).wr R.SEQ_STATUS_LOADING (dw d) p 0 0
      k1.wr (if x.2.1 then R.SEQ_STATUS_EPOCH_EG else R.SEQ_STATUS_EPOCH_IN) (dw d) p 0 (1 - k.epoch d p x.2.1)

/-- EPOCH_FLIP_APPLY (R171). -/
def execEpochFlipApply (d p : Fin 8) (s : State) : Host.Outcome State Fault Refusal :=
  done (s.onCore fun k => k.flipApply d.val p.val)

/-- The flips of a program change have taken effect everywhere, and no packet of any pipeline names an inactive half
(R174, R175 step 7). -/
def Core.halvesIdle (k : Core) : Bool :=
  k.pipes.flips.isEmpty && k.livePipes.all fun x => k.oldUse x.1 x.2 false == 0 && k.oldUse x.1 x.2 true == 0

/-- The last pipeline of a program change has reported: it is measured and the reply OK is completed (R175, R723). -/
def State.endChange (s : State) (c : Change) : State :=
  let k := s.core
  let s1 := ({ s with core := { k with mbx := { k.mbx with change := none } } }).measureManifest c.man.kind c.man
  let s2 := (s1.measureImage 4 c.man c.entry).reply c.ch ⟨0, []⟩
  if s2.core.mbxState c.ch = 2 then { s2 with core := s2.core.finish c.ch } else s2

/-- OLD_HALF_IDLE (R175 step 7): once the old halves are idle everywhere, each pipeline of the change raises its event; with
the last the firmware replies. -/
def execOldHalfIdle (d p : Fin 8) (s : State) : Host.Outcome State Fault Refusal :=
  done (match s.core.mbx.change with
    | none => s
    | some c =>
      if ¬ s.core.live ∨ ¬ s.core.halvesIdle ∨ !c.left.contains (d.val * 8 + p.val) then s
      else
        let k := s.core.raise (dw d.val) (8 + p.val) 3
        let c1 := { c with left := c.left.filter (· != d.val * 8 + p.val) }
        if c1.left = [] then ({ s with core := k }).endChange c
        else { s with core := { k with mbx := { k.mbx with change := some c1 } } })

/-! ### PROGRAM_CHANGE_RESTORE (R184, R619) -/

/-- Another pipeline of the part is ready. -/
def Core.readyPipes (k : Core) (d p : Nat) : List (Nat × Nat) :=
  k.livePipes.filter fun x => x != (d, p) && k.rd R.SEQ_STATUS_READY (dw x.1) x.2 0 == 1

/-- The words the other pipelines hold, by stage × 4,096 + address: firmware's image, or, while region 0 has no readable
copy, a pipeline's store. -/
def Core.heldWords (k : Core) (src : Nat × Nat) : SMap :=
  if k.regionOn 0 then k.pipes.image
  else (k.pipes.store.filter fun x => x.1 / 4096 / 18 == src.1 * 8 + src.2).map fun x =>
    (x.1 - (src.1 * 8 + src.2) * 18 * 4096, x.2)

/-- Addresses no ready pipeline holds correctly, when the words come from the stores. -/
def Core.lostWords (k : Core) (srcs : List (Nat × Nat)) : List Nat :=
  if k.regionOn 0 then []
  else
    let bad (x : Nat × Nat) : List Nat := (k.pipes.storeUe.filter fun key => key / 4096 / 18 == x.1 * 8 + x.2).map fun key =>
      key - (x.1 * 8 + x.2) * 18 * 4096
    match srcs with
    | [] => []
    | x :: t => (bad x).filter fun a => t.all fun y => (bad y).contains a

/-- The word at an address as the first ready pipeline that holds it correctly has it. -/
def Core.goodWord (k : Core) (srcs : List (Nat × Nat)) (a v : Nat) : Nat :=
  if k.regionOn 0 then v
  else match srcs.find? (fun x => !k.pipes.storeUe.contains ((x.1 * 8 + x.2) * 18 * 4096 + a)) with
    | some x => k.pipes.store.get ((x.1 * 8 + x.2) * 18 * 4096 + a)
    | none => v

/-- Restore a pipeline from the others. -/
def Core.restorePipe (k : Core) (d p : Nat) (srcs : List (Nat × Nat)) (src : Nat × Nat) : Core :=
  let base := (d * 8 + p) * 18 * 4096
  let mine (key : Nat) : Bool := key / 4096 / 18 == d * 8 + p
  let put (m : SMap) (x : Nat × Nat) : SMap := m.set (base + x.1) (k.goodWord srcs x.1 x.2)
  let pipes := { k.pipes with
    store := (k.heldWords src).foldl put (k.pipes.store.filter fun x => !mine x.1)
    storeUe := (k.pipes.storeUe.filter fun key => !mine key) ++ (k.lostWords srcs).map (base + ·) }
  let k1 := { k with pipes }
  ((k1.wr R.SEQ_STATUS_EPOCH_IN (dw d) p 0 (k.epoch src.1 src.2 false)).wr R.SEQ_STATUS_EPOCH_EG (dw d) p 0
    (k.epoch src.1 src.2 true)).wr R.SEQ_STATUS_READY (dw d) p 0 1

/-- PROGRAM_CHANGE_RESTORE. -/
def execProgramChangeRestore (ch : Fin 13) (s : State) : Host.Outcome State Fault Refusal :=
  done (s.serve ch.val svcRestore fun s =>
    let k := s.core
    let w := k.req ch.val 1
    let d := bits w 5 3
    let p := w % 8
    if 64 ≤ w ∨ (d, p) ∉ k.livePipes then (s, some ⟨3, []⟩)
    else if k.rd R.SEQ_STATUS_READY (dw d) p 0 = 1 then (s, some (refusal 1 0))
    else if k.mbx.change.isSome ∨ k.rd R.SEQ_STATUS_LOADING (dw d) p 0 = 1 then (s, some (refusal 2 0))
    else match k.readyPipes d p with
      | [] => (s, some (refusal 3 0))
      | x :: t => ({ s with core := k.restorePipe d p (x :: t) x }, some ⟨0, []⟩))

end Sys2Proof.Machine
end

