-- ==== Sys2Proof/Machine/Startup.lean ====
section
/-!
DEFINITION. Resets and start-up (R582 to R585, R607, R608, R654, R655, R671 to R674, R679, R680, R683 to R695, R714 to
R724, R728).
-/
namespace Sys2Proof.Machine

/-! ### A reset of the part -/

/-- Put the sustained and the fast cap at the part's values (R1, R631). -/
def Core.capsAtReset (k : Core) : Core :=
  let (tdp, fast) := if k.part.dies = 2 then (900, 1125) else if k.part.dies = 4 then (1750, 2187) else (3400, 4250)
  (k.wr R.PMU_CAP_SUST_WATTS 0 0 0 tdp).wr R.PMU_CAP_FAST_WATTS 0 0 0 fast

/-- The core after a reset of the part: everything at its reset value but the pins, the cause and what has already left the
part. `cause` is PAG_RESET_CAUSE. -/
def Core.afterReset (k : Core) (part : Part) (cause : Nat) : Core :=
  let fresh := (Core.initial part k.time.draws k.out).capsAtReset
  let pin (f : Fld) (x : Core) : Core := x.wr f 0 0 0 (k.rd f 0 0 0)
  let k1 := pin R.PAG_PINS_PPS (pin R.PAG_PINS_MAINS (pin R.PAG_PINS_PERST (pin R.PAG_PINS_EXT_THROT fresh)))
  let k2 := (k1.wr R.PAG_RESET_CAUSE_CAUSE 0 0 0 cause).wr R.PMU_GOV_STATUS_EXT 0 0 0 (b2n k.pmu.ext)
  { k2 with pack := { k.pack with tripped := false, hostUp := false } }

/-- A driven open-drain output is released (R680, R685). -/
def Core.releasePin (k : Core) (f : Fld) (name : String) : Core :=
  if k.rd f 0 0 0 = 1 then k.emit (.pin name false) else k

/-- A reset of the part (R683, R721): the accumulator is zero and the log empty; fuses and flash stay. -/
def State.partReset (s : State) (cause : Nat) : State :=
  let k := (s.core.releasePin R.PAG_PINS_FATAL "FATAL_N").releasePin R.PAG_PINS_TRIP "THERM_TRIP_N"
  { s with sec := .zero, core := k.afterReset s.fuse.part cause }

/-! ### The steps of R688 -/

/-- Change the boot state. -/
def Core.onBoot (k : Core) (f : Boot → Boot) : Core := { k with boot := f k.boot }

/-- A step is complete; firmware's steps leave a kind-4 record (R747). -/
def Core.stepDone (k : Core) (n : Nat) : Core :=
  let k1 := k.wr R.PAG_BOOT_PROG_STEP 0 0 0 n
  if 6 ≤ n then k1.almRecord 4 n [] else k1

/-- The start stops at a step with a cause of R741. -/
def Core.stopAt (k : Core) (n cause : Nat) : Core :=
  (k.wr R.PAG_BOOT_PROG_FAIL_STEP 0 0 0 n).onBoot fun b => { b with result := 2, stopCause := cause }

/-- Steps 2 and 3: clocks, and the fuses as sensed: the burned matrix is in force from here (R713). -/
def State.senseFuses (s : State) : State :=
  let k := s.core
  let fz := s.fuse
  { s with core := ({ k with part := fz.part
                             pack := { k.pack with matrix := if fz.matrixLock then some fz.matrix else none } }).stepDone 3 }

/-- Steps 4 and 5: the host link, as soon as PERST# is deasserted (R686). While it is asserted they are not completed (R688). -/
def Core.hostLink (k : Core) : Core :=
  if k.pack.perst then { k with pack := { k.pack with hostUp := false } }
  else
    let k1 := { k with pack := { k.pack with hostUp := true } }
    if k.rd R.PAG_BOOT_PROG_STEP 0 0 0 < 5 then k1.stepDone 5 else k1

/-- The other bank. -/
def otherBank (b : Nat) : Nat := if b = 0 then 1 else 0

/-- What R715 does with the selector: the selector after it, whether it is written, whether a trial was reverted. -/
def Selector.atStart (x : Selector) : Selector × Bool × Bool :=
  if x.trial = 1 ∧ x.attempted = 1 then ({ x with preferred := otherBank x.preferred, trial := 0 }, true, true)
  else if x.trial = 1 then ({ x with attempted := 1 }, true, false)
  else (x, false, false)

/-- The key engine writes a decrypted image into a store that no master reads (R708). -/
def Core.loadCode (k : Core) (x : CodeStore) (plain : List Byte) : Core :=
  k.onBoot fun b => { b with code := (x, plain) :: b.code.filter (·.1 != x) }

/-- Firmware of a bank runs from MP SRAM: the running manifest and its status fields (R693, R708, R729, R749). -/
def Core.runFirmware (k' : Core) (bank : Nat) (m : Manifest) (plain : List Byte) : Core :=
  let k := k'.loadCode .mpSram plain
  let k1 := (k.wr R.PAG_BOOT_PROG_IMAGE 0 0 0 bank).wr R.MBX_MP_STATUS_STATE 0 0 0 1
  ((k1.wr R.SEC_STATUS_VENDOR_SLOT 0 0 0 m.slot).wr R.SEC_RUN_VENDOR_SVN 0 0 0 m.svn).onBoot fun b => { b with vendor := some m }

/-- The first of two banks whose firmware verifies. -/
def State.firstBank (s : State) (a b : Nat) : Option (Nat × Manifest × ImgEntry) :=
  match s.fuse.bankFirmware s.flash a with
  | some x => some (a, x)
  | none => match s.fuse.bankFirmware s.flash b with
    | some x => some (b, x)
    | none => none

/-- Step 6 (R715, R716, R723, R724): the identity, the security-state entry, the bank, its manifest and firmware. Answers
whether firmware runs. -/
def State.bootRom (s : State) : State × Bool :=
  let (sel, write, reverted) := (readSelector s.flash).atStart
  let k := (s.core.wr R.SEC_STATUS_ID_READY 0 0 0 1).wr R.SEC_STATUS_TRIAL 0 0 0 (sel.trial % 2)
  let s1 := ({ s with flash := if write then writeSelector s.flash sel else s.flash, core := k }).measureSecurity
  match s1.firstBank sel.preferred (otherBank sel.preferred) with
  | some (b, m, e) =>
    let s2 := (s1.measureManifest 0 m).measureImage 3 m e
    let k2 := s2.core.runFirmware b m (imagePlain e (bankImage s.flash b e))
    ({ s2 with core := (if reverted then k2.raise 0 0xA0 2 else k2).stepDone 6 }, true)
  | none =>
    ({ s1 with core := (s1.core.stopAt 6 1).wr R.MBX_MP_STATUS_STATE 0 0 0 2 }, false)

/-- The board description (R672, R673), none when it is absent or its header is wrong. -/
def readBoard (f : SMap) : Option (List Nat) :=
  match readRecord f boardSlot with
  | some b =>
    let n := leAt b 8 4
    if leAt b 0 4 = 0x44424D4E ∧ leAt b 4 2 = 1 ∧ 1 ≤ n ∧ n ≤ 64 ∧ b.length = 80 + 8 * n then
      some ((List.range n).map fun i => leAt b (16 + 8 * i) 8)
    else none
  | none => none

/-- The last entry of a die in the ageing record. -/
def lastAge (es : List AgeEntry) (w : Nat) : Option AgeEntry := es.reverse.find? (·.die == dieCode w)

/-- Step 7 for one die: life and TRIM from its entry, or the factory trim plus 30 mV (R654); then, where a
regulator sets the rail, TRIM is in force and steps of R640 take the rail from the 0.85 V of R668 to its setpoint; else no trim
and no boost (R674). -/
def Core.ageStart (k : Core) (w : Nat) (es : Option (List AgeEntry)) : Core :=
  let put (k : Core) (m p : Fld) (v : Nat) : Core := k.wr (pick w m p) w 0 0 v
  let u := k.unit w
  let e := (es.getD []).reverse.find? (·.die == dieCode w)
  let k1 := match e with
    | some e =>
      let k' := put (put (put k R.M_PMU_AGE_STAT_QUARTERS R.PMU_AGE_STAT_QUARTERS e.quarter) R.M_PMU_AGE_LAST R.PMU_AGE_LAST
        e.hours) R.M_PMU_LIFE_HOURS R.PMU_LIFE_HOURS e.hours
      let k'' := put (put (put k' R.M_PMU_LIFE_TJ_MAX_DC R.PMU_LIFE_TJ_MAX_DC (e.max' % 4096)) R.M_PMU_LIFE_TJ_AVG_DC
        R.PMU_LIFE_TJ_AVG_DC (e.avg % 4096)) R.M_PMU_LIFE_TJ_PEAK_EXCEEDED R.PMU_LIFE_TJ_PEAK_EXCEEDED (e.flags % 2)
      (put k'' R.M_PMU_VOLT_TRIM_MV R.PMU_VOLT_TRIM_MV e.trim).putUnit { u with
        life := e.hours * 3600000000, lifeSum := (e.avg * (e.hours * 3600000000) : Nat) }
    | none => put k R.M_PMU_VOLT_TRIM_MV R.PMU_VOLT_TRIM_MV (Config.factoryTrim w + 30)
  let k2 := if e.isSome then k1 else k1.raise w (pmuPage w) 5
  let set := k.pmu.board.any fun x => brdWin x == w && brdSettable x && (brdRail x == if w = 0 then 6 else 1)
  if set then
    (k2.putUnit { k2.unit w with trimmed := true }).applyMargin w
  else
    (put (k2.putUnit { k2.unit w with noBoost := true }) R.M_PMU_VOLT_TRIM_MV R.PMU_VOLT_TRIM_MV
      (k2.trim w)).applyMargin w

/-- Step 7: board description and ageing record. A missing record is begun anew, with bit 1 of its entries' FLAGS. -/
def State.readRecords (s : State) : State :=
  let es := readAge s.flash
  let board := readBoard s.flash
  let k0 := { s.core with pmu := { s.core.pmu with board := board.getD [] } }
  let k1 := k0.units.foldl (fun k w => k.ageStart w es) k0
  let k2 := if k1.units.any fun w => !(k1.unit w).trimmed then k1.raise 0 0x80 3 else k1
  let flash := if es.isSome then s.flash
    else writeAge s.flash (k2.units.map fun w => k2.ageEntry w 2 0 ⟨[], []⟩)
  { s with flash, core := k2.stepDone 7 }

/-! ### Repairs (R581 to R585, R589) -/

/-- KIND of a soft-map entry (R584). -/
def mapKind (e : Nat) : Nat := bits e 63 60
/-- DIE. -/
def mapDie (e : Nat) : Nat := bits e 59 56
/-- MACRO. -/
def mapMacro (e : Nat) : Nat := bits e 55 40
/-- INDEX. -/
def mapIndex (e : Nat) : Nat := bits e 39 24
/-- SPARE. -/
def mapSpare (e : Nat) : Nat := bits e 23 20

/-- The window an entry's statistics belong to. -/
def mapWin (e : Nat) : Nat := if mapDie e < 8 then mapDie e + 1 else 0

/-- An entry has no reserved encoding, names a die of the part and lies in range. -/
def mapEntryOk (dies e : Nat) : Bool :=
  let port := decide (mapDie e < dies)
  let mer := decide (mapDie e = 8)
  bits e 19 0 == 0 && (port || mer) &&
    match mapKind e with
    | 1 | 2 => decide (mapSpare e ≤ 1)
    | 3 => port && decide (mapMacro e = 0 ∧ mapIndex e ≤ 255 ∧ mapSpare e ≤ 7)
    | 4 => decide (mapMacro e < (if mer then 40 * dies else 40) ∧ mapIndex e ≤ 63 ∧ mapSpare e ≤ 3)
    | 5 => mer && decide (mapMacro e = 0 ∧ mapIndex e < 8 * dies ∧ mapSpare e ≤ 3)
    | _ => false

/-- Two entries take the same spare or repair the same target. -/
def mapClash (a b : Nat) : Bool :=
  decide (mapKind a = mapKind b ∧ mapDie a = mapDie b ∧ mapMacro a = mapMacro b ∧
    (mapSpare a = mapSpare b ∨ mapIndex a = mapIndex b))

/-- Carry out an entry: a slice for a lane, a spare wire for a wire; row, column and crossbar-port repairs change no
register but RAS_SOFT_STAT and MER_PORT.IN_USE. -/
def Core.repair (k : Core) (e : Nat) : Core :=
  let k1 := k.onBoot fun b => { b with repairs := b.repairs ++ [e] }
  let i := mapIndex e
  match mapKind e with
  | 3 =>
    let w := dw (mapDie e)
    (k1.wr R.LAN_LANE_STAT_SLICE w (i / 8) (i % 8) (256 + mapSpare e)).wr R.LAN_SPARE_STAT_POOL_FREE w 0 0
      (k1.rd R.LAN_SPARE_STAT_POOL_FREE w 0 0 ||| 2 ^ mapSpare e)
  | 4 =>
    let mer := decide (mapDie e = 8)
    let port := if mer then mapMacro e / 5 else mapDie e * 8 + mapMacro e / 5
    let b := mapMacro e % 5
    let at' := shnAt mer port
    (((k1.shnWr mer port R.M_SHN_SPARE_STAT_FREE R.SHN_SPARE_STAT_FREE
      (k1.shnRd mer port R.M_SHN_SPARE_STAT_FREE R.SHN_SPARE_STAT_FREE ||| 2 ^ (4 * b + mapSpare e))).tw
      (if mer then T.M_SHN_WIRE_SPARED else T.SHN_WIRE_SPARED) at'.1 at'.2 (b * 68 + i) 1).tw
      (if mer then T.M_SHN_WIRE_SPARE else T.SHN_WIRE_SPARE) at'.1 at'.2 (b * 68 + i) (mapSpare e))
  | _ => k1

/-- Firmware applies a soft-map entry, or skips it (R585). -/
def Core.softEntry (k : Core) (e : Nat) : Core :=
  let w := mapWin e
  let applied := pick w R.M_RAS_SOFT_STAT_APPLIED R.RAS_SOFT_STAT_APPLIED
  let skipped := pick w R.M_RAS_SOFT_STAT_SKIPPED R.RAS_SOFT_STAT_SKIPPED
  if mapEntryOk k.part.dies e ∧ ¬ k.boot.repairs.any (mapClash e) ∧ k.rd applied w 0 0 < 4096 then
    (k.repair e).wr applied w 0 0 (k.rd applied w 0 0 + 1)
  else k.wr skipped w 0 0 (min 4096 (k.rd skipped w 0 0 + 1))

/-- The soft-repair map's entries (R583), none when it is absent. -/
def readSoftMap (f : SMap) : Option (List Nat) :=
  match readRecord f softSlot with
  | some b =>
    let n := leAt b 8 4
    if leAt b 0 4 = 0x50534D4E ∧ leAt b 4 2 = 1 ∧ n ≤ 36864 ∧ b.length = 80 + 8 * n then
      some ((List.range n).map fun i => leAt b (16 + 8 * i) 8)
    else none
  | none => none

/-- A soft map stands in the flash, but no copy of it has a good digest. -/
def softMapBad (f : SMap) : Bool :=
  (readSoftMap f).isNone && (List.range 2).any fun c => decide (leAt (flashRead f (recordsBase c + softSlot.off) 4) 0 4 = 0x4C534D4E)

/-- Step 8 (R582, R585): the fuse map, then the soft-repair map. -/
def State.applyRepairs (s : State) : State :=
  let k1 := s.fuse.repairs.foldl Core.repair s.core
  let k2 := if softMapBad s.flash then
      k1.units.foldl (fun k w =>
        (k.wr (pick w R.M_RAS_SOFT_STAT_DIGEST_BAD R.RAS_SOFT_STAT_DIGEST_BAD) w 0 0 1).raise w 0xC0 3) k1
    else ((readSoftMap s.flash).getD []).foldl Core.softEntry k1
  { s with core := k2.stepDone 8 }

/-! ### Steps 9 to 14 -/

/-- A port die that fails a step is fenced and the start goes on, degraded (R691). -/
def Core.failDie (k : Core) (n d : Nat) : Core :=
  if k.populated d then
    ((k.fenceDie d).wr R.PAG_BOOT_PROG_FAIL_STEP 0 0 0 n).onBoot fun b => { b with result := 1 }
  else k

/-- Step 9: the port dies leave reset (R687). -/
def Core.releaseDies (k : Core) (bad : List (Fin 8)) : Core :=
  let k1 := k.wr R.PAG_BOOT_PROG_RELEASED 0 0 0 (2 ^ k.part.dies - 1)
  let k2 := k1.dieList.foldl (fun k d => k.wr R.PMU_FREQ_MHZ (dw d) 0 0 (cclkMhz (k.unit (dw d)).ceiling 0 0)) k1
  (bad.foldl (fun k d => k.failDie 9 d.val) k2).stepDone 9

/-- Step 10 (R607, R608, R614): both ports enumerate; region 0 is placed at the start of the first device that offers
1 GiB, and mirrored when both do. -/
def Core.cxlStart (k : Core) (c0 c1 : Nat × Bool × Bool) : Core × Bool :=
  let k1 := (k.enumerated 0 (min c0.1 4096) c0.2.1 c0.2.2).enumerated 1 (min c1.1 4096) c1.2.1 c1.2.2
  if c0.1 < 4 ∧ c1.1 < 4 then (k1, false)
  else
    let put (k : Core) (f : Fld) (v : Nat) : Core := k.wr f 0 0 0 v
    let k2 := put (put (put (put k1 R.CXL_REG_EN 1) R.CXL_REG_COMMITTED 1) R.CXL_REG_STATE 1) R.CXL_REG_SIZE 4
    (put (put k2 R.CXL_REG_PORT (if 4 ≤ c0.1 then 0 else 1)) R.CXL_REG_MIRROR (b2n (decide (4 ≤ c0.1 ∧ 4 ≤ c1.1))), true)

/-- The patch of a type (R717): the running manifest's, or the other bank's when it is valid and lists the same digest; with its
decrypted bytes. -/
def State.patch (s : State) (type : Nat) : Option (Manifest × ImgEntry × List Byte) :=
  let plain (b : Nat) (e : ImgEntry) : List Byte := imagePlain e (bankImage s.flash b e)
  let bank := s.core.rd R.PAG_BOOT_PROG_IMAGE 0 0 0
  match s.core.boot.vendor with
  | none => none
  | some m => match (m.ofType type).head? with
    | none => none
    | some e =>
      if (imageCode e (bankImage s.flash bank e)).isNone then some (m, e, plain bank e)
      else
        let b := otherBank bank
        let m2 := bankManifest s.flash b 0
        match (m2.ofType type).head? with
        | some e2 =>
          if (s.fuse.bankCode s.flash b 0).isNone ∧ e2.digest = e.digest ∧ (imageCode e2 (bankImage s.flash b e2)).isNone then
            some (m, e, plain b e2)
          else none
        | none => none

/-- Step 11 (R708, R717, R723): each Focus sequencer and each lane controller takes its decrypted image. Answers whether both patches load. -/
def State.loadPatches (s : State) : State × Bool :=
  match s.patch 2, s.patch 3 with
  | some (m, e, foc), some (m2, e2, lane) =>
    let s1 := (s.measureImage 3 m e).measureImage 3 m2 e2
    let k := s1.core.dieList.foldl (fun k d =>
      let k1 := ((k.loadCode (.focusSeq d) foc).wr R.FOC_SEQ_READY (dw d) 0 0 1).wr R.FOC_SEQ_MC_VERSION (dw d) 0 0 e.version
      (List.range 32).foldl (fun k o => (k.loadCode (.laneCtl d o) lane).wr R.LAN_OCT_STATUS_MC_READY (dw d) o 0 1)
        k1) s1.core
    ({ s1 with core := k.stepDone 11 }, true)
  | _, _ => ({ s with core := s.core.stopAt 11 3 }, false)

/-- Step 12: the crossbar ports in use train and every follower reaches SYNC (R443). -/
def Core.trainPorts (k : Core) (bad : List (Fin 8)) : Core :=
  let k1 := (k.dieList.filter fun d => !k.fenced d).foldl (fun k d => (List.range 8).foldl (fun k i => k.shnState (8 * d + i) 2)
    (k.wr R.STB_FOL_STATUS_SYNC (dw d) 0 0 1)) k
  (bad.foldl (fun k d => k.failDie 12 d.val) k1).stepDone 12

/-- Load an image into half 0 of both halves of every live pipeline, epochs 0, and set READY (R183, R718). -/
def Core.loadBoot (k : Core) (ws : List (Nat × Nat)) : Core :=
  let k1 := (k.fillImage false 0 ws).fillImage true 0 ws
  k1.livePipes.foldl (fun k x => ((k.fillHalf x.1 x.2 false 0 ws).fillHalf x.1 x.2 true 0 ws).wr R.SEQ_STATUS_READY (dw x.1)
    x.2 0 1) k1

/-- The owner manifest at step 13 (R718, R729): OWNER_STATE, reason, and the manifest when it is verified. -/
def State.checkOwner (s : State) (bank : Nat) : Nat × Nat × Option Manifest :=
  let m := bankManifest s.flash bank 1
  if ¬ s.fuse.anyValid 1 then (0, 0, none)
  else if flashRead s.flash (bankBase bank + 0x100000) 4 = List.replicate 4 0xFF then (2, 0, none)
  else match s.fuse.bankCode s.flash bank 1 with
    | some c => (3, c, none)
    | none => match m.entries.findSome? fun e => imageCode e (bankImage s.flash bank e) with
      | some c => (3, c, none)
      | none => (1, 0, some m)

/-- The words of a boot-program entry of a manifest, when its image passes R706 and R181. -/
def State.bootImage (s : State) (bank : Nat) (m : Manifest) (type : Nat) : Option (ImgEntry × List (Nat × Nat)) :=
  match m.entries.find? fun e => e.bootProgram && e.type == type with
  | none => none
  | some e =>
    let stored := bankImage s.flash bank e
    let plain := imagePlain e stored
    if (imageCode e stored).isSome ∨ (s.core.imageRefused plain e.length).isSome then none else some (e, imageWords plain)

/-- A program of the boot flash holds what half `e` of the ingress or egress half was loaded with (R619). -/
def State.flashHolds (s : State) (egress : Bool) (e : Nat) : Bool :=
  [0, 1].any fun bank => [0, 1].any fun kind =>
    let m := bankManifest s.flash bank kind
    (s.fuse.bankCode s.flash bank kind).isNone && m.entries.any fun x =>
      let stored := bankImage s.flash bank x
      (x.type == 4 || x.type == 0x10) && (imageCode x stored).isNone &&
        (s.core.fillImage egress e (imageWords (imagePlain x stored))).pipes.image == s.core.pipes.image

/-- A word of the stage stores is rewritten whole. -/
def Core.putWord (k : Core) (d p st a v : Nat) : Core :=
  let key := storeKey d p st a
  { k with pipes := { k.pipes with
      store := k.pipes.store.set key v, storeUe := k.pipes.storeUe.filter (· != key) } }

/-- STORE_WORD_REWRITE (R190, R191, R616, R619): firmware rewrites an uncorrectable word from its retained image in region 0, once
that region's bucket lets it read; image data that reads poisoned is fetched from the boot flash. While region 0 has no readable
copy, the word comes from another pipeline that holds it, or from the boot flash when none does; a word held nowhere stays as
it is. -/
def State.storeRewrite (s : State) (d p st a : Nat) (poisoned : Bool) : State :=
  let k := s.core
  let put (k : Core) (v : Nat) : State := { s with core := k.putWord d p st a v }
  let word := k.pipes.image.get (st * 4096 + a)
  let flash (k : Core) : State :=
    if s.flashHolds (decide (12 ≤ st)) (a / 2048) then put k word else { s with core := k }
  if ¬ k.pipes.storeUe.contains (storeKey d p st a) then s
  else if k.regionOn 0 then
    if k.tokens 0 = 0 then s
    else if poisoned then flash (k.firmwareRead true)
    else put (k.firmwareRead false) word
  else
    match (k.dieList.flatMap fun x => (List.range 8).map fun y => (x, y)).find? fun x =>
        x != (d, p) && !k.fenced x.1 && k.rd R.SEQ_STATUS_READY (dw x.1) x.2 0 == 1 &&
          !k.pipes.storeUe.contains (storeKey x.1 x.2 st a) with
    | some x => put k (k.pipes.store.get (storeKey x.1 x.2 st a))
    | none => flash k

/-- STORE_WORD_REWRITE. -/
def execStoreWordRewrite (d p : Fin 8) (st : Fin 18) (a : Fin 4096) (poisoned : Bool) (s : State) :
    Host.Outcome State Fault Refusal :=
  done (if s.core.live then s.storeRewrite d p st a poisoned else s)

/-- Step 13 (R718, R723): the boot program pair. -/
def State.bootProgram (s : State) : State :=
  let bank := s.core.rd R.PAG_BOOT_PROG_IMAGE 0 0 0
  let (st, why, owner) := s.checkOwner bank
  let k1 := (s.core.wr R.SEC_STATUS_OWNER_STATE 0 0 0 st).wr R.SEC_STATUS_OWNER_REASON 0 0 0 why
  let k2 := if st = 3 then k1.raise 0 0xA0 0 else k1
  let s1 := { s with core := k2 }
  let s2 := if st = 1 ∨ st = 3 then s1.measureManifest 1 (bankManifest s.flash bank 1) else s1
  let fromOwner := match owner with
    | some m => (s2.bootImage bank m 0x10).map fun x => (m, x)
    | none => none
  let fromVendor := match s2.core.boot.vendor with
    | some m => (s2.bootImage bank m 4).map fun x => (m, x)
    | none => none
  let load (s : State) (n : Nat) (ws : List (Nat × Nat)) : State :=
    { s with core := ((s.core.loadBoot ws).onBoot fun b => { b with bootCase := n }).stepDone 13 }
  match fromOwner with
  | some (m, e, ws) =>
    let k := ((s2.core.wr R.SEC_STATUS_OWNER_SLOT 0 0 0 m.slot).wr R.SEC_RUN_OWNER_SVN 0 0 0 m.svn).onBoot fun b =>
      { b with owner := some m }
    load (({ s2 with core := k }).measureImage 3 m e) 1 ws
  | none => match fromVendor with
    | some (m, e, ws) => load (s2.measureImage 3 m e) 2 ws
    | none => load s2 3 []

/-- Step 14: start status DONE and the traffic-ready event. -/
def Core.trafficReady (k : Core) : Core :=
  ((k.onBoot fun b => { b with result := if b.result = 1 then 1 else 0 }).stepDone 14).emit (.notice "traffic-ready" 0)

/-- Start-up from step 2 (R688, R691): step by step, until one stops it. -/
def State.start (s' : State) (x : StartFacts) : State :=
  let s := { s' with core := s'.core.wr R.SEC_STATUS_DEBUG_ACTIVE 0 0 0 (b2n s'.core.pack.debugOn) }
  let fails (n : Nat) : Bool := x.meridianFails == n
  let stop (s : State) (n : Nat) : State := { s with core := s.core.stopAt n 4 }
  if fails 2 then stop s 2
  else if fails 3 then stop { s with core := s.core.stepDone 2 } 3
  else
    let s3 := ({ s with core := s.core.stepDone 2 }).senseFuses
    let s3 := { s3 with core := ({ s3.core with pmu := { s3.core.pmu with
        dies := s3.core.units.map PmuDie.fresh } }).extPin s3.core.pack.ext }
    if fails 4 then stop s3 4
    else if fails 5 then stop { s3 with core := s3.core.stepDone 4 } 5
    else
      let s5 := { s3 with core := s3.core.hostLink }
      if fails 6 then stop s5 6
      else match s5.bootRom with
      | (s6, false) => s6
      | (s6, true) =>
        if fails 7 then stop s6 7
        else
          let s7 := s6.readRecords
          if fails 8 then stop s7 8
          else
            let s8 := s7.applyRepairs
            if fails 9 then stop s8 9
            else
              let k9 := s8.core.releaseDies x.fail9
              if fails 10 then stop { s8 with core := k9 } 10
              else
                let (k10, ok) := k9.cxlStart x.cxl0 x.cxl1
                if ¬ ok then { s8 with core := k10.stopAt 10 2 }
                else if fails 11 then stop { s8 with core := k10.stepDone 10 } 11
                else match ({ s8 with core := k10.stepDone 10 }).loadPatches with
                  | (s11, false) => s11
                  | (s11, true) =>
                    if fails 12 then stop s11 12
                    else
                      let s12 := { s11 with core := s11.core.trainPorts x.fail12 }
                      if fails 13 then stop s12 13
                      else
                        let s13 := s12.bootProgram
                        if fails 14 then stop s13 14 else { s13 with core := s13.core.trafficReady }

/-! ### Resets of the part -/

/-- Change the pins and clocks. -/
def State.onPack (s : State) (f : Pack → Pack) : State := { s with core := { s.core with pack := f s.core.pack } }

/-- The debug port is settled when cold reset is released (R714); the cause of R694 too: a recorded trip reads 5, and 0 is
read when VDD_IO was lost. -/
def State.coldRelease (s : State) (x : StartFacts) : State :=
  let cause := if s.fuse.trip then 5 else if x.ioLost then 0 else s.core.rd R.PAG_RESET_CAUSE_CAUSE 0 0 0
  let s1 := s.onPack fun p => { p with debugOn := !s.fuse.debugOff && x.dbgEn }
  { s1 with fuse := { s1.fuse with trip := false }, core := s1.core.wr R.PAG_RESET_CAUSE_CAUSE 0 0 0 cause }

/-- POWER_UP (R688): PWR_GOOD is asserted, with PERST# as given. With SYS_RST_N low the start waits for its release. -/
def execPowerUp (perst : Bool) (facts : StartFacts) (s : State) : Host.Outcome State Fault Refusal :=
  done (if s.core.pack.power then s
    else
      let s1 := s.onPack fun p => { p with power := true, perst }
      let s2 := { s1 with core := s1.core.wr R.PAG_PINS_PERST 0 0 0 (b2n perst) }
      if s2.core.pack.sysRst then s2 else (s2.coldRelease facts).start facts)

/-- PWR_GOOD_LOSS (R671): cold reset, with cause 1. -/
def execPwrGoodLoss (s : State) : Host.Outcome State Fault Refusal :=
  done (if s.core.pack.power then (s.partReset 1).onPack fun p => { p with power := false, debugOn := false } else s)

/-- SYS_RST_ASSERT (R683): SYS_RST_N has been low for 1 ms: cold reset, with cause 2. -/
def execSysRstAssert (s : State) : Host.Outcome State Fault Refusal :=
  done (if s.core.pack.power ∧ ¬ s.core.pack.sysRst then
      (s.partReset 2).onPack fun p => { p with sysRst := true, debugOn := false }
    else s.onPack fun p => { p with sysRst := true })

/-- SYS_RST_RELEASE (R695): start-up begins at step 1. -/
def execSysRstRelease (facts : StartFacts) (s : State) : Host.Outcome State Fault Refusal :=
  let s1 := s.onPack fun p => { p with sysRst := false }
  done (if s.core.pack.power ∧ s.core.pack.sysRst then (s1.coldRelease facts).start facts else s1)

/-- A write of PAG_RESET is accepted: master PF0 or the MP, and the key (R693). -/
def State.resetWrite (s : State) (m : Master) (key : Nat) (f : State → State) : State :=
  if ¬ s.core.live then s
  else match s.core.verdict m 0 0 0x200 true with
    | .silent => s
    | .error w p => { s with core := s.core.accErr w p m 0x200 }
    | .ok =>
      if m ≠ .mp ∧ m ≠ .pf 0 then { s with core := s.core.accErr 0 0 m 0x200 }
      else if key ≠ 0xA5C3 then { s with core := s.core.cfgErr 0 0 m 0x200 }
      else f s

/-- A warm reset and the start from step 2; the debug port stays as it is (R683, R713). -/
def State.warm (s : State) (cause : Nat) (x : StartFacts) : State := (s.partReset cause).start x

/-- WARM_RESET (R683, R693, R695): a write of PAG_RESET with PART 1 by a master with a key, whatever its MP bit is (the third
component): PART takes precedence; or a fatal error of firmware. -/
def execWarmReset (by' : Option (Master × BitVec 16 × Bool)) (facts : StartFacts) (s : State) :
    Host.Outcome State Fault Refusal :=
  done (match by' with
    | some (m, key, _) => s.resetWrite m key.toNat fun s => s.warm 3 facts
    | none => if s.core.live then s.warm 4 facts else s)

/-! ### MP reset (R683, R720, R723, R735, R750) -/

/-- FATAL_N follows R680: driven while a die is fenced or the MP is halted. -/
def Core.fatalPin (k : Core) : Core :=
  let on := decide (k.rd R.PAG_DIEMAP_FENCED 0 0 0 ≠ 0 ∨ k.rd R.MBX_MP_STATUS_STATE 0 0 0 = 3)
  if b2n on = k.rd R.PAG_PINS_FATAL 0 0 0 then k else (k.wr R.PAG_PINS_FATAL 0 0 0 (b2n on)).emit (.pin "FATAL_N" on)

/-- The watchdog holds the MP in reset: FATAL_N is driven for that time (R680). -/
def Core.watchdogHold (k : Core) : Core :=
  if k.rd R.PAG_PINS_FATAL 0 0 0 = 1 then k else (k.wr R.PAG_PINS_FATAL 0 0 0 1).emit (.pin "FATAL_N" true)

/-- Ageing measurements that the reset interrupted (R656) are repeated an hour later. -/
def Core.interruptAge (k : Core) : Core :=
  if k.units.any fun w => k.rd (pick w R.M_PMU_AGE_CMD R.PMU_AGE_CMD) w 0 0 == 1 then
    { k with pmu := { k.pmu with retryAt := k.time.now + 3600000000000 + 1 } }
  else k

/-- What an MP reset does to the channels, locks, pages and firmware's own work; `cause` goes to the kind-3 record. -/
def Core.mpReset (k : Core) (cause : Nat) : Core :=
  let k1 := (((List.range 13).foldl Core.mpAbandon k).mpForget.endSession .mp).interruptAge
  let k2 := k1.bump R.MBX_MP_STATUS_RESTARTS 0 0 0 1
  let k3 := (k2.onBoot fun b => { b with staged := [] }).raise 0 0xBD 0
  k3.almRecord 3 0 [k3.rd R.MBX_MP_STATUS_RESTARTS 0 0 0, cause]

/-- The boot ROM after an MP reset (R720): the bank named by IMAGE, else the other; neither: the MP halts. -/
def State.mpRestart (s : State) : State :=
  let b := s.core.rd R.PAG_BOOT_PROG_IMAGE 0 0 0
  let s1 := s.measure 5 0 0 0 (List.replicate 64 0)
  match s1.firstBank b (otherBank b) with
  | some (x, m, e) =>
    let s2 := s1.measureImage 3 m e
    { s2 with core := (s2.core.runFirmware x m (imagePlain e (bankImage s.flash x e))).fatalPin }
  | none => { s1 with core := ((s1.core.onBoot fun b => { b with code := b.code.filter (·.1 != .mpSram) }).wr
      R.MBX_MP_STATUS_STATE 0 0 0 3).fatalPin }

/-- MP_RESET (R616, R683): a write of PAG_RESET with MP 1 and PART 0 (cause 0), the watchdog (1), an uncorrectable error of MP SRAM (2), or a poisoned
read of region 0 that returned other data than an image (3). -/
def execMpReset (by' : Option (Master × BitVec 16)) (cause : MpCause) (s : State) : Host.Outcome State Fault Refusal :=
  let go (cause : Nat) (s : State) : State := ({ s with core := s.core.mpReset cause }).mpRestart
  done (match by' with
    | some (m, key) => s.resetWrite m key.toNat (go 0)
    | none =>
      if ¬ s.core.live then s
      else match cause with
        | .watchdog => go 1 { s with core := s.core.watchdogHold }
        | .sram => go 2 { s with core := s.core.ueFound 0 0 }
        | .poison => if s.core.regionOn 0 ∧ s.core.tokens 0 ≠ 0 then go 3 { s with core := s.core.firmwareRead true } else s)

/-! ### The host port (R686, R110, R116, R735, R746) -/

/-- A function-level reset of a PF. -/
def Core.flr (k : Core) (f : Fin 4) : Core :=
  let k1 := (List.range 64).foldl (fun k v =>
    if k.rd R.EVT_VEC_CFG_PF 0 0 v = f.val then k.wr R.EVT_VEC_CFG_EN 0 0 v 0 else k) (k.endSession (.pf f))
  let k2 := (List.range 20).foldl (fun k q => k.wr R.HQ_CFG_EN 0 f.val q 0) (k1.senderReset f.val)
  { k2 with hostq := { k2.hostq with rx := k2.hostq.rx.filter fun c => c.pf != f.val },
            io := { k2.io with pba := k2.io.pba.filter fun x => x.1 != f.val } }

/-- FUNCTION_LEVEL_RESET. -/
def execFunctionLevelReset (f : Fin 4) (s : State) : Host.Outcome State Fault Refusal :=
  done (s.onCore fun k => k.flr f)

/-- HOST_PORT_RESET (R683, R686): by PERST# (it holds the link down), by a hot reset or by the loss of the link. -/
def execHostPortReset (perst : Bool) (s : State) : Host.Outcome State Fault Refusal :=
  let s1 := if perst then
      let s' := s.onPack fun p => { p with perst := true, hostUp := false }
      { s' with core := s'.core.wr R.PAG_PINS_PERST 0 0 0 1 }
    else s
  done (s1.onCore fun k => [0, 1, 2, 3].foldl (fun k f => k.flr f) k)

/-- PERST_DEASSERT (R686): once past step 3 the link trains and configuration space answers. -/
def execPerstDeassert (s : State) : Host.Outcome State Fault Refusal :=
  let s' := s.onPack fun p => { p with perst := false }
  let k := s'.core.wr R.PAG_PINS_PERST 0 0 0 0
  done { s' with core := if k.live ∧ 3 ≤ k.rd R.PAG_BOOT_PROG_STEP 0 0 0 then k.hostLink else k }

/-! ### Thermal trip (R679, R685) -/

/-- THERMAL_TRIP: THERM_TRIP_N asserts, the trip is recorded, the clocks stop. -/
def execThermalTrip (s : State) : Host.Outcome State Fault Refusal :=
  done s.trip

end Sys2Proof.Machine
end

