-- ==== Sys2Proof/Machine/Services.lean ====
section
/-!
DEFINITION. The mailbox commands (R734 to R737) and the services (R740 to R742) other than program change: start status,
sensors, repair map, quote and certificate, owner keys, rollback, fuse lock, update, confirm, board description, recovery
and die report.
-/
namespace Sys2Proof.Machine

/-! ### GO, TAKE, DONE, RELEASE (R734, R735) -/

/-- A control bit written by the wrong master or in a state without a transition: discarded with ACC_ERR. -/
def Core.mbxWrite (k : Core) (m : Master) (ch : Nat) (ok : Bool) (f : Core → Core) : Core :=
  if ok then f k else k.accErr 0 (0xB0 + ch) m 0x144

/-- MBX_GO (R735). -/
def Core.mbxGo (k : Core) (m : Master) (ch : Nat) : Core :=
  k.mbxWrite m ch (decide (m.id = senderId ch ∧ k.mbxState ch ∈ [0, 3, 4, 5])) fun k =>
    let seq := (k.rd R.MBX_REQ_HDR_SEQ 0 ch 0 + 1) % 256
    (((k.wr R.MBX_REQ_HDR_SENDER 0 ch 0 m.id).wr R.MBX_REQ_HDR_SEQ 0 ch 0 seq).wr R.MBX_STATUS_SEQ 0 ch 0 seq).mbxTo ch 1

/-- MBX_GO. -/
def execMbxGo (m : Master) (ch : Fin 13) (s : State) : Host.Outcome State Fault Refusal :=
  done (s.write m 0 (0xB0 + ch.val) 0x144 fun k => k.mbxGo m ch.val)

/-- The request names a service that R740 does not list. -/
def Core.unknown (k : Core) (ch : Nat) : Bool :=
  !(services.any fun sv => k.asks ch sv) && bits (k.req ch 0) 31 24 != 0x30

/-- The request is answered as soon as it is taken: BAD_REQUEST for a service that does not exist, NOT_PERMITTED for a die report
on another channel than a die controller's (R739, R740). -/
def Core.atOnce (k : Core) (ch : Nat) : Option Nat :=
  if k.unknown ch then some 3
  else if bits (k.req ch 0) 31 24 = 0x30 ∧ ¬ (4 ≤ ch ∧ ch ≤ 11) then some 4
  else none

/-- TAKE of the MP (R735): a POSTED channel is TAKEN, and firmware's next turn begins after it (R736); WITHDRAWN is acknowledged. -/
def Core.mbxTake (k : Core) (m : Master) (ch : Nat) : Core :=
  k.mbxWrite m ch (decide (m = .mp ∧ (k.mbxState ch = 1 ∨ k.mbxState ch = 5))) fun k =>
    if k.mbxState ch = 5 then k.mbxTo ch 0
    else
      let k1 := { k with mbx := { k.mbx with lastTaken := ch + 1, replied := k.mbx.replied.filter (· != ch) } }
      let k2 := ((k1.clearReply ch).mbxTo ch 2).begin' ch
      match k.atOnce ch with
      | some st => k2.reply ch ⟨st, []⟩
      | none => k2

/-- MBX_TAKE: a TAKE written on a channel, or (`none`) firmware's own next one, in the round robin of R736. -/
def execMbxTake (m : Master) (ch : Option (Fin 13)) (s : State) : Host.Outcome State Fault Refusal :=
  let take (c : Nat) : State := s.write m 0 (0xB0 + c) 0x144 fun k => k.mbxTake m c
  done (match ch with
    | some c => take c.val
    | none => match s.core.nextChannel with
      | some c => take c
      | none => s)

/-- MBX_DONE (R735). -/
def execMbxDone (m : Master) (ch : Fin 13) (s : State) : Host.Outcome State Fault Refusal :=
  done (s.write m 0 (0xB0 + ch.val) 0x144 fun k =>
    k.mbxWrite m ch.val (decide (m = .mp ∧ k.mbxState ch.val = 2)) fun k => k.finish ch.val)

/-- MBX_RELEASE (R735). -/
def execMbxRelease (m : Master) (ch : Fin 13) (s : State) : Host.Outcome State Fault Refusal :=
  done (s.write m 0 (0xB0 + ch.val) 0x144 fun k =>
    k.mbxWrite m ch.val (decide (m.id = senderId ch.val ∧ k.mbxState ch.val = 3)) fun k => k.mbxTo ch.val 0)

/-! ### Replies whose code the spec leaves open -/

/-- A free value of the model over the whole state. -/
def State.fresh (s : State) : Nat × State :=
  let (v, k) := s.core.fresh
  (v, { s with core := k })

/-- A refusal (status 2) or failure (status 6) whose code the spec does not state: the code is a free value. -/
def State.openCode (s : State) (status : Nat) : State × Option Reply :=
  let (v, s1) := s.fresh
  (s1, some ⟨status, [v % 256]⟩)

/-- A reply of a bare status. -/
def State.answer (s : State) (status : Nat) : State × Option Reply := (s, some ⟨status, []⟩)

/-! ### Start status and sensors (R741, R742) -/

/-- START_STATUS_GET. -/
def execStartStatusGet (ch : Fin 13) (s : State) : Host.Outcome State Fault Refusal :=
  done (s.serve ch.val svcStart fun s =>
    let k := s.core
    let b := k.boot
    (s, some ⟨0, [k.rd R.PAG_BOOT_PROG_STEP 0 0 0 * 2 ^ 24 + k.rd R.PAG_BOOT_PROG_FAIL_STEP 0 0 0 * 2 ^ 16 +
      k.rd R.PAG_DIEMAP_FENCED 0 0 0 * 2 ^ 8 + b.bootCase * 16 + b.result, b.stopCause]⟩))

/-- The value of a sensor (R742), as a 32-bit pattern; 0x8000_0000 when the identifier does not exist. -/
def Core.sensor (k : Core) (id : Nat) : Nat :=
  let die := bits id 15 12
  let idx := bits id 7 0
  let w := if die = 8 then 0 else die + 1
  let rail := k.pmu.board.zipIdx.find? fun x => brdWin x.1 == w && brdRail x.1 == idx
  let none' := 0x80000000
  if 8 < die ∨ (die < 8 ∧ ¬ k.populated die) then none'
  else match bits id 11 8 with
    | 0 =>
      if idx < 64 then
        (BitVec.ofNat 16 (k.td (if w = 0 then T.M_PMU_MON_VALUE else T.PMU_MON_VALUE) w 0 idx)).signExtend 32 |>.toNat
      else none'
    | 1 => match rail with
      | some x => if k.pmu.rails.get x.2 = 0 then none' else (k.pmu.rails.get x.2 - 1) / 65536
      | none => none'
    | 2 => match rail with
      | some x => if k.pmu.rails.get x.2 = 0 then none' else (k.pmu.rails.get x.2 - 1) % 65536
      | none => none'
    | 3 => if idx = 0 then (k.unit w).power else none'
    | _ => none'

/-- SENSORS_READ: word 1 holds the first identifier in bits [15:0] and the count in bits [31:16]. -/
def execSensorsRead (ch : Fin 13) (s : State) : Host.Outcome State Fault Refusal :=
  done (s.serve ch.val svcRead fun s =>
    let w := s.core.req ch.val 1
    let n := w / 65536
    if n < 1 ∨ 14 < n then s.answer 3
    else (s, some ⟨0, 0 :: (List.range n).map fun i => s.core.sensor ((w + i) % 65536)⟩))

/-- SENSORS_LOG_CFG: word 1 holds the period in seconds. -/
def execSensorsLogCfg (ch : Fin 13) (s : State) : Host.Outcome State Fault Refusal :=
  done (s.serve ch.val svcLogCfg fun s =>
    let n := s.core.req ch.val 1
    if n < 1 ∨ 3600 < n then s.answer 3
    else ({ s with core := { s.core with mbx := { s.core.mbx with period := n } } }, some ⟨0, []⟩))

/-- SENSOR_LOG_PERIOD (R742, R747): a period has passed; one record a die, its first three temperatures. -/
def execSensorLogPeriod (s : State) : Host.Outcome State Fault Refusal :=
  done (s.onCore fun k =>
    if k.rd R.MBX_MP_STATUS_STATE 0 0 0 = 1 ∧ k.mbx.loggedAt + k.mbx.period * 1000000000 ≤ k.time.now then
      let k1 := k.units.foldl (fun k w =>
        let id := dieCode w * 4096
        k.almRecord 1 id ((List.range 3).map fun i => k.sensor (id + i))) k
      { k1 with mbx := { k1.mbx with loggedAt := k.time.now } }
    else k)

/-! ### The repair map (R583, R586) -/

/-- A soft-repair map's header and entries. -/
def softBytes (es : List Nat) : List Byte :=
  leOf 0x50534D4E 4 ++ leOf 1 2 ++ leOf 0 2 ++ leOf es.length 4 ++ leOf 0 4 ++ es.flatMap fun e => leOf e 8

/-- Write the map to the flash. -/
def State.putSoftMap (s : State) (es : List Nat) : State :=
  { s with flash := writeRecord s.flash softSlot (withDigest (softBytes es)) }

/-- REPAIR_MAP_READ: the record goes to the buffer; an absent map is one without entries. -/
def execRepairMapRead (ch : Fin 13) (writeOk : Bool) (s : State) : Host.Outcome State Fault Refusal :=
  done (s.serve ch.val svcMapRead fun s =>
    let b := withDigest (softBytes ((readSoftMap s.flash).getD []))
    if ¬ writeOk ∨ s.core.bufLen ch.val < b.length then s.answer 5
    else ({ s with core := s.core.bufOut ch.val b }, some ⟨0, []⟩))

/-- REPAIR_MAP_ADD: the buffer holds whole entries of 8 bytes; they are appended. -/
def execRepairMapAdd (ch : Fin 13) (buf : Option (List Byte)) (s : State) : Host.Outcome State Fault Refusal :=
  done (s.serve ch.val svcMapAdd fun s =>
    match s.core.bufIn ch.val buf with
    | none => s.answer 5
    | some b =>
      let es := (readSoftMap s.flash).getD []
      let n := b.length / 8
      if b.length % 8 ≠ 0 ∨ n = 0 then s.answer 3
      else if 36864 < es.length + n then s.openCode 2
      else (s.putSoftMap (es ++ (List.range n).map fun i => leAt b (8 * i) 8)).answer 0)

/-- REPAIR_MAP_REMOVE: word 1 gives the entry's index. -/
def execRepairMapRemove (ch : Fin 13) (s : State) : Host.Outcome State Fault Refusal :=
  done (s.serve ch.val svcMapRemove fun s =>
    let es := (readSoftMap s.flash).getD []
    let i := s.core.req ch.val 1
    if es.length ≤ i then s.openCode 2 else (s.putSoftMap (es.eraseIdx i)).answer 0)

/-! ### Quote and certificate (R725, R701) -/

/-- QUOTE: the key engine signs the live state with the nonce; the draw makes the signature hedged. -/
def execQuote (ch : Fin 13) (buf : Option (List Byte)) (writeOk : Bool) (s : State) : Host.Outcome State Fault Refusal :=
  done (s.serve ch.val svcQuote fun s =>
    if s.core.rd R.SEC_STATUS_ID_READY 0 0 0 = 0 then s.answer 7
    else match s.core.bufIn ch.val buf with
      | none => s.answer 5
      | some b =>
        if s.core.bufLen ch.val < 3477 ∨ ¬ writeOk then s.answer 5
        else
          let body := s.quoteBody (b.take 64)
          let n := s.core.time.draws
          let sig := (List.range 3309).map (Config.mldsaSign (idSeed s.core.pack.debugOn) body n)
          let s1 := (s.fresh).2
          ({ s1 with core := s1.core.bufOut ch.val (body ++ sig) }, some ⟨0, []⟩))

/-- CERTIFICATE_GET: the record is returned unchanged. -/
def execCertificateGet (ch : Fin 13) (writeOk : Bool) (s : State) : Host.Outcome State Fault Refusal :=
  done (s.serve ch.val svcCert fun s =>
    match readRecord s.flash certSlot with
    | none => s.openCode 6
    | some b =>
      if ¬ writeOk ∨ s.core.bufLen ch.val < b.length then s.answer 5
      else ({ s with core := s.core.bufOut ch.val b }, some ⟨0, []⟩))

/-! ### Fuses (R709 to R713) -/

/-- Bits that a burn leaves set: all of `new`, or, when the burn does not read back, an unknown part of them (`mask`).
A fuse never goes back to 0. -/
def burn (old new mask : Nat) (ok : Bool) : Nat := old ||| (if ok then new else new &&& mask)

/-- The bytes of a key hash after a burn. -/
def burnBytes (old new : List Byte) (mask : Nat) (ok : Bool) : List Byte :=
  old.zipWith (fun a x => a ||| x) ((List.range old.length).map fun i =>
    let v := new.getD i 0
    if ok then v else v &&& BitVec.ofNat 8 (mask / 2 ^ (8 * i)))

/-- A burn that reads back is answered OK; one that does not raises the fuse-burn-failed event and fails (R710). -/
def State.burned (s : State) (ok : Bool) : State × Option Reply :=
  if ok then s.answer 0 else ({ s with core := s.core.raise 0 0xA0 4 }).openCode 6

/-- OWNER_KEY_ADD (R711): the hash goes to the lowest owner slot that is not valid. -/
def execOwnerKeyAdd (ch : Fin 13) (buf : Option (List Byte)) (burnOk : Bool) (s : State) : Host.Outcome State Fault Refusal :=
  done (s.serve ch.val svcKeyAdd fun s =>
    match s.core.bufIn ch.val buf with
    | none => s.answer 5
    | some b =>
      if b.length < 64 then s.answer 5
      else match (List.range 4).find? fun i => bit s.fuse.ownerValid i == 0 with
        | none => s.openCode 2
        | some i =>
          let (x, s1) := s.fresh
          let fz := s1.fuse
          let hash := burnBytes (fz.ownerHash.getD i []) (b.take 64) x burnOk
          ({ s1 with fuse := { fz with
              ownerHash := fz.ownerHash.set i hash
              ownerValid := burn fz.ownerValid (2 ^ i) (x / 2 ^ 512) burnOk } }).burned burnOk)

/-- OWNER_KEY_REVOKE (R711): word 1 names the slot. -/
def execOwnerKeyRevoke (ch : Fin 13) (burnOk : Bool) (s : State) : Host.Outcome State Fault Refusal :=
  done (s.serve ch.val svcKeyRevoke fun s =>
    let i := s.core.req ch.val 1
    if 3 < i then s.answer 3
    else
      let (x, s1) := s.fresh
      ({ s1 with fuse := { s1.fuse with ownerRevoked := burn s1.fuse.ownerRevoked (2 ^ i) x burnOk } }).burned burnOk)

/-- A thermometer counter after a burn toward a value: it never decreases. -/
def burnCount (old new mask : Nat) (ok : Bool) : Nat := if ok then max old new else old + mask % (max old new - old + 1)

/-- ROLLBACK_COMMIT (R712): word 1 bit 0 selects the counter, bit 1 is ALLOW_SINGLE. -/
def execRollbackCommit (ch : Fin 13) (burnOk : Bool) (s : State) : Host.Outcome State Fault Refusal :=
  done (s.serve ch.val svcCommit fun s =>
    let w := s.core.req ch.val 1
    let kind := w % 2
    let other := otherBank (s.core.rd R.PAG_BOOT_PROG_IMAGE 0 0 0)
    match if kind = 0 then s.core.boot.vendor else s.core.boot.owner with
    | none => s.openCode 2
    | some m =>
      if m.svn ≤ s.fuse.rollback kind then s.answer 0
      else if bit w 1 = 0 ∧ (s.fuse.bankCode s.flash other kind).isSome then
        -- the code of the other bank's manifest (R741)
        (s, some (refusal ((s.fuse.bankCode s.flash other kind).getD 0) 0))
      else if bit w 1 = 0 ∧ (bankManifest s.flash other kind).svn < m.svn then s.openCode 2
      else
        let (x, s1) := s.fresh
        let fz := s1.fuse
        let own := 2 ^ m.slot
        let revoke := m.revoke % 16 - (m.revoke % 16 &&& own)
        let fz1 := if kind = 0 then { fz with
            vendorRb := burnCount fz.vendorRb m.svn x burnOk
            vendorRevoked := burn fz.vendorRevoked revoke (x / 2 ^ 64) burnOk }
          else { fz with ownerRb := burnCount fz.ownerRb m.svn x burnOk }
        ({ s1 with fuse := fz1 }).burned burnOk)

/-- The matrix in a buffer: 16 words, one a master. -/
def matrixOf (b : List Byte) : List Nat := (List.range 16).map fun i => leAt b (4 * i) 4

/-- The rights code of a master for a class in a matrix. -/
def matrixRight (mx : List Nat) (m cls : Nat) : Nat := mx.getD m 0 / 2 ^ (2 * cls) % 4

/-- A matrix the service accepts (R713). -/
def matrixOk (mx : List Nat) : Bool :=
  (List.range 10).all (fun c => matrixRight mx 4 c == 3) && matrixRight mx 0 7 == 3 && matrixRight mx 0 9 == 3 &&
    (matrixRight mx 0 0 == 1 || matrixRight mx 0 0 == 3)

/-- Burn a matrix with MATRIX_LOCK, DEBUG_OFF, or both. -/
def State.fuseLock (s : State) (mx : Option (List Nat)) (debug burnOk : Bool) : State × Option Reply :=
  if mx.any fun x => x.any fun w => decide (2 ^ 20 ≤ w) then s.answer 3
  else if mx.any (fun x => s.fuse.matrixLock || !matrixOk x) then s.openCode 2
  else
    let (x, s1) := s.fresh
    let fz := s1.fuse
    let fz1 := match mx with
      | some n => { fz with
          matrix := (List.range 16).map fun i => burn (fz.matrix.getD i 0) (n.getD i 0) (x / 2 ^ (20 * i)) burnOk
          matrixLock := fz.matrixLock || burnOk || bit x 320 == 1 }
      | none => fz
    let fz2 := if debug then { fz1 with debugOff := fz1.debugOff || burnOk || bit x 321 == 1 } else fz1
    ({ s1 with fuse := fz2 }).burned burnOk

/-- FUSE_LOCK_MATRIX (R713). -/
def execFuseLockMatrix (ch : Fin 13) (buf : Option (List Byte)) (burnOk : Bool) (s : State) :
    Host.Outcome State Fault Refusal :=
  done (s.serve ch.val svcMatrix fun s =>
    match s.core.bufIn ch.val buf with
    | none => s.answer 5
    | some b => if b.length < 64 then s.answer 5 else s.fuseLock (some (matrixOf b)) false burnOk)

/-- FUSE_LOCK_DEBUG_OFF (R713). -/
def execFuseLockDebugOff (ch : Fin 13) (burnOk : Bool) (s : State) : Host.Outcome State Fault Refusal :=
  done (s.serve ch.val svcDebugOff fun s => s.fuseLock none true burnOk)

/-- FUSE_LOCK_BOTH (R713). -/
def execFuseLockBoth (ch : Fin 13) (buf : Option (List Byte)) (burnOk : Bool) (s : State) :
    Host.Outcome State Fault Refusal :=
  done (s.serve ch.val svcBoth fun s =>
    match s.core.bufIn ch.val buf with
    | none => s.answer 5
    | some b => if b.length < 64 then s.answer 5 else s.fuseLock (some (matrixOf b)) true burnOk)

/-! ### Update, confirm, board description, recovery (R672, R716, R726, R727) -/

/-- Stage bytes at an offset of the set. -/
def stageBytes (m : SMap) : Nat → List Byte → SMap
  | _, [] => m
  | o, b :: t => stageBytes (m.set o (b.toNat + 1)) (o + 1) t

/-- A staged range is complete. -/
def staged (m : SMap) (o n : Nat) : Bool := (List.range n).all fun i => m.get (o + i) != 0

/-- Staged bytes; what is not staged reads as erased flash. -/
def stagedRead (m : SMap) (o n : Nat) : List Byte :=
  (List.range n).map fun i => if m.get (o + i) = 0 then 0xFF else BitVec.ofNat 8 (m.get (o + i) - 1)

/-- Bytes of a manifest with `n` entries. -/
def manifestLen (n : Nat) : Nat := 1984 + 112 * n + 3309

/-- One half of an image set: its kind, its manifest, and where its bytes are read. -/
structure SetPart where
  kind : Nat
  man : Manifest
  read : Nat → Nat → List Byte

/-- The part of a kind in the staged set, or, when the set omits it, in the running bank; none when neither has one. -/
def State.setPart (s : State) (kind : Nat) : Option SetPart :=
  let m := s.core.boot.staged
  let base := kind * 0x100000
  let flash (o n : Nat) : List Byte := flashRead s.flash (bankBase (s.core.rd R.PAG_BOOT_PROG_IMAGE 0 0 0) + o) n
  if staged m base 4 then some ⟨kind, manifestAt fun o n => stagedRead m (base + o) n, stagedRead m⟩
  else if flash base 4 = List.replicate 4 0xFF then none
  else some ⟨kind, manifestAt fun o n => flash (base + o) n, flash⟩

/-- The first failing code of a part (R705, R706). -/
def State.partCode (s : State) (p : SetPart) (others : Nat) : Option Nat :=
  match s.fuse.manifestCode p.kind p.man others with
  | some c => some c
  | none => p.man.entries.findSome? fun e => imageCode e (p.read e.offset e.length)

/-- Boot-program flags of a part. -/
def SetPart.bootFlags (p : SetPart) : Nat := (p.man.entries.filter ImgEntry.bootProgram).length

/-- Write a part to a bank. -/
def SetPart.write (p : SetPart) (f : SMap) (bank : Nat) : SMap :=
  let f1 := flashWrite f (bankBase bank + p.kind * 0x100000) p.man.bytes
  p.man.entries.foldl (fun f e => flashWrite f (bankBase bank + e.offset) (p.read e.offset e.length)) f1

/-- Every DIGEST of a part reads back from a bank. -/
def SetPart.readsBack (p : SetPart) (f : SMap) (bank : Nat) : Bool :=
  p.man.entries.all fun e => shake64 (bankImage f bank e) == e.digest

/-- Erase a bank, write parts to it, and let the cells named in `flaws` (bank offset, value) read otherwise. -/
def State.writeBank (s : State) (bank : Nat) (ps : List SetPart) (flaws : List (Nat × Byte)) : State :=
  let f1 := flashErase s.flash (bankBase bank) (bankBase bank + bankSize)
  let f2 := ps.foldl (fun f p => p.write f bank) f1
  { s with flash := flaws.foldl (fun f x => if x.1 < bankSize then flashWrite f (bankBase bank + x.1) [x.2] else f) f2 }

/-- The selector is written; SEC_STATUS.TRIAL follows it (R729). -/
def State.select (s : State) (x : Selector) : State :=
  { s with flash := writeSelector s.flash x, core := s.core.wr R.SEC_STATUS_TRIAL 0 0 0 x.trial }

/-- A trial runs: the update service is refused (R727). -/
def State.onTrial (s : State) : Bool := s.core.rd R.SEC_STATUS_TRIAL 0 0 0 == 1

/-- Stage a chunk of the buffer at an offset of the set. -/
def State.stage (s : State) (at' : Nat) (b : List Byte) : Option State :=
  if bankSize < at' + b.length then none
  else some { s with core := s.core.onBoot fun x => { x with staged := stageBytes x.staged at' b } }

/-- Forget what has been staged. -/
def State.unstage (s : State) : State := { s with core := s.core.onBoot fun x => { x with staged := [] } }

/-- UPDATE_STAGE (R726, R741). -/
def execUpdateStage (ch : Fin 13) (buf : Option (List Byte)) (s : State) : Host.Outcome State Fault Refusal :=
  done (s.serve ch.val svcStage fun s =>
    if s.onTrial then s.openCode 2
    else match s.core.bufIn ch.val buf with
      | none => s.answer 5
      | some b => match s.stage (s.core.req ch.val 4) b with
        | none => s.openCode 2
        | some s1 => s1.answer 0)

/-- The parts of an update and the code of the first check that fails. -/
def State.updateParts (s : State) : List SetPart × Option Nat :=
  match s.setPart 0 with
  | none => ([], some 1)
  | some v => match s.setPart 1 with
    | none => ([v], s.partCode v 0)
    | some o => ([v, o], match s.partCode v o.bootFlags with
      | some c => some c
      | none => s.partCode o v.bootFlags)

/-- UPDATE_APPLY (R726). `flaws` are bytes of the written bank that do not read back. -/
def execUpdateApply (ch : Fin 13) (flaws : List (Nat × Byte)) (s : State) : Host.Outcome State Fault Refusal :=
  done (s.serve ch.val svcApply fun s =>
    if s.onTrial then s.openCode 2
    else match s.updateParts with
      | (_, some c) => (s, some (refusal c 0))
      | (ps, none) =>
        let bank := otherBank (s.core.rd R.PAG_BOOT_PROG_IMAGE 0 0 0)
        let s1 := s.writeBank bank ps flaws
        if ¬ ps.all fun p => p.readsBack s1.flash bank then (s1, some (refusal 7 0))
        else
          let s2 := s1.select ⟨bank, 1, 0⟩
          ({ s2 with core := (s2.core.onBoot fun x => { x with staged := [] }).raise 0 0xA0 1 }, some ⟨0, []⟩))

/-- CONFIRM (R727). -/
def execConfirm (ch : Fin 13) (s : State) : Host.Outcome State Fault Refusal :=
  done (s.serve ch.val svcConfirm fun s =>
    let x := readSelector s.flash
    if s.core.rd R.PAG_BOOT_PROG_IMAGE 0 0 0 = x.preferred then (s.select { x with trial := 0 }).answer 0 else s.openCode 2)

/-- A board-description entry has no reserved encoding (R673). -/
def boardEntryOk (e : Nat) : Bool :=
  decide (1 ≤ brdRail e ∧ brdRail e ≤ 8 ∧ bits e 44 41 ≤ 8 ∧ 1 ≤ bits e 40 33 ∧ bits e 40 33 ≤ 32 ∧ bits e 31 0 = 0) &&
    (brdSettable e || decide (brdRail e ≠ 1 ∧ brdRail e ≠ 6))

/-- A board-description record: header, entries, digest (R672). -/
def boardOk (b : List Byte) : Bool :=
  let n := leAt b 8 4
  decide (leAt b 0 4 = 0x44424D4E ∧ leAt b 4 2 = 1 ∧ leAt b 6 2 = 0 ∧ leAt b 12 4 = 0 ∧ 1 ≤ n ∧ n ≤ 64 ∧
    b.length = 80 + 8 * n) && digestOk b && (List.range n).all fun i => boardEntryOk (leAt b (16 + 8 * i) 8)

/-- BOARD_DESCRIPTION_WRITE (R672): the buffer holds the record; it counts from the next start. -/
def execBoardDescriptionWrite (ch : Fin 13) (buf : Option (List Byte)) (s : State) : Host.Outcome State Fault Refusal :=
  done (s.serve ch.val svcBoard fun s =>
    match s.core.bufIn ch.val buf with
    | none => s.answer 5
    | some b => if boardOk b then ({ s with flash := writeRecord s.flash boardSlot b }).answer 0 else s.openCode 2)

/-- The vendor part of the staged set. -/
def State.recoveryPart (s : State) : SetPart :=
  ⟨0, manifestAt fun o n => stagedRead s.core.boot.staged o n, stagedRead s.core.boot.staged⟩

/-- What has been received whole does not verify: the code of the first such manifest or image (R716). -/
def State.recoveryCode (s : State) : Option Nat :=
  let p := s.recoveryPart
  let m := s.core.boot.staged
  if ¬ staged m 0 1984 ∨ ¬ staged m 0 (manifestLen p.man.entries.length) then none
  else match s.fuse.manifestCode 0 p.man 0 with
    | some c => some c
    | none => (p.man.entries.filter fun e => staged m e.offset e.length).findSome? fun e => imageCode e (p.read e.offset e.length)

/-- RECOVERY_STAGE (R716, R741): each manifest and image is verified as it is received. DESIGN CHOICE (log 148): the request names no
offset, so each chunk follows the one before it, and a set that fails is sent again from its beginning. -/
def execRecoveryStage (ch : Fin 13) (buf : Option (List Byte)) (s : State) : Host.Outcome State Fault Refusal :=
  done (s.serve ch.val svcRecStage fun s =>
    match s.core.bufIn ch.val buf with
    | none => s.answer 5
    | some b => match s.stage s.core.boot.staged.length b with
      | none => s.openCode 2
      | some s1 => match s1.recoveryCode with
        | some c => (s1.unstage, some (refusal c 0))
        | none => s1.answer 0)

/-- RECOVERY_WRITE (R716): the set goes to bank A; after a good read-back the selector names bank A without trial. -/
def execRecoveryWrite (ch : Fin 13) (flaws : List (Nat × Byte)) (s : State) : Host.Outcome State Fault Refusal :=
  done (s.serve ch.val svcRecWrite fun s =>
    let p := s.recoveryPart
    match s.partCode p 0 with
    | some c => (s.unstage, some (refusal c 0))
    | none =>
      let s1 := (s.writeBank 0 [p] flaws).unstage
      if p.readsBack s1.flash 0 then (s1.select ⟨0, 0, 0⟩).answer 0 else (s1, some (refusal 7 0)))

/-! ### Die reports (R740) -/

/-- DIE_REPORT: firmware answers a die controller's message; what the reply holds is firmware's own, a free value, its STATUS one of
R739. -/
def execDieReport (d : Fin 8) (s : State) : Host.Outcome State Fault Refusal :=
  let ch := 4 + d.val
  let k := s.core
  done (if k.live ∧ k.mbxState ch = 2 ∧ bits (k.req ch 0) 31 24 = 0x30 ∧ ¬ k.mbx.replied.contains ch ∧
      k.rd R.MBX_MP_STATUS_STATE 0 0 0 = 1 then
    let (x, s1) := s.fresh
    s1.reply ch ⟨x % 8, (List.range 15).map fun i => x / 2 ^ (8 + 32 * i) % 2 ^ 32⟩
  else s)

end Sys2Proof.Machine
end

