-- ==== Sys2Proof/Machine/Indirect.lean ====
section
/-!
DEFINITION. The indirect windows (R95 to R99): the window registers, the entries of every table as the windows show and
change them, the operations and their completion, and reading region contents (R620).
-/
namespace Sys2Proof.Machine

/-! ### The window registers (R95) -/

/-- The window of a table. -/
def winOf (tab : Nat) : Option IndWin := indWins.find? (·.tab == tab)

/-- The window stands in this die window at repeated page `p`. -/
def indStands (x : IndWin) (w p : Nat) : Bool := (x.port == (w != 0)) && decide (p < x.pages)

/-- IND_ADDR. -/
def indAddr (x : IndWin) : Fld := ⟨x.page, x.base, 0, 31, 0, 0⟩
/-- IND_CMD.AUTOINC. -/
def indAuto (x : IndWin) : Fld := ⟨x.page, x.base + 4, 0, 8, 8, 0⟩
/-- IND_STATUS.FAIL. -/
def indFailed (x : IndWin) : Fld := indFail x.page x.base
/-- IND_DATA[j], j as the array index. -/
def indData (x : IndWin) : Fld := ⟨x.page, x.base + 0x40, 4, 31, 0, 0⟩

/-- The window whose register stands at a page and offset, with its repeated page and the offset from its base. -/
def indAt (w page off : Nat) : Option (IndWin × Nat × Nat) :=
  (indWins.find? fun x => (x.port == (w != 0)) && decide (x.page ≤ page ∧ page < x.page + x.pages) &&
    decide (x.base ≤ off ∧ off < x.base + 0x80)).map fun x => (x, page - x.page, off - x.base)

/-- The IND_DATA words as one entry. -/
def Core.indWord (k : Core) (x : IndWin) (w p : Nat) : Nat :=
  (List.range 16).foldr (fun j n => k.rd (indData x) w p j + 2 ^ 32 * n) 0

/-- Put an entry into the IND_DATA words. -/
def Core.putIndData (k : Core) (x : IndWin) (w p v : Nat) : Core :=
  (List.range 16).foldl (fun k j => k.wr (indData x) w p j (v / 2 ^ (32 * j))) k

/-- Start the operation an IND_CMD names (R95, R97): OP 1 reads, 2 writes; while the page is busy the command is
discarded with ACC_ERR. A stage-store write by another master than the MP is discarded with ACC_ERR (R187). -/
def Core.indCmd (k : Core) (m : Master) (w : Nat) (x : IndWin) (p : Nat) (write autoinc : Bool) : Core :=
  let page := x.page + p
  if k.indBusy w page then k.accErr w page m (x.base + 4)
  else if x.kind = .store ∧ write ∧ m ≠ .mp then k.accErr w page m (x.base + 4)
  else
    let op : IndOp := ⟨x.tab, w, page, x.base, write, false, m.id, k.time.now⟩
    (k.wr (indAuto x) w p 0 (b2n autoinc)).onIo fun io => { io with ind := io.ind ++ [op] }

/-- A start by a command that names the table and the repeated page; nothing stands there on another window. -/
def indStart (m : Master) (w tab p : Nat) (write autoinc : Bool) (s : State) : State :=
  match winOf tab with
  | some x =>
    if indStands x w p then s.write m w (x.page + p) (x.base + 4) fun k => k.indCmd m w x p write autoinc else s
  | none => s

/-- IND_READ (R95): IND_CMD.OP 1. -/
def execIndRead (m : Master) (w : Fin 9) (tab : Fin 42) (p : Fin 68) (autoinc : Bool) (s : State) :
    Host.Outcome State Fault Refusal := done (indStart m w tab p false autoinc s)

/-- IND_WRITE (R95): IND_CMD.OP 2. -/
def execIndWrite (m : Master) (w : Fin 9) (tab : Fin 42) (p : Fin 68) (autoinc : Bool) (s : State) :
    Host.Outcome State Fault Refusal := done (indStart m w tab p true autoinc s)

/-! ### What an entry reads as -/

/-- A crossbar port carries a pipeline (R389): a port of a populated die that no spare replaces, or a spare that does. -/
def Core.portInUse (k : Core) (i : Nat) : Bool :=
  if i < 64 then k.populated (i / 8) && !k.boot.repairs.any (fun e => mapKind e == 5 && mapIndex e == i)
  else k.boot.repairs.any fun e => mapKind e == 5 && mapSpare e == i - 64

/-- An entry field as a window shows it: some are derived from the state. -/
def Core.entryFld (k : Core) (f : TFld) (w p i : Nat) : Nat :=
  if f = T.SCH_QCFG_EFF_QUANTUM then
    max (k.td T.SCH_QCFG_QUANTUM w p i) ((k.prt T.PRT_PORT_MTU (w - 1) (32 * p + i / 16) + 63) / 64)
  else if f = T.BUF_VOQ_DEPTH then k.voqDepth (w - 1) (i / 512) (i / 8 % 64) (i % 8)
  else if f = T.BUF_Q_PAUSED then b2n (k.paused (w - 1) (i / 16) (i % 16))
  else if f = T.MER_PORT_IN_USE then b2n (k.portInUse i)
  else k.td f w p i

/-- An entry laid out by the rows of its table. -/
def Core.entryRows (k : Core) (tab w p i : Nat) : Nat :=
  (tabRows.filter (·.fld.tab == tab)).foldl (fun n r => n + k.entryFld r.fld w p i % 2 ^ r.fld.width * 2 ^ r.fld.bit) 0

/-- Bytes as an entry, byte 4j + i in IND_DATA[j] bits [8i+7:8i]. -/
def entryBytes (b : List Byte) : Nat := leNat b

/-- A Catalogue slot as CAT_IND shows it (R312): the entry at the index, or the upper half of the wide entry below. -/
def Core.catSlot (k : Core) (d i : Nat) : Nat :=
  let flags (e : CatEnt) : Nat :=
    2 ^ 31 + b2n e.static * 2 ^ 30 + e.home % 8 * 2 ^ 27 + b2n e.hit * 2 ^ 26 + b2n e.mark * 2 ^ 25 + b2n e.wide * 2 ^ 24 +
      b2n e.learned * 2 ^ 22
  match k.tables.ents.find? fun e => e.die == d && e.idx == i with
  | some e => e.key % 2 ^ 128 + e.data % 2 ^ 64 * 2 ^ 128 + flags e * 2 ^ 192
  | none =>
    match k.tables.ents.find? fun e => e.die == d && e.wide && e.idx + 1 == i with
    | some e => e.key / 2 ^ 128 % 2 ^ 128 + e.data % 2 ^ 64 * 2 ^ 128 + (flags e + 2 ^ 23) * 2 ^ 192
    | none => 0

/-- An Almanac record's 32 bytes (R747). -/
def AlmRec.bytes (r : AlmRec) : List Byte :=
  leOf r.seq 4 ++ leOf r.sec 4 ++ leOf r.ns 4 ++ leOf r.source 2 ++ leOf r.kind 1 ++ leOf (b2n r.gap + 2 * b2n r.merged) 1 ++
    leOf r.bits 4 ++ (List.range 3).flatMap fun j => leOf (r.data.getD j 0) 4

/-- The key hash a window entry shows (R730): vendor slots 0 to 3, owner slots 4 to 7, zeros when not programmed. -/
def Fuses.keyHash (fz : Fuses) (i : Nat) : List Byte :=
  let valid := if i < 4 then bit fz.vendorValid i else bit fz.ownerValid (i - 4)
  if valid = 1 then (if i < 4 then fz.vendorHash.getD i [] else fz.ownerHash.getD (i - 4) []) else []

/-- Entries whose first lane must name an existing port (R383, R384, R446, R565, R774), by table: the lane. -/
def laneOf (tab p i : Nat) : Option Nat :=
  if tab = Tab.BUF_PORT ∨ tab = Tab.BUF_PFCRX then some i
  else if tab = Tab.BUF_PG then some (i / 8)
  else if tab = Tab.BUF_Q then some (i / 16)
  else if tab = Tab.CNT_PSTAT then some (i / 64)
  else if tab = Tab.PRT_PORT then some (8 * p + i)
  else none

/-- Entries of PMU_MON that the Meridian die has no monitor for (R659). -/
def noMonitor (tab i : Nat) : Bool := tab == Tab.M_PMU_MON && (decide (72 ≤ i ∧ i < 80) || decide (88 ≤ i ∧ i < 96))

/-- What an operation reads: the entry, or FAIL with the raw content. -/
def Core.entryRead (k : Core) (fz : Fuses) (sec : Sec) (x : IndWin) (w p i : Nat) : Nat × Bool :=
  let d := w - 1
  let absent := match laneOf x.tab p i with
    | some l => !k.portExists d l
    | none => false
  let range := if x.tab = Tab.ALM then true else decide (i < x.count) && !noMonitor x.tab i
  if !range || absent then (0, true)
  else if x.tab = Tab.SEQ_IND then
    (k.pipes.store.get (storeKey d p 0 0 + i) % 2 ^ 236, k.pipes.storeUe.contains (storeKey d p 0 0 + i))
  else if x.tab = Tab.CAT_IND then (k.catSlot d i, false)
  else if x.tab = Tab.FLT_IND then
    let e := k.fltGet d i
    (e.action % 2 ^ 64 + b2n e.valid * 2 ^ 95, false)
  else if x.tab = Tab.SEC_KEYHASH then (entryBytes (fz.keyHash i), false)
  else if x.tab = Tab.SEC_LOG then
    match sec.log[i / 2]? with
    | some e => (entryBytes ((e.drop (64 * (i % 2))).take 64), false)
    | none => (0, true)
  else if x.tab = Tab.SEC_IDKEY then
    if k.rd R.SEC_STATUS_ID_READY 0 0 0 = 0 then (0, true)
    else (entryBytes ((List.range 64).map fun b =>
      if 64 * i + b < 1952 then Config.mldsaPublic (idSeed (k.rd R.SEC_STATUS_DEBUG_ACTIVE 0 0 0 == 1)) (64 * i + b)
      else 0), false)
  else if x.tab = Tab.ALM then
    match k.io.almanac.find? (·.seq == i) with
    | some r => (entryBytes r.bytes, false)
    | none => (0, true)
  else (k.entryRows x.tab w p i, false)

/-! ### What a write of an entry does -/

/-- A transition entry holds a reserved encoding (R208, R247): MARK_OFS 5 to 7, or CONT above 53 or WIDTH 3 in an extract
whose EN is 1. -/
def tcamReserved (v : Nat) : Bool :=
  decide (4 < bits v 118 116) || (List.range 4).any fun j =>
    let x := bits v (150 + 15 * j) (136 + 15 * j)
    bit x 14 == 1 && (decide (53 < bits x 7 2) || decide (bits x 1 0 = 3))

/-- The content that a template's fields take from a write (R248): its length and its eight container fields, reserved bits
zero; a length above 64, or the reserved WIDTH in a field whose EN is 1 (R208), keeps its previous value. Answers the
content and whether a reserved encoding was written. -/
def tplFields (old v : Nat) : Nat × Bool :=
  let len := bits v 6 0
  (List.range 8).foldl (fun (x : Nat × Bool) j =>
    let w := bits v (32 * j + 63) (32 * j + 32)
    let bad := bit w 31 == 1 && w % 4 == 3
    let width := if bad then bits old (32 * j + 33) (32 * j + 32) else w % 4
    (x.1 + (bit w 31 * 2 ^ 31 + bits w 21 16 * 2 ^ 16 + bits w 13 8 * 2 ^ 8 + width) * 2 ^ (32 * j + 32), x.2 || bad))
    (if 64 < len then (bits old 6 0, true) else (len, false))

/-- A Focus slot is not IDLE, or holds member entry `i` in the range of one that is not (R486). -/
def Core.focLocked (k : Core) (d tab i : Nat) : Bool :=
  if tab = Tab.FOC_CTX then k.ctx T.FOC_CTX_STATE d i != 0
  else if tab = Tab.FOC_MBR then !(k.slotsOfMember d i).isEmpty
  else false

/-- The fields of an entry that have commands of their own, written by those operations below. -/
def ownField (f : TFld) : Bool :=
  f == T.PRT_PORT_EN || f == T.PRT_PORT_LSTATE_REQ || f == T.EPH_PORT_EN

/-- Write the writable fields of an entry; a reserved encoding keeps its field and sets CFG_ERR (R25). -/
def Core.entryFields (k : Core) (m : Master) (x : IndWin) (w p i v : Nat) : Core :=
  (tabRows.filter fun r => r.fld.tab == x.tab && r.acc == .rw && !ownField r.fld).foldl (fun k r =>
    let n := v / 2 ^ r.fld.bit % 2 ^ r.fld.width
    if r.min ≤ n ∧ n ≤ r.max then k.tw r.fld w p i n
    else k.cfgErr w (x.page + p) m (x.base + 4)) k

/-- What follows the write of an entry: derived accounts, stops and levels. -/
def Core.entryAfter (k : Core) (old : Core) (x : IndWin) (w p i : Nat) : Core :=
  let d := w - 1
  if x.tab = Tab.BUF_PG then
    let l := i / 8
    let g := i % 8
    let carry (c : Core) : Nat := remainder (c.ingA d l g) (c.ingH d l g) (c.td T.BUF_PG_MIN w 0 i)
    ((k.setCarried d (k.buf.carried.get d + carry k - carry old)).xoffEval d l g).moved d (old.freeCells d)
  else if x.tab = Tab.BUF_Q then (k.queueEval d (i / 16) (i % 16)).moved d (old.freeCells d)
  else if x.tab = Tab.BUF_PORT then (List.range 16).foldl (fun k q => k.queueEval d i q) k
  else if x.tab = Tab.BUF_PFCRX then k.watchPort d i
  else if x.tab = Tab.SHP_Q ∨ x.tab = Tab.SHP_PORT then
    let k1 := { k with egr := { k.egr with dirty := k.egr.dirty ++ [(x.tab, w, p, i)] } }
    if x.tab = Tab.SHP_PORT then k1
    else (k1.idleEval d (old.td T.SHP_Q_RGRP w p i)).idleEval d (k1.td T.SHP_Q_RGRP w p i)
  else if x.tab = Tab.RMP_GRP then k.rampEnable old d i
  else k

/-- A write of RMP_GRP with FLOOR above CEIL, or 0 (R433). -/
def rampRefused (v : Nat) : Bool := decide (bits v 94 64 < bits v 62 32) || bits v 62 32 == 0

/-- The master of an operation, by its ID. -/
def masterOf (id : Nat) : Master :=
  if id < 4 then .pf (Fin.ofNat 4 id) else if id = 4 then .mp else if id = 5 then .debug else .die (Fin.ofNat 8 (id - 8))

/-- Set FAIL and ACC_ERR. -/
def Core.indRefuse (k : Core) (m : Master) (x : IndWin) (w p : Nat) : Core :=
  (k.wr (indFailed x) w p 0 1).accErr w (x.page + p) m (x.base + 4)

/-- The write of a PRT_PORT entry (R565, R566): the plain fields, then LSTATE_REQ and EN as their commands do. -/
def Core.prtWrite (k : Core) (m : Master) (x : IndWin) (w p i v : Nat) : Core :=
  let d := w - 1
  let l := 8 * p + i
  if bit v 31 = 1 ∧ ¬ k.mcReady d p then k.indRefuse m x w p
  else
    let k1 := k.entryFields m x w p i v
    let req := bits v 28 27
    let k2 := if req = k.prt T.PRT_PORT_LSTATE_REQ d l then k1 else k1.laneStateRequest m d l req
    if bit v 31 = 1 then k2.portEnable m d l else k2.portDisable d l []

/-- The write of an entry that exists, by its table. -/
def Core.entryWrite (k : Core) (m : Master) (x : IndWin) (w p i v : Nat) : Core :=
  let d := w - 1
  let fail (k : Core) : Core := k.wr (indFailed x) w p 0 1
  let cfg (k : Core) : Core := k.cfgErr w (x.page + p) m (x.base + 4)
  if x.tab = Tab.SEQ_IND then
    { k with pipes := { k.pipes with
        store := k.pipes.store.set (storeKey d p 0 0 + i) (v % 2 ^ 236)
        storeUe := k.pipes.storeUe.filter (· != storeKey d p 0 0 + i) } }
  else if x.tab = Tab.FLT_IND then k.fltWrite d i (v % 2 ^ 64) (bit v 95 == 1) (bit v 65 == 1)
  else if x.tab = Tab.PRS_TCAM then
    if tcamReserved v then cfg k else k.tw T.PRS_TCAM_ENTRY w p i (bits v 195 136 * 2 ^ 136 + bits v 131 0)
  else if x.tab = Tab.HVX_TPL ∧ 256 ≤ i then
    let r := tplFields (k.td T.HVX_TPL_ENTRY w p i) v
    let k1 := k.tw T.HVX_TPL_ENTRY w p i r.1
    if r.2 then cfg k1 else k1
  else if x.tab = Tab.POL_CTX then
    k.polWrite m d i ((List.range 5).map fun j => v / 2 ^ (32 * j) % 2 ^ 32)
  else if x.tab = Tab.PRT_PORT then k.prtWrite m x w p i v
  else if x.tab = Tab.EPH_PORT then
    if b2n (bit v 31 == 1) = k.td T.EPH_PORT_EN w p i then k else k.ephEnable d p i (bit v 31 == 1)
  else if x.tab = Tab.EPH_LIST ∧ (i / 256 % 2 = k.td T.EPH_PORT_ACTIVE w p (i / 512) ∨
      (k.egr.swapReq ++ k.egr.swapPend).any fun r => r.die == d && r.pipe == p && r.l == i / 512) then k.indRefuse m x w p
  else if k.focLocked d x.tab i then k.indRefuse m x w p
  else if x.tab = Tab.RMP_GRP ∧ rampRefused v then cfg (fail k)
  else if x.tab = Tab.BUF_PORT ∧ 4 < (List.range 16).countP (fun q => bit v q == 1) then cfg k
  else
    let k1 := k.entryFields m x w p i v
    let pool := x.tab = Tab.BUF_PORT ∨ x.tab = Tab.BUF_PG ∨ x.tab = Tab.BUF_Q
    if pool ∧ ¬ k1.poolOk d then cfg k else k1.entryAfter k x w p i

/-- The class of the memory behind a window, when a self-test can run on it (R570, R571). -/
def testClass (tab : Nat) : Option Nat :=
  if tab = Tab.SEQ_IND then some 0
  else if tab = Tab.PRS_TCAM then some 2
  else if tab = Tab.HVX_MCG ∨ tab = Tab.HVX_TPL then some 4
  else if tab = Tab.CAT_IND then some 5
  else if tab = Tab.FLT_IND then some 7
  else if tab = Tab.POL_CTX then some 8
  else if tab = Tab.FOC_CTX ∨ tab = Tab.FOC_MBR then some 10
  else if tab = Tab.EPH_LIST then some 11
  else if tab = Tab.ALM then some 3
  else none

/-- The class of the memory behind a window that has check bits (R99, R570, R571, R721). The class of the log memory is not
stated: the free value of its CE slot. -/
def eccClass (tab : Nat) : Option Nat :=
  if tab = Tab.BUF_VOQ then some 12 else if tab = Tab.SEC_LOG then some (Config.freeValue 0 % 16) else testClass tab

/-- The window's memory is under a self-test: its entries cannot be reached. -/
def Core.underTest (k : Core) (x : IndWin) (w p : Nat) : Bool :=
  match testClass x.tab with
  | some c => k.ras.bists.any fun b => b.w == w && b.cls == c && (!(c ∈ [0, 2, 4, 11]) || w == 0 || b.inst % 8 == p)
  | none => false

/-! ### Operations end -/

/-- The scrub index of an entry of a window within its class (R570). -/
def unitOf (tab i : Nat) : Nat :=
  if tab = Tab.HVX_TPL then 16384 + i else if tab = Tab.FOC_MBR then 512 + i else i

/-- An uncorrectable entry was read (R99, R573): the class counter, the block's event where it has one, and the containment
that R570 gives any read. -/
def Core.indUe (k : Core) (x : IndWin) (w p i : Nat) : Core :=
  match eccClass x.tab with
  | some c =>
    let k1 := k.ueFound w c
    -- a lost Almanac record; the page has no event for it (R749)
    if w = 0 then (if x.tab = Tab.ALM then k1.onIo (·.almLose i) else k1)
    else if c = 12 then k1.voqLost (w - 1) (i / 512) (i / 8 % 64) (i % 8)
    else (match ueEventOf c p with
      | some e => k1.raise w e.1 e.2
      | none => k1).contain (w - 1) c p 1 (unitOf x.tab i) false none
  | none => k

/-- A correctable error of an entry that was read (R572, R573); `act`: in the action store of the filter (R307). -/
def Core.indCe (k : Core) (x : IndWin) (w p i : Nat) (act : Bool) : Core :=
  match eccClass x.tab with
  | some c =>
    if w = 0 then (if x.tab = Tab.SEC_LOG then k.ceFound 0 0xA0 0 c else k.ceFound 0 0xC0 3 c)
    else
      let s := if c = 12 then (0x28, 1) else ceSlotOf c p (unitOf x.tab i) act
      k.ceFound w s.1 s.2 c
  | none => k

/-- The effect of an operation on the entry at IND_ADDR. -/
def Core.indEffect (k : Core) (fz : Fuses) (sec : Sec) (x : IndWin) (op : IndOp) (w p : Nat) (ecc : Ecc)
    (act : Bool) : Core :=
  let m := masterOf op.master
  let i := k.rd (indAddr x) w p 0
  let k0 := k.wr (indFailed x) w p 0 0
  let gone := match laneOf x.tab p i with
    | some l => !k.portExists (w - 1) l
    | none => x.tab == Tab.STB_COMP && !k.portExists (w - 1) i
  if k.underTest x w p then k0.wr (indFailed x) w p 0 1
  else if op.write then
    if x.kind = .ro ∨ x.kind = .cxl then k0.indRefuse m x w p
    else if (decide (x.count ≤ i) || gone) then k0.wr (indFailed x) w p 0 1
    else k0.entryWrite m x w p i (k.indWord x w p)
  else
    let r := k.entryRead fz sec x w p i
    let bad := ecc == .ue && (eccClass x.tab).isSome && !r.2
    let k1 := (k0.putIndData x w p r.1).wr (indFailed x) w p 0 (b2n (r.2 || bad))
    let k2 := if x.tab = Tab.FLT_IND ∧ i < x.count then
        let e := k.fltGet (w - 1) i
        (List.range 10).foldl (fun k j => (k.wr R.FLT_READ_VAL w 0 j (e.value / 2 ^ (32 * j))).wr R.FLT_READ_MASK w 0 j
          (e.mask / 2 ^ (32 * j))) k1
      else k1
    if bad || (x.tab == Tab.SEQ_IND && r.2 && decide (i < x.count)) then k2.indUe x w p i
    else if ecc = .ce ∧ ¬ r.2 then k2.indCe x w p i act
    else k2

/-- A read of region contents reaches its line (R620): the line lies in the region, the region takes requests, and its request
has not ended in error. -/
def Core.cxlReads (k : Core) (op : IndOp) (n : Nat) : Bool :=
  let r := k.rd R.CXL_RD_SEL_REGION 0 0 0
  k.regionOn r && k.cxlUp (k.regionPort r) && decide (n < k.regionLines r) && !(r == 0 && op.master != 4) && !op.refused

/-- A read of region contents (R620): the line, or FAIL when it lies outside the region, the region takes no request, the
read is poisoned, or the region is 0 and the master is not the MP. -/
def Core.cxlEffect (k : Core) (x : IndWin) (op : IndOp) (poisoned : Bool) : Core :=
  let n := k.rd (indAddr x) 0 0 0
  let r := k.rd R.CXL_RD_SEL_REGION 0 0 0
  if op.write then (k.wr (indFailed x) 0 0 0 0).indRefuse (masterOf op.master) x 0 0
  else if ¬ k.cxlReads op n then
    (k.putIndData x 0 0 0).wr (indFailed x) 0 0 0 1
  else
    let k1 := k.answered r op.since
    let y := (if poisoned then k1.poisonLine r n else k1).readLine r n
    (y.1.putIndData x 0 0 y.2.1).wr (indFailed x) 0 0 0 (b2n y.2.2)

/-- An operation ends: BUSY clears, and IND_ADDR moves on under AUTOINC. -/
def Core.indEnd (k : Core) (x : IndWin) (op : IndOp) (w p : Nat) : Core :=
  let k1 := k.onIo fun io => { io with ind := io.ind.erase op }
  if k.rd (indAuto x) w p 0 = 1 then k1.wr (indAddr x) w p 0 (k.rd (indAddr x) w p 0 + 1) else k1

/-- Complete the operation that runs on a window, if one does; a region read waits while its budget has run out. -/
def Core.indDone (k : Core) (fz : Fuses) (sec : Sec) (w tab p : Nat) (ecc : Ecc) (act : Bool) : Core :=
  match winOf tab with
  | none => k
  | some x =>
    match k.io.ind.find? fun o => o.tab == tab && o.win == w && o.page == x.page + p with
    | none => k
    | some op =>
      if x.kind = .cxl then
        if op.write = false ∧ k.cxlReads op (k.rd (indAddr x) 0 0 0) ∧ k.tokens (k.rd R.CXL_RD_SEL_REGION 0 0 0) < 64 then k
        else (k.cxlEffect x op (decide (ecc = .ue))).indEnd x op w p
      else (k.indEffect fz sec x op w p ecc act).indEnd x op w p

/-- IND_OP_COMPLETE (R96 to R99): the operation of a window takes effect; `ecc` says what a read of the
entry finds, and `act` that a correctable error of a filter entry lies in its action store (R307). -/
def execIndOpComplete (w : Fin 9) (tab : Fin 42) (p : Fin 68) (ecc : Ecc) (act : Bool) (s : State) : Host.Outcome State Fault Refusal :=
  done (s.onCore fun k => k.indDone s.fuse s.sec w tab p ecc act)

/-- CXL_RD_READ (R620): the read of region contents in progress returns, with the poison indication or without. -/
def execCxlRdRead (poisoned : Bool) (s : State) : Host.Outcome State Fault Refusal :=
  done (s.onCore fun k => k.indDone s.fuse s.sec 0 Tab.CXL_RD 0 (if poisoned then .ue else .good) false)

/-! ### Changes of the filter table (R304) -/

/-- FLT_IND.IND_DATA as one entry: action, COMMIT_KEY and VALID (R304). -/
def fltWord (action : Nat) (valid commit : Bool) : Nat := action % 2 ^ 64 + b2n commit * 2 ^ 65 + b2n valid * 2 ^ 95

/-- The FLT_IND operation of a broadcast write that has reached die `d`'s window and not yet its entry (R68). -/
def Core.fltLate (k : Core) (m : Master) (d i action : Nat) (valid commit : Bool) : Core :=
  match winOf Tab.FLT_IND with
  | some x =>
    if k.indBusy (dw d) x.page then k.accErr (dw d) x.page m (x.base + 4)
    else ((k.wr (indAddr x) (dw d) 0 0 i).putIndData x (dw d) 0 (fltWord action valid commit)).indCmd m (dw d) x 0 true
      (k.rd (indAuto x) (dw d) 0 0 == 1)
  | none => k

/-- A write of a filter entry: on die `d`, or on every die; a broadcast write is still in progress on the dies of `late`,
whose entry changes when their IND_OP_COMPLETE comes (R59, R68). -/
def State.fltChange (s : State) (m : Master) (d : Nat) (broadcast : Bool) (late : Nat) (i action : Nat)
    (valid commit : Bool) : State :=
  s.writeVia m broadcast d 0x27 0x204 fun k =>
    if broadcast then k.dieList.foldl (fun k x =>
        if bit late x = 1 then k.fltLate m x i action valid commit else k.fltWindow m x i action valid commit) k
    else k.fltWindow m d i action valid commit

/-- FILTER_KEY_COMMIT (R304): an FLT_IND write with COMMIT_KEY takes value, mask and action together. -/
def execFilterKeyCommit (m : Master) (d : Fin 8) (broadcast : Bool) (late : Fin 256) (i : Fin 16384) (action : BitVec 64)
    (valid : Bool) (s : State) : Host.Outcome State Fault Refusal :=
  done (s.fltChange m d broadcast late i action.toNat valid true)

/-- FILTER_ACTION_WRITE (R304): an FLT_IND write without COMMIT_KEY changes only action and VALID. -/
def execFilterActionWrite (m : Master) (d : Fin 8) (broadcast : Bool) (late : Fin 256) (i : Fin 16384) (action : BitVec 64)
    (valid : Bool) (s : State) : Host.Outcome State Fault Refusal :=
  done (s.fltChange m d broadcast late i action.toNat valid false)

end Sys2Proof.Machine
end

