-- ==== Sys2Proof/Machine/RegRules.lean ====
section
/-!
DEFINITION. What registers read as where the value is derived from the state or the fuses, and the rules of single
fields and registers beyond their access type and range (R25, R77, and the block chapters).
-/
namespace Sys2Proof.Machine

/-! ### Derived values -/

/-- The class a CE slot shows; 0 for a slot with no memory. The class of the log memory of page 0x0A0 is not stated: a free
value. -/
def ceClass (w page i : Nat) : Nat :=
  if w = 0 ∧ page = 0xA0 ∧ i = 0 then Config.freeValue 0 % 16
  else match ceMemories.find? fun x => x.1 == (w == 0) && decide (x.2.1 ≤ page ∧ page < x.2.1 + x.2.2.1) && x.2.2.2.1 == i with
    | some x => x.2.2.2.2
    | none => 0

/-- The update engine of a die has work (CAT_STATUS.UPDATE_BUSY). -/
def Core.catBusy (k : Core) (d : Nat) : Bool :=
  k.tables.learns.any (·.die == d) || k.tables.cmds.any (·.die == d) || k.tables.msgs.any fun x => x.dst == some d

/-- Catalogue slots in use on a die (CAT_OCC). -/
def Core.catOcc (k : Core) (d : Nat) : Nat :=
  k.tables.ents.foldl (fun n e => if e.die = d then n + (if e.wide then 2 else 1) else n) 0

/-- A value of the head Catalogue response of a die, 0 when none waits (R311). -/
def Core.catHead (k : Core) (d : Nat) (f : CatRsp → Nat) : Nat := ((k.tables.rsps.find? (·.die == d)).map f).getD 0

/-- A value of the head LPM response of a die, 0 when none waits (R300). -/
def Core.lpmHead (k : Core) (d : Nat) (f : LpmRsp → Nat) : Nat := ((k.tables.lpmRsps.find? (·.die == d)).map f).getD 0

/-- 64 flags as a number. -/
def flags64 (f : Nat → Bool) : Nat := (List.range 64).foldl (fun n i => if f i then n + 2 ^ i else n) 0

/-- Cells charged to the landing pools of a die (BUF_LAND_USED). -/
def Core.landUsed (k : Core) (d : Nat) : Nat :=
  k.buf.groups.foldl (fun n g => if g.die = d ∧ g.landing.isSome then n + g.cells else n) 0

/-- Deep lookups outstanding on a die (CAT_DEEP_OUT). -/
def Core.deepOut (k : Core) (d : Nat) : Nat :=
  min 256 (k.pipes.pkts.countP fun p => p.die == d && (match p.deep with | .issued _ _ => true | _ => false))

/-- The coefficients a lane transmits with (R526, R540): those its training set, unless TXEQ_MAN is 1; as a word. -/
def Core.txeqInUse (k : Core) (w o l : Nat) : Option Nat :=
  let t := k.link.txeq.get ((w - 1) * 256 + 8 * o + l)
  if k.rd R.LAN_LANE_CFG_TXEQ_MAN w o l = 1 ∨ t = 0 then none else some (t - 1)

/-- A part of the coefficients in use of a lane, or of LAN_TXEQ as written. -/
def Core.txeqShown (f : Fld) (k : Core) (_ : Fuses) (w p i : Nat) : Nat :=
  match k.txeqInUse w p i with
  | some v => bits v f.hi f.lo
  | none => k.rd f w p i

/-- The halves of a number. -/
def lo32 (v : Nat) : Nat := v % 2 ^ 32
/-- The upper half. -/
def hi32 (v : Nat) : Nat := v / 2 ^ 32 % 2 ^ 32

/-- The fields whose value is derived, with how: header fields, fuses, occupancies, queues and times. -/
def derivedHead : List (Fld × (Core → Fuses → Nat → Nat → Nat → Nat)) :=
  [(R.PAGE_ID_BLOCK, fun _ _ w p _ => ((blockOf w p).map (·.1)).getD 0),
   (R.PAGE_ID_WINDOW, fun _ _ w _ _ => w), (R.PAGE_ID_INDEX, fun _ _ _ p _ => p),
   (R.PAGE_VERSION_MAJOR, fun _ _ _ _ _ => 1), (R.PAGE_VERSION_MINOR, fun _ _ _ _ _ => 0),
   (R.PAGE_STATUS_BUSY, fun k _ w p _ => b2n (k.indBusy w p)),
   (R.EVT_ROUTE_HAS_SOURCE, fun _ _ w p _ => b2n (blockOf w p).isSome), (R.EVT_ROUTE_SOURCE, fun _ _ w p _ => sourceOf w p),
   (R.PAGE_CE_CFG_LEAK_MS, fun k _ w p i => if ceSlot w p i then k.rd R.PAGE_CE_CFG_LEAK_MS w p i else 0),
   (R.PAGE_CE_CFG_DEPTH, fun k _ w p i => if ceSlot w p i then k.rd R.PAGE_CE_CFG_DEPTH w p i else 0),
   (R.PAGE_CE_STAT_CLASS, fun _ _ w p i => ceClass w p i),
   (R.PAG_PART_PORT_DIES, fun _ z _ _ _ => z.part.dies), (R.PAG_PART_STEPPING, fun _ z _ _ _ => z.part.stepping),
   (R.PAG_PART_FAMILY, fun _ _ _ _ _ => 0x4E), (R.PAG_DIEMAP_POPULATED, fun _ z _ _ _ => 2 ^ z.part.dies - 1),
   (R.PAG_SERIAL_LO, fun _ z _ _ _ => z.part.serialLo), (R.PAG_SERIAL_HI, fun _ z _ _ _ => z.part.serialHi),
   (R.PAG_ACCESS_MAP_RIGHTS, fun _ z _ _ i => z.matrix.getD i 0),
   (R.PAG_DIE_INDEX, fun _ _ w _ _ => w - 1), (R.PAG_DIE_CORNER, fun _ _ w _ _ => b2n (decide (4 ≤ w - 1))),
   (R.M_RAS_FUSE_STAT_REPAIRS, fun _ z w _ _ => (z.repairs.filter fun e => mapWin e == w).length),
   (R.RAS_FUSE_STAT_REPAIRS, fun _ z w _ _ => (z.repairs.filter fun e => mapWin e == w).length),
   (R.SEC_FUSE_DEBUG_OFF, fun _ z _ _ _ => b2n z.debugOff), (R.SEC_FUSE_MATRIX_LOCK, fun _ z _ _ _ => b2n z.matrixLock),
   (R.SEC_FUSE_OWNER_REVOKED, fun _ z _ _ _ => z.ownerRevoked), (R.SEC_FUSE_OWNER_VALID, fun _ z _ _ _ => z.ownerValid),
   (R.SEC_FUSE_VENDOR_REVOKED, fun _ z _ _ _ => z.vendorRevoked), (R.SEC_FUSE_VENDOR_VALID, fun _ z _ _ _ => z.vendorValid),
   (R.SEC_RB_OWNER_SVN, fun _ z _ _ _ => z.ownerRb), (R.SEC_RB_VENDOR_SVN, fun _ z _ _ _ => z.vendorRb),
   (R.CNT_USER_CFG_FUSED_OFF, fun _ z _ _ _ => b2n z.userOff)]

/-- Derived values of the blocks of the Meridian die. -/
def derivedMeridian : List (Fld × (Core → Fuses → Nat → Nat → Nat → Nat)) :=
  [(R.EVT_VEC_ACTIVE_LO, fun k _ _ _ _ => lo32 (flags64 k.vecActive)),
   (R.EVT_VEC_ACTIVE_HI, fun k _ _ _ _ => hi32 (flags64 k.vecActive)),
   (R.LCK_HELD_LO, fun k _ _ _ _ => lo32 (flags64 k.lockHeld)), (R.LCK_HELD_HI, fun k _ _ _ _ => hi32 (flags64 k.lockHeld)),
   (R.LCK_BREAK_LO, fun k _ _ _ _ => lo32 (flags64 k.lockHeld)), (R.LCK_BREAK_HI, fun k _ _ _ _ => hi32 (flags64 k.lockHeld)),
   (R.MER_ACTIVE_PORTS, fun k _ _ _ _ => 8 * k.part.dies),
   (R.STB_CYCLE_LO, fun k _ _ _ _ => lo32 k.time.cycle), (R.STB_CYCLE_HI, fun k _ _ _ _ => hi32 k.time.cycle),
   (R.STB_CYC_PHASE, fun k _ _ _ _ => k.time.phase),
   (R.STB_TOD_SUBNS, fun k _ _ _ _ => (timeWords k.time.tod).getD 0 0),
   (R.STB_TOD_NS, fun k _ _ _ _ => (timeWords k.time.tod).getD 1 0),
   (R.STB_TOD_SEC_LO, fun k _ _ _ _ => (timeWords k.time.tod).getD 2 0),
   (R.STB_TOD_SEC_HI, fun k _ _ _ _ => (timeWords k.time.tod).getD 3 0),
   (R.CXL_REG_BUDGET_GBPS, fun k _ w p i => if i = 0 then 50 else k.rd R.CXL_REG_BUDGET_GBPS w p i),
   -- between edges the level of a reference input is the board's
   (R.PAG_PINS_MAINS, fun k _ _ _ _ => k.pinLevel k.time.mainsEdge 0),
   (R.PAG_PINS_PPS, fun k _ _ _ _ => k.pinLevel k.time.ppsEdge 1),
   (R.CXL_PORT_LAT_MEAN_NS, fun k _ _ p _ => k.meanLatency p),
   (R.M_PMU_CFG_DROOP_MV, fun _ _ _ _ _ => 0), (R.M_PMU_STATUS_B, fun _ _ _ _ _ => 0), (R.M_PMU_FREQ_MHZ, fun _ _ _ _ _ => 0),
   (R.M_SHN_SPARE_STAT_FREE, fun k _ w p _ => 0xFFFFF - k.rd R.M_SHN_SPARE_STAT_FREE w p 0)]

/-- SEQ_STALL_CCLK as it reads: what has been counted and what a stall in progress adds (R160). -/
def Core.stallTotal (k : Core) (w p : Nat) : Nat :=
  (k.rd R.SEQ_STALL_CCLK_HI w p 0 * 2 ^ 32 + k.rd R.SEQ_STALL_CCLK_LO w p 0 + k.stallCclk (w - 1) p) % 2 ^ 64

/-- Derived values of the blocks of a port die. -/
def derivedPort : List (Fld × (Core → Fuses → Nat → Nat → Nat → Nat)) :=
  [(R.SEQ_STALL_CCLK_LO, fun k _ w p _ => lo32 (k.stallTotal w p)), (R.SEQ_STALL_CCLK_HI, fun k _ w p _ => hi32 (k.stallTotal w p)),
   (R.SEQ_PARK_STAT_PEAK, fun k _ w p _ => max (k.rd R.SEQ_PARK_STAT_PEAK w p 0) (k.rd R.SEQ_PARK_STAT_USED w p 0)),
   (R.SEQ_OLD_USE_INGRESS, fun k _ w p _ => k.oldUse (w - 1) p false),
   (R.SEQ_OLD_USE_EGRESS, fun k _ w p _ => k.oldUse (w - 1) p true),
   (R.LPM_OCC_UNITS, fun k _ w _ _ => k.lpmUnits (w - 1)),
   (R.LPM_CMD_QSTAT_FREE, fun k _ w _ _ => 8 - k.tables.lpmCmds.countP (·.die == w - 1)),
   (R.LPM_CMD_QSTAT_RSP, fun k _ w _ _ => k.tables.lpmRsps.countP (·.die == w - 1)),
   (R.LPM_RSP_HDR_TAG, fun k _ w _ _ => k.lpmHead (w - 1) (·.tag)),
   (R.LPM_RSP_HDR_STATUS, fun k _ w _ _ => k.lpmHead (w - 1) (·.status)),
   (R.LPM_RSP_HDR_LEN, fun k _ w _ _ => k.lpmHead (w - 1) (·.len)),
   (R.LPM_RSP_DATA_LO, fun k _ w _ _ => lo32 (k.lpmHead (w - 1) (·.data))),
   (R.LPM_RSP_DATA_HI, fun k _ w _ _ => hi32 (k.lpmHead (w - 1) (·.data))),
   (R.CAT_OCC_SLOTS, fun k _ w _ _ => k.catOcc (w - 1)), (R.CAT_STATUS_UPDATE_BUSY, fun k _ w _ _ => b2n (k.catBusy (w - 1))),
   (R.CAT_CMD_STAT_FREE, fun k _ w _ _ => 16 - k.tables.cmds.countP (·.die == w - 1)),
   (R.CAT_CMD_STAT_RSP, fun k _ w _ _ => k.tables.rsps.countP (·.die == w - 1)),
   (R.CAT_RSP_HDR_TAG, fun k _ w _ _ => k.catHead (w - 1) (·.tag)),
   (R.CAT_RSP_HDR_STATUS, fun k _ w _ _ => k.catHead (w - 1) (·.status)),
   (R.CAT_RSP_HDR_HOME, fun k _ w _ _ => k.catHead (w - 1) (·.home)),
   (R.CAT_RSP_HDR_STATIC, fun k _ w _ _ => k.catHead (w - 1) fun r => b2n r.static),
   (R.CAT_RSP_HDR_KEY256, fun k _ w _ _ => k.catHead (w - 1) fun r => b2n r.wide),
   (R.CAT_RSP_HDR_HIT, fun k _ w _ _ => k.catHead (w - 1) fun r => b2n r.hit),
   (R.CAT_RSP_KEY, fun k _ w _ i => k.catHead (w - 1) fun r => r.key / 2 ^ (32 * i) % 2 ^ 32),
   (R.CAT_RSP_DATA_LO, fun k _ w _ _ => lo32 (k.catHead (w - 1) (·.data))),
   (R.CAT_RSP_DATA_HI, fun k _ w _ _ => hi32 (k.catHead (w - 1) (·.data))),
   (R.CAT_RSP_CURSOR, fun k _ w _ _ => k.catHead (w - 1) (·.cursor)),
   (R.CAT_RSP_REMOVED, fun k _ w _ _ => k.catHead (w - 1) (·.removed)), (R.CAT_DEEP_OUT, fun k _ w _ _ => k.deepOut (w - 1)),
   (R.BUF_POOL_SHARED_CELLS, fun k _ w _ _ => k.sharedSize (w - 1)),
   (R.BUF_POOL_FREE_CELLS, fun k _ w _ _ => k.freeCells (w - 1)),
   (R.BUF_SPILL_CELLS_LO, fun k _ w _ _ => lo32 (k.spillCellsOf (w - 1))),
   (R.BUF_SPILL_CELLS_HI, fun k _ w _ _ => hi32 (k.spillCellsOf (w - 1))),
   (R.BUF_LAND_USED_CELLS, fun k _ w _ _ => k.landUsed (w - 1)),
   (R.LAN_LANE_STAT_SLICE, fun k _ w p i =>
     let v := k.rd R.LAN_LANE_STAT_SLICE w p i
     if v = 0 then 8 * p + i else v),
   (R.LAN_LANE_STAT_SIGNAL, fun k _ w p i => k.laneShown 0 w p i), (R.LAN_LANE_STAT_CDR_LOCK, fun k _ w p i => k.laneShown 1 w p i),
   (R.LAN_LANE_STAT_ADAPTED, fun k _ w p i => k.laneShown 2 w p i), (R.LAN_OCT_STATUS_PLL_LOCK, fun k _ w p _ => k.pllShown w p),
   (R.LAN_RTC_STAT_POINTS, fun k _ w p _ => k.scanProgress w p),
   (R.LAN_SPARE_STAT_POOL_FREE, fun k _ w _ _ => 0xFF - k.rd R.LAN_SPARE_STAT_POOL_FREE w 0 0),
   (R.LAN_TXEQ_PRE2, Core.txeqShown R.LAN_TXEQ_PRE2), (R.LAN_TXEQ_PRE1, Core.txeqShown R.LAN_TXEQ_PRE1),
   (R.LAN_TXEQ_MAIN, Core.txeqShown R.LAN_TXEQ_MAIN), (R.LAN_TXEQ_POST1, Core.txeqShown R.LAN_TXEQ_POST1),
   (R.SHN_SPARE_STAT_FREE, fun k _ w p _ => 0xFFFFF - k.rd R.SHN_SPARE_STAT_FREE w p 0)]

/-- What a field reads as at window, repeated page and index: SEC_MEAS_ACC shows the accumulator, some fields are derived,
the others hold what was written. -/
def Core.shown (k : Core) (fz : Fuses) (sec : Sec) (f : Fld) (w p i : Nat) : Nat :=
  if f = R.SEC_MEAS_ACC then leNat ((sec.acc.drop (4 * i)).take 4)
  else match (derivedHead ++ (if w = 0 then derivedMeridian else derivedPort)).find? (·.1 == f) with
    | some x => x.2 k fz w p i % 2 ^ f.width
    | none => k.rd f w p i

/-! ### Rules of single fields and registers -/

/-- What becomes of the write of a field: it takes effect, or the field keeps its value, in silence or with CFG_ERR or
ACC_ERR. -/
inductive Rule where
  | take
  | keep
  | cfg
  | acc
  deriving DecidableEq, Repr

/-- The package power of the part in W (R1). -/
def Core.tdp (k : Core) : Nat := if k.part.dies = 2 then 900 else if k.part.dies = 4 then 1750 else 3400

/-- An event number of R755 on a window's die. -/
def eventOk (w e : Nat) : Bool :=
  let n := e % 4096
  match e / 4096 with
  | 0 => decide (n < 2)
  | 1 => w != 0 && decide (n < 8)
  | 2 => w != 0 && decide (n < 7)
  | 3 => w != 0 && decide (n < 7)
  | 4 => w == 0 && decide (n < 6)
  | 5 => w != 0 && decide (n < 4)
  | 6 => w != 0 && decide (n < 5)
  | 7 => w != 0 && decide (n < 3)
  | 8 => decide (n < 2)
  | 9 => decide (n < 2)
  | 10 => w == 0 && decide (n < 3)
  | 11 => w == 0 && decide (n < 3)
  | _ => false

/-- Refuse a change of a field while a bit stands; a write of the value it has is no change. -/
def whileOn (on : Bool) (old v : Nat) (r : Rule) : Rule := if on && old != v then r else .take

/-- The rule of a field beyond its range, from the block chapters. -/
def Core.specialRule (k : Core) (m : Master) (f : Fld) (w p i v : Nat) : Rule :=
  let old := k.rd f w p i
  if f = R.PMU_CAP_SUST_WATTS then (if 100 ≤ v ∧ v ≤ k.tdp then .take else .cfg)
  else if f = R.PMU_CAP_FAST_WATTS then (if 100 ≤ v ∧ v * 2 ≤ k.tdp * 3 then .take else .cfg)
  else if f = R.MBX_REQ then
    let st := k.rd R.MBX_STATUS_STATE 0 p 0
    if m.id = senderId p ∧ st ∈ [0, 3, 4, 5] then .take else .acc
  else if f = R.SEC_MEAS_EXT then (if m = .mp then .take else .acc)
  else if f = R.CNT_USER_CFG_EN then (if m = .pf 0 then .take else .acc)
  else if f = R.HVX_CFG_DEF_KIND then (if v = 4 ∨ v = 7 then .take else .cfg)
  else if f = R.CNT_CFG_EVENT ∨ f = R.M_CNT_CFG_EVENT then
    if eventOk w v then whileOn (k.rd (cntFld w R.M_CNT_CFG_EN R.CNT_CFG_EN) w 0 i == 1) old v .cfg else .cfg
  else if f = R.CNT_CFG_FILTER ∨ f = R.M_CNT_CFG_FILTER ∨ f = R.CNT_CFG_FILTER_EN ∨ f = R.M_CNT_CFG_FILTER_EN then
    whileOn (k.rd (cntFld w R.M_CNT_CFG_EN R.CNT_CFG_EN) w 0 i == 1) old v .cfg
  else if f = R.FOC_CFG_EN then (if v = 1 ∧ k.rd R.FOC_SEQ_READY w 0 0 = 0 then .acc else .take)
  else if f = R.CAT_CFG_HASH_SEED then (if k.tables.ents.any (·.die == w - 1) then .acc else .take)
  else if f = R.CXL_REG_DPA_BASE ∨ f = R.CXL_REG_SIZE then (if k.rd R.CXL_REG_EN 0 0 i = 1 then .cfg else .take)
  else if f = R.STB_STEP_NS then (if (signed v).natAbs ≤ 999999999 then .take else .cfg)
  else .take

/-- The rule of a field: an unused CE slot takes no write (R82); its reserved encodings (R25), then its own. -/
def Core.fieldRule (k : Core) (m : Master) (r : RegRow) (w p i v : Nat) : Rule :=
  if (r.fld = R.PAGE_CE_CFG_LEAK_MS ∨ r.fld = R.PAGE_CE_CFG_DEPTH) ∧ ceSlot w p i = false then .keep
  else if v < r.min ∨ r.max < v then .cfg else k.specialRule m r.fld w p i v

/-- The rule of a register written as a whole, once its fields are written (`k1`): the pool checks of R318, the back-off
order of R565, region 0 (R624). -/
def Core.wholeRule (k k1 : Core) (m : Master) (w page off : Nat) : Rule :=
  if w ≠ 0 ∧ ((8 ≤ page ∧ page < 16 ∧ off = R.SEQ_PARK_POOL_CELLS.off) ∨ (page = 0x28 ∧
      off ∈ [R.BUF_POOL_HDRM_CELLS.off, R.BUF_SPILL_CFG_EN.off, R.BUF_SPILL_RSV_FETCH_CELLS.off])) then
    if k1.poolOk (w - 1) then .take else .cfg
  else if w ≠ 0 ∧ 0xA0 ≤ page ∧ page < 0xC0 ∧ off = R.PRT_BACKOFF_MAX_MS.off then
    if k1.rd R.PRT_BACKOFF_BASE_MS w (page - 0xA0) 0 ≤ k1.rd R.PRT_BACKOFF_MAX_MS w (page - 0xA0) 0 then .take else .cfg
  else if w = 0 ∧ page = 0x93 ∧ 0x100 ≤ off ∧ off < 0x120 ∧ m ≠ .mp then .acc
  else if w = 0 ∧ 0xB0 ≤ page ∧ page < 0xB4 ∧ 0x400 ≤ off then
    -- a ring is moved only while its queue is off, to a 64-byte boundary (R743)
    let p := page - 0xB0
    let q := (off - 0x400) / 32
    if off % 32 = 4 then
      if k.rd R.HQ_CFG_EN 0 p q = 1 ∨ k.io.hold.get (m.id * 2 ^ 29 + regAddr w page (off - 4)) % 64 ≠ 1 ∧
          k.io.hold.get (m.id * 2 ^ 29 + regAddr w page (off - 4)) ≠ 0 then .cfg else .take
    else if off % 32 = 8 then
      -- an active queue's configuration is changed only by a write that clears EN (R743)
      if k.rd R.HQ_CFG_EN 0 p q = 1 ∧ k1.rd R.HQ_CFG_EN 0 p q = 1 then .cfg else .take
    else .take
  else .take

/-- What follows a register write: clearing an error bit lowers the raw bit that follows it (R83); RWD_HOLD written 1 holds
the writes of the page that wait, written 0 it lets them wait for the next boundary (R82). -/
def Core.afterWrite (k old : Core) (w page off : Nat) : Core :=
  if off = 0x00C then
    let k1 := if k.rd R.PAGE_STATUS_CFG_ERR w page 0 = 0 then k.onIo (·.lowerLevel w page 30) else k
    if k1.rd R.PAGE_STATUS_ACC_ERR w page 0 = 0 then k1.onIo (·.lowerLevel w page 29) else k1
  else if off = 0x008 then
    k.onIo fun io => { io with rwd := io.rwd.map fun r =>
      if r.win = w ∧ r.page = page then { r with held := io.rd R.PAGE_CTRL_RWD_HOLD w page 0 == 1 } else r }
  else if w ≠ 0 ∧ 8 ≤ page ∧ page < 16 ∧ off = R.SEQ_SWFLAG_FLAG.off then
    -- packets parked on a flag that reads 1 become ready, whatever becomes of the flag (R195)
    let flags := k.rd R.SEQ_SWFLAG_FLAG w (page - 8) 0
    { k with pipes := { k.pipes with pkts := k.pipes.pkts.map fun x =>
        match x.place with
        | .parked wsel _ _ =>
          if x.die = w - 1 ∧ x.pipe = page - 8 ∧ 0x10 ≤ wsel ∧ bit flags (wsel - 0x10) = 1 then
            { x with flagSeen := true } else x
        | _ => x } }
  else if w ≠ 0 ∧ 0x80 ≤ page ∧ page < 0xA0 ∧ 0x110 ≤ off ∧ off < 0x130 then
    -- LAN_LANE_CFG: the precoding of the lane (R530)
    k.precodeLane (w - 1) (8 * (page - 0x80) + (off - 0x110) / 4)
  else if w ≠ 0 ∧ page = 0x28 ∧ off = 0x118 then
    -- BUF_SPILL_CFG: the queues of the bulk class of before and of now, and F (R373, R374, R381, R390)
    let d := w - 1
    let tcs := [old.rd R.BUF_SPILL_CFG_TC w 0 0, k.rd R.BUF_SPILL_CFG_TC w 0 0]
    ((k.portsOf d).foldl (fun k l => tcs.foldl (fun k t => k.queueEval d l (k.qmap d (l / 32) t)) k) k).moved d (old.freeCells d)
  else if w ≠ 0 ∧ (page = 0x28 ∧ (off = 0x100 ∨ off = 0x11C) ∨ 8 ≤ page ∧ page < 16 ∧ off = R.SEQ_PARK_POOL_CELLS.off) then
    k.moved (w - 1) (old.freeCells (w - 1))
  else if w ≠ 0 ∧ page = 0x28 ∧ off = 0x114 then
    -- BUF_STOP_CFG: the stops under the new hysteresis
    ((k.listed T.BUF_Q_STOPPED w).map (·.2)).foldl (fun k a => k.queueEval (w - 1) (a / 16) (a % 16)) k
  else if w ≠ 0 ∧ 0x18 ≤ page ∧ page < 0x20 ∧ off = R.HVX_QMAP_Q.off then
    -- HVX_QMAP: which queues are bulk queues, and the multicast stops as the die sees its own (R344, R373)
    let d := w - 1
    let p := page - 0x18
    (((k.portsOf d).filter (· / 32 == p)).foldl (fun k l =>
      [old, k].foldl (fun k' c => k'.queueEval d l (c.qmap d p (k.rd R.BUF_SPILL_CFG_TC w 0 0))) k) k).seeMcStops d d p
  else k

/-- The low registers of the 64-bit values that are written (R94), the staging registers of the table commands among them
(R300, R311). -/
def writable64 : List Fld :=
  [R.HQ_BASE_LO, R.M_CNT_VAL_LO, R.CNT_VAL_LO, R.LPM_CMD_DATA_LO, R.CAT_CMD_DATA_LO, R.CAT_CMD_DMASK_LO]

end Sys2Proof.Machine
end

