-- ==== Sys2Proof/Machine/Access.lean ====
section
/-!
DEFINITION. The commands that access the register space (R69 to R99): plain register writes by access type, accesses to
absent or reserved places, the broadcast window, 64-bit values, RWD fields and their hold, and page owners.
-/
namespace Sys2Proof.Machine

/-! ### Finding the fields of a register -/

/-- The row's window kind covers the window. -/
def winCovers (wk : WinKind) (w : Nat) : Bool :=
  match wk with
  | .meridian => w == 0
  | .port => w != 0
  | .every => true

/-- Where a row's field stands when it lies in the register at window, page and offset: its repeated page and array
index. -/
def rowAt (r : RegRow) (w page off : Nat) : Option (Nat × Nat) :=
  let f := r.fld
  let hasPage := match r.win with
    | .every => true
    | _ => decide (f.page ≤ page ∧ page < f.page + r.pages)
  let i := if f.stride = 0 then 0 else (off - f.off) / f.stride
  if winCovers r.win w && hasPage && decide (f.off ≤ off) && decide (off = f.off + f.stride * i) && decide (i < r.count)
  then some (page - f.page, i) else none

/-- The fields of a register, each with its row, repeated page and index. -/
def fieldsAt (w page off : Nat) : List (RegRow × Nat × Nat) :=
  regRows.filterMap fun r => (rowAt r w page off).map fun x => (r, x)

/-! ### Reading (R77, R79, R93) -/

/-- A register of an indirect window as it reads (R95); 0 elsewhere. -/
def Core.indReg (k : Core) (w page off : Nat) : Nat :=
  match indAt w page off with
  | none => 0
  | some (x, p, o) =>
    if o = 0 then k.rd (indAddr x) w p 0
    else if o = 4 then k.rd (indAuto x) w p 0 * 256
    else if o = 8 then k.rd (indFailed x) w p 0 * 2 + b2n (k.indBusy w page)
    else if 0x40 ≤ o then k.rd (indData x) w p ((o - 0x40) / 4)
    else 0

/-- What a register reads as (R77): WO and reserved bits are zero, an RWD field shows the last value written. -/
def Core.readWord (k : Core) (fz : Fuses) (sec : Sec) (w page off : Nat) : Nat :=
  (fieldsAt w page off).foldl (fun n x =>
    let (r, p, i) := x
    let v := match r.acc with
      | .wo => 0
      | .rwd => match k.io.rwd.find? (·.key == r.fld.key w p i) with
        | some e => e.value
        | none => k.shown fz sec r.fld w p i
      | _ => k.shown fz sec r.fld w p i
    n + v * 2 ^ r.fld.lo) (k.indReg w page off)

/-- A value read by a master. -/
def Core.readOut (k : Core) (m : Master) (addr v : Nat) : Core := k.emit (.readData m.id addr v)

/-- The low and high fields of the 64-bit values (R93). -/
def pairs64 : List (Fld × Fld) :=
  [(R.PAG_SERIAL_LO, R.PAG_SERIAL_HI), (R.LPM_CMD_DATA_LO, R.LPM_CMD_DATA_HI), (R.CAT_CMD_DATA_LO, R.CAT_CMD_DATA_HI),
   (R.CAT_CMD_DMASK_LO, R.CAT_CMD_DMASK_HI), (R.SEQ_STALL_CCLK_LO, R.SEQ_STALL_CCLK_HI),
   (R.LPM_RSP_DATA_LO, R.LPM_RSP_DATA_HI),
   (R.CAT_RSP_DATA_LO, R.CAT_RSP_DATA_HI), (R.BUF_SPILL_CELLS_LO, R.BUF_SPILL_CELLS_HI),
   (R.MER_PTIME_LO, R.MER_PTIME_HI), (R.STB_CYCLE_LO, R.STB_CYCLE_HI),
   (R.CXL_PORT_RD_BYTES_LO, R.CXL_PORT_RD_BYTES_HI), (R.CXL_PORT_WR_BYTES_LO, R.CXL_PORT_WR_BYTES_HI),
   (R.M_PMU_THR_US_LO, R.M_PMU_THR_US_HI), (R.PMU_THR_US_LO, R.PMU_THR_US_HI),
   (R.M_PMU_AGE_CEIL_US_LO, R.M_PMU_AGE_CEIL_US_HI), (R.PMU_AGE_CEIL_US_LO, R.PMU_AGE_CEIL_US_HI),
   (R.HQ_BASE_LO, R.HQ_BASE_HI), (R.CNT_INVDEST_LO, R.CNT_INVDEST_HI),
   (R.M_CNT_VAL_LO, R.M_CNT_VAL_HI), (R.CNT_VAL_LO, R.CNT_VAL_HI)]

/-- The 64-bit value whose low (or high) register stands at a place: the two fields, repeated page and index. -/
def pairAt (high : Bool) (w page off : Nat) : Option (Fld × Fld × Nat × Nat) :=
  ((fieldsAt w page off).findSome? fun x =>
    (pairs64.find? fun q => (if high then q.2 else q.1) == x.1.fld).map fun q => (q.1, q.2, x.2.1, x.2.2))

/-- The place of a half in the latches and holds of a master. -/
def halfKey (m : Master) (addr : Nat) : Nat := m.id * 2 ^ 29 + addr

/-- The offsets whose registers a read at this place latches for the master: the high half of a 64-bit value (R93), or the
other three words of a time read at its SUBNS (R445). -/
def latchedBy (w page off : Nat) : List Nat :=
  if (pairAt false w page off).isSome then [off + 4]
  else if w = 0 ∧ page = 0x70 ∧ off ∈ [0x150, 0x170, 0x180] then [off + 4, off + 8, off + 12]
  else []

/-- The free values that a read of a register draws: the levels of the reference inputs in PAG_PINS, and the lock bits of a
lane and its octet while no command has told of its signal (log 145). -/
def freeBits (w page off : Nat) : Nat :=
  if w = 0 ∧ page = 0 ∧ off = 0x208 then 2
  else if (fieldsAt w page off).any fun x => x.1.fld == R.LAN_LANE_STAT_SIGNAL || x.1.fld == R.LAN_OCT_STATUS_PLL_LOCK then 4
  else 0

/-- A register read by a master that may (R77, R79, R93): the latched value if one waits, else the live one; what the read
latches; RC fields clear. A lock register is acquired as R112 says. -/
def Core.readReg (k : Core) (fz : Fuses) (sec : Sec) (m : Master) (w page off : Nat) : Core :=
  if w = 0 ∧ page = 4 ∧ 0x100 ≤ off ∧ off < 0x200 then k.lockRead m ((off - 0x100) / 4)
  else
    let key := halfKey m (regAddr w page off)
    let held := k.io.latch.get key
    let v := if held = 0 then k.readWord fz sec w page off else held - 1
    let k1 := k.onIo fun io => { io with latch := io.latch.set key 0 }
    let k2 := (latchedBy w page off).foldl (fun (k2 : Core) o => k2.onIo fun io =>
      { io with latch := io.latch.set (halfKey m (regAddr w page o)) (k.readWord fz sec w page o + 1) }) k1
    let k3 := (fieldsAt w page off).foldl (fun k x =>
      if x.1.acc = .rc then k.wr x.1.fld w x.2.1 x.2.2 0 else k) k2
    let k4 := k3.onTime fun t => { t with draws := t.draws + freeBits w page off }
    k4.readOut m (regAddr w page off) v

/-! ### Writing (R25, R77, R78) -/

/-- Queue an RWD write: a later one before the boundary replaces it (R78); the page shows it waits. -/
def Core.queueRwd (k : Core) (w page : Nat) (f : Fld) (p i v : Nat) : Core :=
  let key := f.key w p i
  let e : RwdWrite := ⟨w, page, key, f.width, f.rst, v, k.rd R.PAGE_CTRL_RWD_HOLD w page 0 == 1⟩
  ({ k with io := { k.io with rwd := k.io.rwd.filter (fun (x : RwdWrite) => x.key != key) ++ [e] } }).wr
    R.PAGE_STATUS_RWD_PENDING w page 0 1

/-- The RW fields beside a GO bit: a write with GO 1 is a command, and writes them too; with GO 0 they are plain fields. -/
def goFields : List Fld :=
  [R.LAN_RTC_CMD_LANE, R.LAN_RTC_CMD_DWELL, R.LAN_RTC_CMD_FULL, R.LAN_SPARE_CMD_LANE, R.LAN_SPARE_CMD_SPARE,
   R.M_RAS_BIST_CMD_CLASS, R.RAS_BIST_CMD_CLASS, R.M_RAS_BIST_CMD_INST, R.RAS_BIST_CMD_INST, R.M_SHN_SPARE_CMD_BUNDLE,
   R.SHN_SPARE_CMD_BUNDLE, R.M_SHN_SPARE_CMD_WIRE, R.SHN_SPARE_CMD_WIRE, R.M_SHN_SPARE_CMD_SPARE, R.SHN_SPARE_CMD_SPARE,
   R.POL_CLR_INDEX, R.CNT_PSTAT_CLR_PORT]

/-- The write of one field of a register, by its access type; a reserved encoding keeps the field and sets CFG_ERR. `k0` is
the core before any field of the write: the rules of the fields look at that. -/
def Core.writeField (k0 k : Core) (m : Master) (w page off : Nat) (x : RegRow × Nat × Nat) (word : Nat) : Core :=
  let (r, p, i) := x
  let f := r.fld
  let v := bits word f.hi f.lo
  let old := k.rd f w p i
  if r.own && !(f ∈ goFields && bit word 31 == 0) then k
  else match r.acc with
    | .ro | .rc | .fz =>
      -- the MP writes reply words of a channel it has taken (R734)
      if f = R.MBX_RSP ∧ m = .mp ∧ k.rd R.MBX_STATUS_STATE 0 p 0 = 2 then k.wr f w p i v else k
    | .w1c => k.wr f w p i (old - (old &&& v))
    | .w1s => k.wr f w p i (old ||| v)
    | .rw | .wo =>
      match k0.fieldRule m r w p i v with
      | .take => k.wr f w p i v
      | .keep => k
      | .cfg => k.cfgErr w page m off
      | .acc => k.accErr w page m off
    | .rwd =>
      match k0.fieldRule m r w p i v with
      | .take => k.queueRwd w page f p i v
      | .keep => k
      | .cfg => k.cfgErr w page m off
      | .acc => k.accErr w page m off

/-- A write of an indirect-window register (R95, R97): discarded with ACC_ERR while the page is busy, and a write of the data
of a stage-store window by another master than the MP (R187). -/
def Core.writeInd (k : Core) (m : Master) (w page : Nat) (x : IndWin) (p o word : Nat) : Core :=
  if o = 8 ∨ (8 < o ∧ o < 0x40) then k
  else if k.indBusy w page then k.accErr w page m (x.base + o)
  else if o = 0 then k.wr (indAddr x) w p 0 word
  else if o = 4 then
    let k1 := k.wr (indAuto x) w p 0 (bit word 8)
    match bits word 1 0 with
    | 0 => k1
    | 3 => k1.cfgErr w page m (x.base + o)
    | op => k1.indCmd m w x p (op == 2) (bit word 8 == 1)
  else if x.kind = .store ∧ m ≠ .mp then k.accErr w page m (x.base + o)
  else k.wr (indData x) w p ((o - 0x40) / 4) word

/-- A write of a command register with a code that is no command of its own: a reserved opcode or a bad field of a table
command is queued and answered REFUSED (R265, R270, R300); other reserved codes set CFG_ERR (R25); PAG_RESET is checked for
its master and key (R693). -/
def Core.strayCommand (k : Core) (m : Master) (w page off word : Nat) : Core :=
  let tag := bits word 31 24
  if w ≠ 0 ∧ page = 0x21 ∧ off = 0x154 then
    let op := bits word 3 0
    -- a deep command on a 256-bit key is refused like a reserved opcode (R270, R291)
    let known := if bit word 12 = 1 then decide (1 ≤ op ∧ op ≤ 3) && bit word 11 == 0
      else decide (1 ≤ op ∧ op ≤ 5 ∨ op = 6 ∧ k.rd R.CAT_CMD_DATA_LO w 0 0 % 4 ≠ 3)
    if known then k else k.catSubmit m (k.catStage (w - 1) 0 tag false false false false false false) false
  else if w ≠ 0 ∧ page = 0x24 ∧ off = 0x120 then
    let op := bits word 2 0
    if 1 ≤ op ∧ op ≤ 4 then k else k.lpmSubmit m (w - 1) op tag (bits word 23 16) (bit word 8 == 1) false 0
  else if w ≠ 0 ∧ page = 0x60 ∧ off = 0x114 then
    if bits word 1 0 = 1 ∨ bits word 1 0 = 2 then k else k.cfgErr w page m off
  else if page = (if w = 0 then 0x82 else 0xC9) ∧ off = 0x108 then
    if bits word 1 0 = 3 then k.cfgErr w page m off else k
  else if w = 0 ∧ page = 0 ∧ off = 0x200 ∧ bits word 1 0 = 0 then
    if m ≠ .mp ∧ m ≠ .pf 0 then k.accErr w page m off
    else if bits word 31 16 ≠ 0xA5C3 then k.cfgErr w page m off else k
  else k

/-- A write of a register that the rights allow: field by field, then what follows from it; some registers discard the
whole write. -/
def Core.writeReg (k : Core) (m : Master) (w page off word : Nat) : Core :=
  match indAt w page off with
  | some (x, p, o) => k.writeInd m w page x p o word
  | none =>
    let k1 := (fieldsAt w page off).foldl (fun k1 x => k.writeField k1 m w page off x word) k
    match k.wholeRule k1 m w page off with
    | .take => (k1.afterWrite k w page off).strayCommand m w page off word
    | .keep => k
    | .cfg => k.cfgErr w page m off
    | .acc => k.accErr w page m off

/-- The window, page and offset of a BAR0 address (R70, R75). -/
def splitAddr (addr : Nat) : Nat × Nat × Nat := (addr / 2 ^ 24, addr / 4096 % 4096, addr % 4096)

/-- Complete a read with zeros (or discard a write) after setting ACC_ERR where one is due. -/
def Core.zeros (k : Core) (m : Master) (addr : Nat) (read : Bool) (err : Option (Nat × Nat)) : Core :=
  let k1 := match err with
    | some (w, page) => k.accErr w page m (addr % 4096)
    | none => k
  if read then k1.readOut m addr 0 else k1

/-- UNPOPULATED_WINDOW_ACCESS (R3, R81): zeros or a discard, with no error; a die controller's access to another window
is denied with ACC_ERR on the target page. An address of a populated or other window is for another command. -/
def execUnpopulatedWindowAccess (m : Master) (addr : BitVec 28) (w : Option Word) (s : State) :
    Host.Outcome State Fault Refusal :=
  let (win, page, _) := splitAddr addr.toNat
  done (s.onCore fun k =>
    if 1 ≤ win ∧ win ≤ 8 ∧ k.populated (win - 1) = false then
      k.zeros m addr.toNat w.isNone (match m with | .die _ => some (win, page) | _ => none)
    else k)

/-- A BAR0 address in the reserved range, or in a page R75 leaves reserved or that is not there (R71, R75, R733). -/
def Core.reservedPlace (k : Core) (addr : Nat) : Option Nat :=
  let (w, page, _) := splitAddr addr
  if 9 ≤ w ∧ w ≤ 14 then some 0
  else if w = 15 then (if (blockOf 1 page).isNone then some 1 else none)
  else if w ≠ 0 ∧ !k.populated (w - 1) then none
  else if k.pageExists w page then none
  else some w

/-- RESERVED_RANGE_ACCESS (R71, R75): zeros or a discard, and ACC_ERR on the root page of the Meridian die, or of the
window whose page is reserved. DESIGN CHOICE: through the broadcast window, on port die 0, as any error of that window. -/
def execReservedRangeAccess (m : Master) (addr : BitVec 28) (w : Option Word) (s : State) :
    Host.Outcome State Fault Refusal :=
  let (win, _, _) := splitAddr addr.toNat
  done (s.onCore fun k =>
    if !k.serves m then k.zeros m addr.toNat w.isNone none
    else match k.reservedPlace addr.toNat with
    | none => k
    | some root =>
      if root ≠ 0 ∧ !k.released (root - 1) then k.zeros m addr.toNat w.isNone none
      else k.zeros m addr.toNat w.isNone (some (root, 0)))

/-- An access is narrow, unaligned, or crosses a page (R91, R92). -/
def badWidth (addr len : Nat) : Bool :=
  addr % 4 != 0 || len % 4 != 0 || len == 0 || decide (4096 < addr % 4096 + len)

/-- BAD_WIDTH_ACCESS (R92): the write is discarded or the read returns zeros, and ACC_ERR is set on the page of the
first byte. An access that is none of these is for another command. DESIGN CHOICE: through the broadcast window, writes
and reads alike, the page is port die 0's. -/
def execBadWidthAccess (m : Master) (addr : BitVec 28) (len : Fin 65) (write : Bool) (s : State) :
    Host.Outcome State Fault Refusal :=
  let (win0, page, _) := splitAddr addr.toNat
  let win := if win0 = 15 then 1 else win0
  done (s.onCore fun k =>
    if !badWidth addr.toNat len then k
    else if !k.serves m then k.zeros m addr.toNat (!write) none
    else if 9 ≤ win ∧ win ≤ 14 then k.zeros m addr.toNat (!write) (some (0, 0))
    else if win ≠ 0 ∧ (!k.populated (win - 1) ∨ !k.released (win - 1)) then k.zeros m addr.toNat (!write) none
    else if k.pageExists win page then k.zeros m addr.toNat (!write) (some (win, page))
    else k.zeros m addr.toNat (!write) (some (win, 0)))

/-! ### RC fields and 64-bit values -/

/-- RC_READ_CLEAR (R77, R79, R91): a permitted read through a die window returns the register and clears its RC fields; a
register without one is read as R77 and R93 say. `more` registers of the page follow in ascending order, as in a longer
read TLP. -/
def execRcReadClear (m : Master) (addr : BitVec 28) (more : Fin 16) (s : State) : Host.Outcome State Fault Refusal :=
  let (w, page, off) := splitAddr addr.toNat
  if off % 4 ≠ 0 ∨ 9 ≤ w then done s
  else done ((List.range (more.val + 1)).foldl (fun s i =>
    if off + 4 * i < 4096 then
      s.read m w page (off + 4 * i) fun k => k.readReg s.fuse s.sec m w page (off + 4 * i)
    else s) s)

/-- LOW_HALF_READ_LATCH (R93): a read of the low half returns it and latches the high half for the master; an aligned
8-byte read (`both`) reads the latched high half at once (R91). -/
def execLowHalfReadLatch (m : Master) (addr : BitVec 28) (both : Bool) (s : State) :
    Host.Outcome State Fault Refusal :=
  let (w, page, off) := splitAddr addr.toNat
  if off % 4 ≠ 0 ∨ 9 ≤ w ∨ (pairAt false w page off).isNone then done s
  else done (s.read m w page off fun k =>
    let k1 := k.readReg s.fuse s.sec m w page off
    if both then k1.readReg s.fuse s.sec m w page (off + 4) else k1)

/-- Hold the low half of a 64-bit value for a master; that of HQ_BASE is discarded while its queue is active (R743). -/
def Core.holdLow (k : Core) (m : Master) (w page off v : Nat) : Core :=
  if w = 0 ∧ 0xB0 ≤ page ∧ page < 0xB4 ∧ 0x400 ≤ off ∧ off < 0x680 ∧ off % 32 = 0 ∧
      k.rd R.HQ_CFG_EN 0 (page - 0xB0) ((off - 0x400) / 32) = 1 then k.cfgErr w page m off
  else k.onIo fun io => { io with hold := io.hold.set (halfKey m (regAddr w page off)) (v + 1) }

/-- The write of the high half of a 64-bit value, with the low half held or in force. -/
def Core.writeHigh (k : Core) (m : Master) (w page off v : Nat) (lo hi : Fld) (p i : Nat) : Core :=
  let key := halfKey m (regAddr w page (off - 4))
  let low := if k.io.hold.get key = 0 then k.rd lo w p i else k.io.hold.get key - 1
  let k1 := k.onIo fun io => { io with hold := io.hold.set key 0 }
  match k.wholeRule k1 m w page off with
  | .take => (k1.wr lo w p i low).wr hi w p i v
  | .keep => k1
  | .cfg => k1.cfgErr w page m off
  | .acc => k1.accErr w page m off

/-- LOW_HALF_WRITE_HOLD (R94): the low half is held for the master; nothing in force changes. -/
def execLowHalfWriteHold (m : Master) (addr : BitVec 28) (v : Word) (s : State) : Host.Outcome State Fault Refusal :=
  let (w, page, off) := splitAddr addr.toNat
  if off % 4 ≠ 0 ∨ 9 ≤ w then done s
  else match pairAt false w page off with
    | none => done s
    | some (lo, _, _, _) =>
      if lo ∈ writable64 then done (s.write m w page off fun k => k.holdLow m w page off v.toNat)
      else done s

/-- HIGH_HALF_WRITE (R94): the 64-bit value takes the written high half with the master's held low half, or with the
low half in force when none is held; the hold ends. -/
def execHighHalfWrite (m : Master) (addr : BitVec 28) (v : Word) (s : State) : Host.Outcome State Fault Refusal :=
  let (w, page, off) := splitAddr addr.toNat
  if off % 4 ≠ 0 ∨ 9 ≤ w then done s
  else match pairAt true w page off with
    | none => done s
    | some (lo, hi, p, i) =>
      if lo ∈ writable64 then done (s.write m w page off fun k => k.writeHigh m w page off v.toNat lo hi p i)
      else done s

/-! ### RWD hold and page owners (R82, R85) -/

/-- RWD_HOLD_RELEASE (R82, R117): a write of 0 to PAGE_CTRL.RWD_HOLD; the held writes of the page wait for the next
boundary together. -/
def execRwdHoldRelease (m : Master) (w : Fin 9) (page : Fin 4096) (s : State) : Host.Outcome State Fault Refusal :=
  done (s.write m w page 0x008 fun k =>
    (k.wr R.PAGE_CTRL_RWD_HOLD w page 0 0).onIo fun io =>
      { io with rwd := io.rwd.map fun r => if r.win = w.val ∧ r.page = page.val then { r with held := false } else r })

/-- PAGE_OWNER_WRITE (R85, R86): PF0 and the MP set the owner; another master's write is discarded with ACC_ERR; the
reserved owners 6 and 7 keep the field and set CFG_ERR. -/
def execPageOwnerWrite (m : Master) (w : Fin 9) (page : Fin 4096) (v : Word) (s : State) :
    Host.Outcome State Fault Refusal :=
  let owner := v.toNat % 16
  done (s.onCore fun k =>
    if m = .pf 0 ∨ m = .mp then
      k.writeAt m w page 0x024 fun k =>
        let k1 := k.wr R.PAGE_OWNER_VALID w page 0 (bit v.toNat 4)
        if owner = 6 ∨ owner = 7 then k1.cfgErr w page m 0x024 else k1.wr R.PAGE_OWNER_OWNER w page 0 owner
    else match k.verdict m w page 0x024 true with
      | .silent => k
      | .error ew ep => k.accErr ew ep m 0x024
      | .ok => k.accErr w page m 0x024)

/-! ### Register writes that are commands -/

/-- The state a command leaves. -/
def after (o : Host.Outcome State Fault Refusal) (s : State) : State :=
  match o with
  | .next t => t
  | _ => s

/-- A register write through the broadcast window that is a command of its own: once for the whole part where the command
covers every die, as the flag says. -/
def broadcastOnce (m : Master) (page off v : Nat) (s : State) : Option State :=
  let d : Fin 8 := 0
  let tag := Fin.ofNat 256 (bits v 31 24)
  if page = 0x24 ∧ off = 0x120 then
    some (lpmCommand m 0 (bits v 2 0) (bits v 31 24) (bits v 23 16) (bit v 8 == 1) true 0 s)
  else if page = 0x21 ∧ off = 0x154 then some (after (execCatInsert m d tag false false false true s) s)
  else if page = 0x23 ∧ off = 0x100 then
    some (after (execDeepCfgWrite m d true (bit v 31 == 1) (Fin.ofNat 65536 (bits v 23 8)) (Fin.ofNat 32 (bits v 4 0)) s) s)
  else none

/-- A register write that is a command of its own in either kind of window, as that command does it: the header's registers,
scrub and self-test, and the halves of 64-bit values. -/
def everyOwn (m : Master) (w : Fin 9) (page off : Nat) (v : Word) (s : State) : State :=
  let pg : Fin 4096 := Fin.ofNat 4096 page
  let n := v.toNat
  if off = 0x018 then after (execEvtPendingClear m w pg v s) s
  else if off = 0x01C then after (execEvtForce m w pg v s) s
  else if off = 0x024 then after (execPageOwnerWrite m w pg v s) s
  else if page = 0xC1 ∧ off = 0x10C then
    let s1 := if bit n 31 = 1 then after (execScrubGo m w s) s else s
    if bit n 30 = 1 then after (execScrubAbort m w s1) s1 else s1
  else if page = 0xC2 ∧ off = 0x100 ∧ bit n 31 = 1 then after (execBistGo m w v s) s
  else
    match pairAt false w page off, pairAt true w page off with
    | some q, _ => if q.1 ∈ writable64 then s.write m w page off fun k => k.holdLow m w page off n else s
    | none, some q =>
      if q.1 ∈ writable64 then s.write m w page off fun k => k.writeHigh m w page off n q.1 q.2.1 q.2.2.1 q.2.2.2 else s
    | none, none => s

/-- A register write on port die `d` that is a command of its own, as that command does it. -/
def ownWrite (m : Master) (d : Fin 8) (page off : Nat) (v : Word) (s : State) : State :=
  let w : Fin 9 := Fin.ofNat 9 (d.val + 1)
  let n := v.toNat
  let p8 (base : Nat) : Fin 8 := Fin.ofNat 8 (page - base)
  let p32 (base : Nat) : Fin 32 := Fin.ofNat 32 (page - base)
  let within (base count : Nat) : Bool := decide (base ≤ page ∧ page < base + count)
  if within 0x08 8 ∧ off = 0x108 then
    let s1 := if bit n 0 = 1 then after (execEpochFlipIn m d (p8 0x08) s) s else s
    if bit n 1 = 1 then after (execEpochFlipEg m d (p8 0x08) s1) s1 else s1
  else if page = 0x24 ∧ off = 0x128 ∧ bit n 0 = 1 then after (execLpmRspPop m d s) s
  else if page = 0x21 ∧ off = 0x15C ∧ bit n 0 = 1 then after (execCatRspPop m d s) s
  else if page = 0x5C ∧ off = 0x10C ∧ bit n 0 = 1 then after (execEtsPop m d s) s
  else if within 0x50 8 ∧ off = 0x108 ∧ bit n 31 = 1 then
    s.write m w page off fun k => k.swapGo d (page - 0x50) (bits n 8 0)
  else if page = 0x60 ∧ off = 0x114 then
    s.write m w page off fun k => match bits n 1 0 with
      | 1 => k.focCreate d (bits n 31 24)
      | 2 => k.focDestroy d (bits n 31 24)
      | _ => k
  else if within 0x80 32 ∧ off = 0x170 then
    if bit n 30 = 1 then after (execRtcScanAbort m d (p32 0x80) v s) s
    else if bit n 31 = 1 then after (execRtcScanGo m d (p32 0x80) v s) s else s
  else if within 0x80 32 ∧ off = 0x180 ∧ bit n 31 = 1 then after (execCalibrationGo m d (p32 0x80) v s) s
  else if within 0x80 32 ∧ off = 0x188 ∧ bit n 31 = 1 then after (execSpareSubstituteGo m d (p32 0x80) v s) s
  else if within 0xA0 32 ∧ off = 0x100 then after (execOctetConfigWrite m d (p32 0xA0) v s) s
  else if within 0x30 8 ∧ off = 0x110 ∧ bit n 31 = 1 then
    after (execShnSpareGo m false (Fin.ofNat 64 (8 * d.val + (page - 0x30))) v s) s
  else if page = 0xC9 ∧ off = 0x108 ∧ n % 4 = 1 then after (execAgeMeasureCmd m w s) s
  else if page = 0x48 ∧ off = 0x100 ∧ bit n 31 = 1 then after (execPolClr m d (Fin.ofNat 16384 (bits n 13 0)) s) s
  else if page = 0xCD ∧ off = 0x100 ∧ bit n 31 = 1 then after (execPstatClear m d v s) s
  else everyOwn m w page off v s

/-- A write of a table-command register through the window of die `d` (R265, R292, R299), as the command it spells. -/
def tableOwn (m : Master) (d : Fin 8) (page off v : Nat) (s : State) : Option State :=
  let tag := Fin.ofNat 256 (bits v 31 24)
  if page = 0x24 ∧ off = 0x120 then
    some (if 1 ≤ bits v 2 0 ∧ bits v 2 0 ≤ 4 then
      lpmCommand m d (bits v 2 0) (bits v 31 24) (bits v 23 16) (bit v 8 == 1) false 0 s else s)
  else if page = 0x21 ∧ off = 0x154 then
    let wide := bit v 11 == 1
    let keep := bit v 9 == 1
    some (after (match bit v 12, bits v 3 0 with
      | 0, 1 => execCatInsert m d tag wide (bit v 10 == 1) keep false s
      | 0, 2 => execCatDelete m d tag wide false s
      | 0, 3 => execCatSearch m d tag wide false false [] s
      | 0, 4 => execCatNext m d tag false false [] s
      | 0, 5 => execCatFlushByPort m d tag (bit v 8 == 1) false s
      | 0, 6 => match s.core.rd R.CAT_CMD_DATA_LO (dw d) 0 0 % 4 with
        | 0 => execSweepPause m d tag false s
        | 1 => execSweepResume m d tag false s
        | 2 => execSweepStartNow m d tag false [] s
        | _ => done s
      | 1, 1 => if wide then done s else execCatDeepInsert m d tag keep false 0 s
      | 1, 2 => if wide then done s else execCatDeepDelete m d tag false 0 s
      | 1, 3 => if wide then done s else execCatDeepSearch m d tag false 0 s
      | _, _ => done s) s)
  else if page = 0x23 ∧ off = 0x100 then
    some (after (execDeepCfgWrite m d false (bit v 31 == 1) (Fin.ofNat 65536 (bits v 23 8)) (Fin.ofNat 32 (bits v 4 0)) s) s)
  else none

/-- A register write on the Meridian die that is a command of its own, as that command does it; `facts` are what a start
finds that a write of PAG_RESET.PART brings about. DESIGN CHOICE (log 127): the bits of MBX_CTRL set in one write act from the
highest to the lowest. -/
def meridianOwn (m : Master) (page off : Nat) (v : Word) (facts : StartFacts) (s : State) : State :=
  let n := v.toNat
  let ch : Fin 13 := Fin.ofNat 13 (page - 0xB0)
  if page = 0 ∧ off = 0x200 then
    let key := BitVec.ofNat 16 (bits n 31 16)
    if bit n 0 = 1 then after (execWarmReset (some (m, key, bit n 1 == 1)) facts s) s
    else if bit n 1 = 1 then after (execMpReset (some (m, key)) .watchdog s) s else s
  else if page = 2 ∧ (off = 0x200 ∨ off = 0x204) then after (execEvtVecArm m (off == 0x204) v s) s
  else if page = 4 ∧ 0x100 ≤ off ∧ off < 0x200 then after (execLockRelease m (Fin.ofNat 64 ((off - 0x100) / 4)) v s) s
  else if page = 4 ∧ (off = 0x208 ∨ off = 0x20C) then after (execLockBreakWrite m (off == 0x20C) v s) s
  else if page = 4 ∧ off = 0x210 then after (execLockHoldLimitWrite m v s) s
  else if 0x20 ≤ page ∧ page < 0x60 ∧ off = 0x110 ∧ bit n 31 = 1 then
    after (execShnSpareGo m true (Fin.ofNat 64 (page - 0x20)) v s) s
  else if page = stbPage ∧ off = 0x100 then
    after (execSourceSelect m (Fin.ofNat 4 (bits n 29 28)) (bit n 24 == 1) s) s
  else if page = stbPage ∧ off = 0x160 then after (execFreqAdjWrite m v s) s
  else if page = stbPage ∧ off = 0x16C ∧ bit n 0 = 1 then after (execStepGo m s) s
  else if page = 0x82 ∧ off = 0x108 ∧ n % 4 = 1 then after (execAgeMeasureCmd m 0 s) s
  else if (page = 0x91 ∨ page = 0x92) ∧ off = 0x10C ∧ bit n 31 = 1 then
    after (execCxlPortRestart m (Fin.ofNat 2 (page - 0x91)) s) s
  else if page = 0x93 ∧ 0x100 ≤ off ∧ off < 0x180 ∧ off % 32 = 0 then
    let r := Fin.ofNat 4 ((off - 0x100) / 32)
    if bit n 31 = 1 then after (execCxlRegionEnable m r v s) s else after (execCxlRegionDisable m r v s) s
  else if page = 0xA0 ∧ off = 0x200 ∧ bit n 0 = 1 then after (execMeasExtend m s) s
  else if 0xB0 ≤ page ∧ page < 0xBD ∧ off = 0x144 then
    let act (b : Nat) (f : State → Host.Outcome State Fault Refusal) (s : State) : State :=
      if bit n b = 1 then after (f s) s else s
    act 0 (execMbxDone m ch) (act 1 (execMbxTake m (some ch)) (act 30 (execMbxRelease m ch) (act 31 (execMbxGo m ch) s)))
  else if 0xB0 ≤ page ∧ page < 0xB4 ∧ 0x400 ≤ off ∧ off < 0x680 ∧ off % 32 = 12 then
    after (execHqTailWrite m (Fin.ofNat 4 (page - 0xB0)) (Fin.ofNat 20 ((off - 0x400) / 32)) (Fin.ofNat 65536 n) s) s
  else everyOwn m 0 page off v s

/-! ### Register writes (R77, R91) -/

/-- One register write through a die window: field by field, and as the command that it may be. -/
def State.regWrite (s : State) (m : Master) (w page off : Nat) (v : Word) (facts : StartFacts) : State :=
  let s1 := s.write m w page off fun k => k.writeReg m w page off v.toNat
  let d : Fin 8 := Fin.ofNat 8 (w - 1)
  if w = 0 then meridianOwn m page off v facts s1
  else match tableOwn m d page off v.toNat s1 with
    | some t => t
    | none => ownWrite m d page off v s1

/-- REGISTER_WRITE (R77): a write of the register at an address takes effect field by field, and as the command that it is
where the register has one. An address that is no aligned register, or in the broadcast window, is for
another command: nothing happens here. `more` are the words of a longer write TLP: the registers that follow, in ascending
order, within the page (R91); `facts` are what the start finds where one of them resets the part. -/
def execRegisterWrite (m : Master) (addr : BitVec 28) (v : Word) (more : List Word) (facts : StartFacts) (s : State) :
    Host.Outcome State Fault Refusal :=
  let (w, page, off) := splitAddr addr.toNat
  if off % 4 ≠ 0 ∨ 9 ≤ w then done s
  else
    done (((more.take 15).foldl (fun (x : Nat × State) v =>
      (x.1 + 4, if x.1 < 4096 then x.2.regWrite m w page x.1 v facts else x.2))
      (off + 4, s.regWrite m w page off v facts)).2)

/-! ### The broadcast window (R59, R72, R73) -/

/-- One register write through the broadcast window (R72): the protection check is made once; a denied write
applies nowhere; a write that passes applies at the offset on every populated port die, as a plain write and as the command
it may be. -/
def State.broadcast (s : State) (m : Master) (page o : Nat) (v : Word) : State :=
  if ¬ s.core.live then s
  else match s.core.broadcastVerdict m page o true with
    | .silent => s
    | .error ew ep => { s with core := s.core.accErr ew ep m o }
    | .ok =>
      match broadcastOnce m page o v.toNat s with
      | some t => t
      | none => s.core.dieList.foldl (fun s d =>
          ownWrite m (Fin.ofNat 8 d) page o v (s.write m (dw d) page o fun k => k.writeReg m (dw d) page o v.toNat)) s

/-- BROADCAST_WRITE (R72): a write at an offset of the broadcast window; `more` are the words of a longer write TLP: the
registers that follow, in ascending order, within the page (R91). -/
def execBroadcastWrite (m : Master) (off : BitVec 24) (v : Word) (more : List Word) (s : State) :
    Host.Outcome State Fault Refusal :=
  let (_, page, o) := splitAddr off.toNat
  if o % 4 ≠ 0 then done s
  else done (((more.take 15).foldl (fun (x : Nat × State) v =>
      (x.1 + 4, if x.1 < 4096 then x.2.broadcast m page x.1 v else x.2)) (o + 4, s.broadcast m page o v)).2)

/-- BROADCAST_READ (R73): the value at the offset in the window of port die 0, with no side effect on any die. -/
def execBroadcastRead (m : Master) (off : BitVec 24) (s : State) : Host.Outcome State Fault Refusal :=
  let (_, page, o) := splitAddr off.toNat
  let addr := 15 * 2 ^ 24 + off.toNat
  if o % 4 ≠ 0 then done s
  else done (s.onCore fun k =>
    match k.broadcastVerdict m page o false with
    | .ok => k.readOut m addr (k.readWord s.fuse s.sec 1 page o)
    | .silent => k.readOut m addr 0
    | .error ew ep => (k.accErr ew ep m o).readOut m addr 0)

end Sys2Proof.Machine
end

