-- ==== Sys2Proof/Machine/Dispatch.lean ====
section
/-!
DEFINITION. The dispatch: one arm per command, each a call of that command's meaning.
-/
namespace Sys2Proof.Machine

/-- The effect of a command on everything but the queue. -/
def exec (i : Instr) (s : State) : Host.Outcome State Fault Refusal :=
  match i with
  | .registerWrite m addr v more facts => Sys2Proof.Machine.execRegisterWrite m addr v more facts s
  | .unpopulatedWindowAccess m addr w => Sys2Proof.Machine.execUnpopulatedWindowAccess m addr w s
  | .reservedRangeAccess m addr w => Sys2Proof.Machine.execReservedRangeAccess m addr w s
  | .badWidthAccess m addr len write => Sys2Proof.Machine.execBadWidthAccess m addr len write s
  | .broadcastWrite m off v more => Sys2Proof.Machine.execBroadcastWrite m off v more s
  | .broadcastRead m off => Sys2Proof.Machine.execBroadcastRead m off s
  | .rcReadClear m addr more => Sys2Proof.Machine.execRcReadClear m addr more s
  | .lowHalfReadLatch m addr both => Sys2Proof.Machine.execLowHalfReadLatch m addr both s
  | .lowHalfWriteHold m addr v => Sys2Proof.Machine.execLowHalfWriteHold m addr v s
  | .highHalfWrite m addr v => Sys2Proof.Machine.execHighHalfWrite m addr v s
  | .rwdHoldRelease m w page => Sys2Proof.Machine.execRwdHoldRelease m w page s
  | .pageOwnerWrite m w page v => Sys2Proof.Machine.execPageOwnerWrite m w page v s
  | .indRead m w tab p autoinc => Sys2Proof.Machine.execIndRead m w tab p autoinc s
  | .indWrite m w tab p autoinc => Sys2Proof.Machine.execIndWrite m w tab p autoinc s
  | .indOpComplete w tab p ecc act => Sys2Proof.Machine.execIndOpComplete w tab p ecc act s
  | .ceBucketLeak w page idx => Sys2Proof.Machine.execCeBucketLeak w page idx s
  | .evtForce m w page mask => Sys2Proof.Machine.execEvtForce m w page mask s
  | .evtPendingClear m w page mask => Sys2Proof.Machine.execEvtPendingClear m w page mask s
  | .evtSrcPendingUpdate d page => Sys2Proof.Machine.execEvtSrcPendingUpdate d page s
  | .evtVecArm m hi mask => Sys2Proof.Machine.execEvtVecArm m hi mask s
  | .msixMessageSend v masked => Sys2Proof.Machine.execMsixMessageSend v masked s
  | .lockAcquireRead m idx => Sys2Proof.Machine.execLockAcquireRead m idx s
  | .lockRelease m idx v => Sys2Proof.Machine.execLockRelease m idx v s
  | .lockBreakWrite m hi mask => Sys2Proof.Machine.execLockBreakWrite m hi mask s
  | .lockHoldLimitWrite m v => Sys2Proof.Machine.execLockHoldLimitWrite m v s
  | .lockHoldExpire idx => Sys2Proof.Machine.execLockHoldExpire idx s
  | .frameReceive d l frame words shared line => Sys2Proof.Machine.execFrameReceive d l frame words shared line s
  | .xoffEval d l g => Sys2Proof.Machine.execXoffEval d l g s
  | .ingressParse d p ue ces => Sys2Proof.Machine.execIngressParse d p ue ces s
  | .stageExecute id facts => Sys2Proof.Machine.execStageExecute id facts s
  | .deepLookupReturn id poisoned timeout => Sys2Proof.Machine.execDeepLookupReturn id poisoned timeout s
  | .parkStallRelease id => Sys2Proof.Machine.execParkStallRelease id s
  | .parkWake id => Sys2Proof.Machine.execParkWake id s
  | .parkReentry id ue => Sys2Proof.Machine.execParkReentry id ue s
  | .parkTimeout id => Sys2Proof.Machine.execParkTimeout id s
  | .orderHoldRelease id ue => Sys2Proof.Machine.execOrderHoldRelease id ue s
  | .storeWordRewrite d p st a poisoned => Sys2Proof.Machine.execStoreWordRewrite d p st a poisoned s
  | .hwLearn d => Sys2Proof.Machine.execHwLearn d s
  | .learnMessageForward => Sys2Proof.Machine.execLearnMessageForward s
  | .learnMessageApply d => Sys2Proof.Machine.execLearnMessageApply d s
  | .learnReject d => Sys2Proof.Machine.execLearnReject d s
  | .deleteMessageApply d => Sys2Proof.Machine.execDeleteMessageApply d s
  | .touchSend d => Sys2Proof.Machine.execTouchSend d s
  | .touchApply d => Sys2Proof.Machine.execTouchApply d s
  | .learnRecordExpire d => Sys2Proof.Machine.execLearnRecordExpire d s
  | .sweepPass d prevail => Sys2Proof.Machine.execSweepPass d prevail s
  | .catalogueRepair d peerUe => Sys2Proof.Machine.execCatalogueRepair d peerUe s
  | .prefixRepair d peerUe => Sys2Proof.Machine.execPrefixRepair d peerUe s
  | .catInsert m d tag wide static noReplace broadcast => Sys2Proof.Machine.execCatInsert m d tag wide static noReplace broadcast s
  | .catDelete m d tag wide broadcast => Sys2Proof.Machine.execCatDelete m d tag wide broadcast s
  | .catSearch m d tag wide ue broadcast ces => Sys2Proof.Machine.execCatSearch m d tag wide ue broadcast ces s
  | .catNext m d tag ue broadcast ces => Sys2Proof.Machine.execCatNext m d tag ue broadcast ces s
  | .catFlushByPort m d tag inclStatic broadcast => Sys2Proof.Machine.execCatFlushByPort m d tag inclStatic broadcast s
  | .sweepPause m d tag broadcast => Sys2Proof.Machine.execSweepPause m d tag broadcast s
  | .sweepResume m d tag broadcast => Sys2Proof.Machine.execSweepResume m d tag broadcast s
  | .sweepStartNow m d tag broadcast prevail => Sys2Proof.Machine.execSweepStartNow m d tag broadcast prevail s
  | .catDeepInsert m d tag noReplace broadcast poisoned => Sys2Proof.Machine.execCatDeepInsert m d tag noReplace broadcast poisoned s
  | .catDeepDelete m d tag broadcast poisoned => Sys2Proof.Machine.execCatDeepDelete m d tag broadcast poisoned s
  | .catDeepSearch m d tag broadcast poisoned => Sys2Proof.Machine.execCatDeepSearch m d tag broadcast poisoned s
  | .catCmdResponsePost d => Sys2Proof.Machine.execCatCmdResponsePost d s
  | .catRspPop m d => Sys2Proof.Machine.execCatRspPop m d s
  | .deepCfgWrite m d broadcast en seed size => Sys2Proof.Machine.execDeepCfgWrite m d broadcast en seed size s
  | .lpmInsert m d tag len v6 broadcast late => Sys2Proof.Machine.execLpmInsert m d tag len v6 broadcast late s
  | .lpmDelete m d tag len v6 broadcast late => Sys2Proof.Machine.execLpmDelete m d tag len v6 broadcast late s
  | .lpmSearch m d tag len v6 broadcast late => Sys2Proof.Machine.execLpmSearch m d tag len v6 broadcast late s
  | .lpmLookupCmd m d tag len v6 broadcast late => Sys2Proof.Machine.execLpmLookupCmd m d tag len v6 broadcast late s
  | .lpmRspPop m d => Sys2Proof.Machine.execLpmRspPop m d s
  | .filterKeyCommit m d broadcast late idx action valid => Sys2Proof.Machine.execFilterKeyCommit m d broadcast late idx action valid s
  | .filterActionWrite m d broadcast late idx action valid => Sys2Proof.Machine.execFilterActionWrite m d broadcast late idx action valid s
  | .filterBgCompare d idx rowValue rowMask shadow => Sys2Proof.Machine.execFilterBgCompare d idx rowValue rowMask shadow s
  | .localTransfer d p ue lost ces => Sys2Proof.Machine.execLocalTransfer d p ue lost ces s
  | .stopMessageReceive viewer d l q => Sys2Proof.Machine.execStopMessageReceive viewer d l q s
  | .crossbarMatch => Sys2Proof.Machine.execCrossbarMatch s
  | .parcelLaunch src parity ue lost ces => Sys2Proof.Machine.execParcelLaunch src parity ue lost ces s
  | .parcelArrival dst good lost ue ces => Sys2Proof.Machine.execParcelArrival dst good lost ue ces s
  | .parcelAckReceive src read => Sys2Proof.Machine.execParcelAckReceive src read s
  | .parcelNackReceive src read => Sys2Proof.Machine.execParcelNackReceive src read s
  | .parcelAckTimeout src dst => Sys2Proof.Machine.execParcelAckTimeout src dst s
  | .egressSelect d l facts => Sys2Proof.Machine.execEgressSelect d l facts s
  | .plateRecordWrite d => Sys2Proof.Machine.execPlateRecordWrite d s
  | .collectorFrameInject d p prs => Sys2Proof.Machine.execCollectorFrameInject d p prs s
  | .transmitComplete d l parity => Sys2Proof.Machine.execTransmitComplete d l parity s
  | .etsPop m d => Sys2Proof.Machine.execEtsPop m d s
  | .pfcFrameSend d l => Sys2Proof.Machine.execPfcFrameSend d l s
  | .pfcRepeat d l => Sys2Proof.Machine.execPfcRepeat d l s
  | .macControlReceive d l frame => Sys2Proof.Machine.execMacControlReceive d l frame s
  | .pfcPauseExpire d l prio => Sys2Proof.Machine.execPfcPauseExpire d l prio s
  | .watchdogDiscard d l q => Sys2Proof.Machine.execWatchdogDiscard d l q s
  | .watchdogExit d l q => Sys2Proof.Machine.execWatchdogExit d l q s
  | .downHoldExpire d l => Sys2Proof.Machine.execDownHoldExpire d l s
  | .spillFetch d l q => Sys2Proof.Machine.execSpillFetch d l q s
  | .spillFetchReturn d poisoned => Sys2Proof.Machine.execSpillFetchReturn d poisoned s
  | .shaperRefill d => Sys2Proof.Machine.execShaperRefill d s
  | .rampStep d g => Sys2Proof.Machine.execRampStep d g s
  | .rampIdleReset d g => Sys2Proof.Machine.execRampIdleReset d g s
  | .gateChange d l entry => Sys2Proof.Machine.execGateChange d l entry s
  | .polClr m d idx => Sys2Proof.Machine.execPolClr m d idx s
  | .polCtxWrite m d idx w0 w1 w2 w3 w4 => Sys2Proof.Machine.execPolCtxWrite m d idx w0 w1 w2 w3 w4 s
  | .hqTailWrite m pf q tail => Sys2Proof.Machine.execHqTailWrite m pf q tail s
  | .hostFrameInject pf q desc frame fault prs => Sys2Proof.Machine.execHostFrameInject pf q desc frame fault prs s
  | .hostRxDeliver pf q buffer fault => Sys2Proof.Machine.execHostRxDeliver pf q buffer fault s
  | .mbxGo m ch => Sys2Proof.Machine.execMbxGo m ch s
  | .mbxTake m ch => Sys2Proof.Machine.execMbxTake m ch s
  | .mbxDone m ch => Sys2Proof.Machine.execMbxDone m ch s
  | .mbxRelease m ch => Sys2Proof.Machine.execMbxRelease m ch s
  | .startStatusGet ch => Sys2Proof.Machine.execStartStatusGet ch s
  | .sensorsRead ch => Sys2Proof.Machine.execSensorsRead ch s
  | .sensorsLogCfg ch => Sys2Proof.Machine.execSensorsLogCfg ch s
  | .sensorLogPeriod => Sys2Proof.Machine.execSensorLogPeriod s
  | .programChangeLoad ch buf bad => Sys2Proof.Machine.execProgramChangeLoad ch buf bad s
  | .programChangeRestore ch => Sys2Proof.Machine.execProgramChangeRestore ch s
  | .epochFlipIn m d p => Sys2Proof.Machine.execEpochFlipIn m d p s
  | .epochFlipEg m d p => Sys2Proof.Machine.execEpochFlipEg m d p s
  | .epochFlipApply d p => Sys2Proof.Machine.execEpochFlipApply d p s
  | .oldHalfIdle d p => Sys2Proof.Machine.execOldHalfIdle d p s
  | .repairMapRead ch writeOk => Sys2Proof.Machine.execRepairMapRead ch writeOk s
  | .repairMapAdd ch buf => Sys2Proof.Machine.execRepairMapAdd ch buf s
  | .repairMapRemove ch => Sys2Proof.Machine.execRepairMapRemove ch s
  | .quote ch buf writeOk => Sys2Proof.Machine.execQuote ch buf writeOk s
  | .certificateGet ch writeOk => Sys2Proof.Machine.execCertificateGet ch writeOk s
  | .ownerKeyAdd ch buf burnOk => Sys2Proof.Machine.execOwnerKeyAdd ch buf burnOk s
  | .ownerKeyRevoke ch burnOk => Sys2Proof.Machine.execOwnerKeyRevoke ch burnOk s
  | .rollbackCommit ch burnOk => Sys2Proof.Machine.execRollbackCommit ch burnOk s
  | .fuseLockMatrix ch buf burnOk => Sys2Proof.Machine.execFuseLockMatrix ch buf burnOk s
  | .fuseLockDebugOff ch burnOk => Sys2Proof.Machine.execFuseLockDebugOff ch burnOk s
  | .fuseLockBoth ch buf burnOk => Sys2Proof.Machine.execFuseLockBoth ch buf burnOk s
  | .updateStage ch buf => Sys2Proof.Machine.execUpdateStage ch buf s
  | .updateApply ch flaws => Sys2Proof.Machine.execUpdateApply ch flaws s
  | .confirm ch => Sys2Proof.Machine.execConfirm ch s
  | .boardDescriptionWrite ch buf => Sys2Proof.Machine.execBoardDescriptionWrite ch buf s
  | .recoveryStage ch buf => Sys2Proof.Machine.execRecoveryStage ch buf s
  | .recoveryWrite ch flaws => Sys2Proof.Machine.execRecoveryWrite ch flaws s
  | .dieReport d => Sys2Proof.Machine.execDieReport d s
  | .focusContribution d ue ces => Sys2Proof.Machine.execFocusContribution d ue ces s
  | .openNoticeReceive d => Sys2Proof.Machine.execOpenNoticeReceive d s
  | .partialCellArrival d ue ces => Sys2Proof.Machine.execPartialCellArrival d ue ces s
  | .partialAckReceive d => Sys2Proof.Machine.execPartialAckReceive d s
  | .partialNackReceive d => Sys2Proof.Machine.execPartialNackReceive d s
  | .partialAckTimeout d => Sys2Proof.Machine.execPartialAckTimeout d s
  | .resultInject d ue prs => Sys2Proof.Machine.execResultInject d ue prs s
  | .closeMessageReceive d => Sys2Proof.Machine.execCloseMessageReceive d s
  | .chunkTimerExpire d slot => Sys2Proof.Machine.execChunkTimerExpire d slot s
  | .memberBitmapReply d => Sys2Proof.Machine.execMemberBitmapReply d s
  | .errorInject d prs => Sys2Proof.Machine.execErrorInject d prs s
  | .focusCreate m d tag => Sys2Proof.Machine.execFocusCreate m d tag s
  | .focusDestroy m d tag => Sys2Proof.Machine.execFocusDestroy m d tag s
  | .mainsEdge held tracked => Sys2Proof.Machine.execMainsEdge held tracked s
  | .ppsEdge rate => Sys2Proof.Machine.execPpsEdge rate s
  | .tenMhzLoss => Sys2Proof.Machine.execTenMhzLoss s
  | .freqAdjWrite m v => Sys2Proof.Machine.execFreqAdjWrite m v s
  | .missingEdge r => Sys2Proof.Machine.execMissingEdge r s
  | .sourceSelect m tod mains => Sys2Proof.Machine.execSourceSelect m tod mains s
  | .stepGo m => Sys2Proof.Machine.execStepGo m s
  | .cycleBoundary => Sys2Proof.Machine.execCycleBoundary s
  | .ephSwapGo m d p count => Sys2Proof.Machine.execEphSwapGo m d p count s
  | .ephSwapValidate d p => Sys2Proof.Machine.execEphSwapValidate d p s
  | .ephEnableWrite m d p l en => Sys2Proof.Machine.execEphEnableWrite m d p l en s
  | .followerSyncLoss d => Sys2Proof.Machine.execFollowerSyncLoss d s
  | .portEnable m d l => Sys2Proof.Machine.execPortEnable m d l s
  | .portDisable m d l cutFrame => Sys2Proof.Machine.execPortDisable m d l cutFrame s
  | .laneStateRequest m d l req => Sys2Proof.Machine.execLaneStateRequest m d l req s
  | .lanesReady d l => Sys2Proof.Machine.execLanesReady d l s
  | .autonegComplete d l partner => Sys2Proof.Machine.execAutonegComplete d l partner s
  | .trainingComplete d l coefficients preTx preRx => Sys2Proof.Machine.execTrainingComplete d l coefficients preTx preRx s
  | .linkUp d l aligned since => Sys2Proof.Machine.execLinkUp d l aligned since s
  | .attemptTimeout d l aligned since => Sys2Proof.Machine.execAttemptTimeout d l aligned since s
  | .backoffExpire d l => Sys2Proof.Machine.execBackoffExpire d l s
  | .linkDown d l cause cutFrame => Sys2Proof.Machine.execLinkDown d l cause cutFrame s
  | .rtcScanGo m d o v => Sys2Proof.Machine.execRtcScanGo m d o v s
  | .rtcScanAbort m d o v => Sys2Proof.Machine.execRtcScanAbort m d o v s
  | .scanComplete d o counts => Sys2Proof.Machine.execScanComplete d o counts s
  | .backgroundScan d o lane => Sys2Proof.Machine.execBackgroundScan d o lane s
  | .calibrationGo m d o v => Sys2Proof.Machine.execCalibrationGo m d o v s
  | .calibrationComplete d o ok => Sys2Proof.Machine.execCalibrationComplete d o ok s
  | .spareSubstituteGo m d o v => Sys2Proof.Machine.execSpareSubstituteGo m d o v s
  | .substitutionComplete d o ok => Sys2Proof.Machine.execSubstitutionComplete d o ok s
  | .sliceDegraded d l => Sys2Proof.Machine.execSliceDegraded d l s
  | .octetConfigWrite m d o v => Sys2Proof.Machine.execOctetConfigWrite m d o v s
  | .flitReceive meridian p good flit => Sys2Proof.Machine.execFlitReceive meridian p good flit s
  | .flitRetryRequest meridian p ue => Sys2Proof.Machine.execFlitRetryRequest meridian p ue s
  | .retrainComplete meridian p => Sys2Proof.Machine.execRetrainComplete meridian p s
  | .retrainTimeout meridian p => Sys2Proof.Machine.execRetrainTimeout meridian p s
  | .scrubGo m w => Sys2Proof.Machine.execScrubGo m w s
  | .scrubAbort m w => Sys2Proof.Machine.execScrubAbort m w s
  | .scrubUnit w found key owner mcr row => Sys2Proof.Machine.execScrubUnit w found key owner mcr row s
  | .bistGo m w v => Sys2Proof.Machine.execBistGo m w v s
  | .bistComplete w fails mcr row col => Sys2Proof.Machine.execBistComplete w fails mcr row col s
  | .shnSpareGo m meridian p v => Sys2Proof.Machine.execShnSpareGo m meridian p v s
  | .shnSpareComplete meridian p ok => Sys2Proof.Machine.execShnSpareComplete meridian p ok s
  | .cxlRegionEnable m r v => Sys2Proof.Machine.execCxlRegionEnable m r v s
  | .regionCommitComplete r => Sys2Proof.Machine.execRegionCommitComplete r s
  | .cxlRegionDisable m r v => Sys2Proof.Machine.execCxlRegionDisable m r v s
  | .cxlBudgetRefill => Sys2Proof.Machine.execCxlBudgetRefill s
  | .cxlRequestTimeout r d => Sys2Proof.Machine.execCxlRequestTimeout r d s
  | .cxlDeviceLost p => Sys2Proof.Machine.execCxlDeviceLost p s
  | .cxlPortRestart m p => Sys2Proof.Machine.execCxlPortRestart m p s
  | .cxlRestartComplete p units fast wide => Sys2Proof.Machine.execCxlRestartComplete p units fast wide s
  | .cxlRdRead poisoned => Sys2Proof.Machine.execCxlRdRead poisoned s
  | .pmuEpoch readings => Sys2Proof.Machine.execPmuEpoch readings s
  | .extThrotAssert => Sys2Proof.Machine.execExtThrotAssert s
  | .extThrotDeassert => Sys2Proof.Machine.execExtThrotDeassert s
  | .droopDetect d => Sys2Proof.Machine.execDroopDetect d s
  | .droopStretchEnd d => Sys2Proof.Machine.execDroopStretchEnd d s
  | .voltageStep w => Sys2Proof.Machine.execVoltageStep w s
  | .pmbusPoll reads => Sys2Proof.Machine.execPmbusPoll reads s
  | .senseGainCorrect w sensed => Sys2Proof.Machine.execSenseGainCorrect w sensed s
  | .ageingMeasure readings => Sys2Proof.Machine.execAgeingMeasure readings s
  | .ageMeasureCmd m w => Sys2Proof.Machine.execAgeMeasureCmd m w s
  | .ageMeasureRetry readings => Sys2Proof.Machine.execAgeMeasureRetry readings s
  | .lifeRecordWrite => Sys2Proof.Machine.execLifeRecordWrite s
  | .powerUp perst facts => Sys2Proof.Machine.execPowerUp perst facts s
  | .pwrGoodLoss => Sys2Proof.Machine.execPwrGoodLoss s
  | .sysRstAssert => Sys2Proof.Machine.execSysRstAssert s
  | .warmReset by' facts => Sys2Proof.Machine.execWarmReset by' facts s
  | .mpReset by' cause => Sys2Proof.Machine.execMpReset by' cause s
  | .hostPortReset perst => Sys2Proof.Machine.execHostPortReset perst s
  | .perstDeassert => Sys2Proof.Machine.execPerstDeassert s
  | .functionLevelReset f => Sys2Proof.Machine.execFunctionLevelReset f s
  | .thermalTrip => Sys2Proof.Machine.execThermalTrip s
  | .dieFatalError d => Sys2Proof.Machine.execDieFatalError d s
  | .measExtend m => Sys2Proof.Machine.execMeasExtend m s
  | .counterWrap w c n => Sys2Proof.Machine.execCounterWrap w c n s
  | .userPageRead f addr => Sys2Proof.Machine.execUserPageRead f addr s
  | .userPageWrite f addr v => Sys2Proof.Machine.execUserPageWrite f addr v s
  | .pstatClear m d v => Sys2Proof.Machine.execPstatClear m d v s
  | .sysRstRelease facts => Sys2Proof.Machine.execSysRstRelease facts s
  | .followerSyncRegain d => Sys2Proof.Machine.execFollowerSyncRegain d s
  | .wireMarginBelowLimit meridian p wire margin errors below => Sys2Proof.Machine.execWireMarginBelowLimit meridian p wire margin errors below s

end Sys2Proof.Machine
end

