-- ==== Sys2Proof/Safety.lean ====
section
/-!
DEFINITION. What claims call safe: one-time programmable state only grows, measurements only accumulate between resets, and
sparse stores stay in canonical form.
-/
namespace Sys2Proof.Machine

/-- Every bit of `a` is set in `b`. -/
def bitsWithin (a b : Nat) : Prop := a &&& b = a

/-- From `a` to `b` the fuses are only blown (R709): the part, the factory's repairs and the vendor's hashes stay; flags and
slot bits are only set; the rollback counters only rise; a locked matrix stays as it is. -/
structure Fuses.Grows (a b : Fuses) : Prop where
  part : b.part = a.part
  vendorHash : b.vendorHash = a.vendorHash
  repairs : b.repairs = a.repairs
  userOff : b.userOff = a.userOff
  debugOff : a.debugOff = true → b.debugOff = true
  matrixLock : a.matrixLock = true → b.matrixLock = true ∧ b.matrix = a.matrix
  vendorValid : bitsWithin a.vendorValid b.vendorValid
  vendorRevoked : bitsWithin a.vendorRevoked b.vendorRevoked
  ownerValid : bitsWithin a.ownerValid b.ownerValid
  ownerRevoked : bitsWithin a.ownerRevoked b.ownerRevoked
  vendorRb : a.vendorRb ≤ b.vendorRb
  ownerRb : a.ownerRb ≤ b.ownerRb

/-- The command completes and changes the core alone: the queue, the fuses, the measurements and the flash stay as they
are, and the core is the one named. -/
def Completes (c : Instr) (s : State) (k : Core) : Prop := exec c s = .next { s with core := k }

/-- The part runs, and the rules of access let the master read or write at window, page and offset (R71 to R103). -/
abbrev Serves (s : State) (m : Master) (w page off : Nat) (write : Bool) : Prop :=
  s.core.live = true ∧ s.core.verdict m w page off write = .ok

/-- Firmware runs service `sv` for the request on channel `ch`: it works on it and screens nothing out (R739, R740). -/
abbrev Runs (s : State) (ch : Nat) (sv : Service) : Prop := s.core.working ch sv = true ∧ s.core.screen ch sv = none

end Sys2Proof.Machine
end

