-- ==== Sys2Proof/Certificates/Slice0/Obligations.lean ====
section
/-!
DEFINITION. The statements: what each command does and leaves alone, by family; when an access is served; what holds of
every step.
-/
open Sys2Proof Sys2Proof.Machine

/-! ### Accesses of the register space -/

/-- REGISTER_WRITE by access type, on a port die (R77, R25): RW fields take the written bits; RO registers take
nothing; a W1C bit clears where a 1 is written and its RO neighbours stay; a value outside the range of a field keeps
the field and sets CFG_ERR; a write of EVT_FORCE makes the named bits pending, as the command EVT_FORCE does. A write of several registers is the write of the first and then of the others, in ascending
order (R91). Every field that is not named keeps its value, and so does everything else. Accesses that
reach no register (R3, R71, R92): a window of an absent port die and a reserved window read as zeros and take no
write; a reserved window and a bad width also set ACC_ERR on the page named. The read of an absent die sets no error. -/
def Obligations.RegisterAccess : Prop :=
  (∀ (s : State) (m : Master) (d : Fin 8) (addr : BitVec 28) (v : Word) (x : StartFacts),
     (splitAddr addr.toNat = (dw d, 0xD0, 0x100) → Serves s m (dw d) 0xD0 0x100 true →
       Completes (.registerWrite m addr v [] x) s
         ((s.core.wr R.TRC_CFG_ENTRY (dw d) 0 0 (bits v.toNat 22 12)).wr R.TRC_CFG_SWITCH_ID (dw d) 0 0
           (bits v.toNat 11 0))) ∧
     (splitAddr addr.toNat = (dw d, 0xD0, 0x110) → Serves s m (dw d) 0xD0 0x110 true →
       Completes (.registerWrite m addr v [] x) s s.core) ∧
     (splitAddr addr.toNat = (dw d, 0x60, 0x140) → Serves s m (dw d) 0x60 0x140 true →
       Completes (.registerWrite m addr v [] x) s
         (s.core.wr R.FOC_EVT_LOG_VALID (dw d) 0 0
           (if bit v.toNat 31 = 1 then 0 else s.core.rd R.FOC_EVT_LOG_VALID (dw d) 0 0))) ∧
     (splitAddr addr.toNat = (dw d, 0x20, 0x104) → Serves s m (dw d) 0x20 0x104 true →
       Completes (.registerWrite m addr v [] x) s
         (if 1 ≤ bits v.toNat 5 0 ∧ bits v.toNat 5 0 ≤ 50 then s.core.wr R.CAT_LRN_RATE_LIMIT (dw d) 0 0 (bits v.toNat 5 0)
          else s.core.cfgErr (dw d) 0x20 m 0x104)) ∧
     (splitAddr addr.toNat = (dw d, 0x20, 0x01C) → Serves s m (dw d) 0x20 0x01C true →
       Completes (.registerWrite m addr v [] x) s (s.core.onIo (·.setPending s.core.stamp (dw d) 0x20 v.toNat)))) ∧
  (∀ (s : State) (m : Master) (addr : BitVec 28) (v v1 : Word) (more : List Word) (x : StartFacts) (w page off : Nat),
     splitAddr addr.toNat = (w, page, off) → off % 4 = 0 → w ≤ 8 → off + 4 < 4096 → more.length ≤ 14 →
     ∃ t, exec (.registerWrite m addr v [] x) s = .next t ∧
       exec (.registerWrite m addr v (v1 :: more) x) s = exec (.registerWrite m (addr + 4) v1 more x) t) ∧
  (∀ (s : State) (m : Master) (addr : BitVec 28) (v : Option Word) (len : Fin 65) (write : Bool) (w page off : Nat),
     s.core.live = true → splitAddr addr.toNat = (w, page, off) →
     (1 ≤ w → w ≤ 8 → s.core.populated (w - 1) = false → (∀ d, m ≠ .die d) →
       Completes (.unpopulatedWindowAccess m addr v) s
         (if v.isNone then s.core.readOut m addr.toNat 0 else s.core)) ∧
     (9 ≤ w → w ≤ 14 → s.core.serves m = true →
       Completes (.reservedRangeAccess m addr v) s
         (if v.isNone then (s.core.accErr 0 0 m off).readOut m addr.toNat 0 else s.core.accErr 0 0 m off)) ∧
     (badWidth addr.toNat len = true → s.core.serves m = true → w = 0 → s.core.pageExists 0 page = true →
       Completes (.badWidthAccess m addr len write) s
         (if write then s.core.accErr 0 page m off else (s.core.accErr 0 page m off).readOut m addr.toNat 0)))

/-- The broadcast window (R72, R73, R81): a plain write that port die 0's rights allow applies on every populated die that
serves it, here on a part of two dies; a read returns the register of port die 0 and changes nothing else; a die controller
reaches no register through the window: both are denied with ACC_ERR, on port die 0's page (the page is the model's choice,
log 127). -/
def Obligations.BroadcastWindow : Prop :=
  ∀ (s : State) (m : Master) (off : BitVec 24) (v : Word), s.core.live = true →
    splitAddr off.toNat = (0, 0xD0, 0x100) →
    (s.core.part.dies = 2 → s.core.broadcastVerdict m 0xD0 0x100 true = .ok →
      s.core.verdict m 2 0xD0 0x100 true = .ok →
      Completes (.broadcastWrite m off v []) s
        ((((s.core.wr R.TRC_CFG_ENTRY 1 0 0 (bits v.toNat 22 12)).wr R.TRC_CFG_SWITCH_ID 1 0 0 (bits v.toNat 11 0)).wr
          R.TRC_CFG_ENTRY 2 0 0 (bits v.toNat 22 12)).wr R.TRC_CFG_SWITCH_ID 2 0 0 (bits v.toNat 11 0))) ∧
    (s.core.broadcastVerdict m 0xD0 0x100 false = .ok →
      Completes (.broadcastRead m off) s
        (s.core.readOut m (15 * 2 ^ 24 + off.toNat)
          (s.core.rd R.TRC_CFG_ENTRY 1 0 0 * 2 ^ 12 + s.core.rd R.TRC_CFG_SWITCH_ID 1 0 0))) ∧
    (∀ d, m = .die d → s.core.populated 0 = true →
      Completes (.broadcastWrite m off v []) s (s.core.accErr 1 0xD0 m 0x100) ∧
      Completes (.broadcastRead m off) s ((s.core.accErr 1 0xD0 m 0x100).readOut m (15 * 2 ^ 24 + off.toNat) 0))

/-- Reads with a side effect (R79, R93): a permitted read of SEQ_PARK_STAT returns PEAK, which is at least the entries in use,
and USED, and clears the RC field PEAK alone; a read of the low half of CNT_INVDEST returns it and latches the high half for
the master, when nothing is latched there for it. Writes of a 64-bit value by halves (R94), on the general counters of a port
die: the write of the low half is held for the master and changes no register; the write of the high half then puts both
halves in force and ends the hold; with no hold the low half in force stays. -/
def Obligations.ReadEffectsAndHalves : Prop :=
  (∀ (s : State) (m : Master) (d p : Fin 8) (addr : BitVec 28),
     (splitAddr addr.toNat = (dw d, 8 + p.val, 0x11C) → Serves s m (dw d) (8 + p.val) 0x11C false →
       s.core.io.latch = [] →
       Completes (.rcReadClear m addr 0) s
         ((s.core.wr R.SEQ_PARK_STAT_PEAK (dw d) p 0 0).readOut m addr.toNat
           (max (s.core.rd R.SEQ_PARK_STAT_PEAK (dw d) p 0) (s.core.rd R.SEQ_PARK_STAT_USED (dw d) p 0) % 2 ^ 16 * 2 ^ 16 +
             s.core.rd R.SEQ_PARK_STAT_USED (dw d) p 0))) ∧
     (splitAddr addr.toNat = (dw d, 0xCC, 0x110) → Serves s m (dw d) 0xCC 0x110 false → s.core.io.latch = [] →
       Completes (.lowHalfReadLatch m addr false) s
         ((s.core.onIo fun io =>
             { io with latch := [(halfKey m (addr.toNat + 4), s.core.rd R.CNT_INVDEST_HI (dw d) 0 0 + 1)] }).readOut m
           addr.toNat (s.core.rd R.CNT_INVDEST_LO (dw d) 0 0)))) ∧
  (∀ (s : State) (m : Master) (d : Fin 8) (i : Fin 64) (addr : BitVec 28) (v : Word),
     (splitAddr addr.toNat = (dw d, 0xCC, 0x400 + 8 * i.val) → Serves s m (dw d) 0xCC (0x400 + 8 * i.val) true →
       Completes (.lowHalfWriteHold m addr v) s
         (s.core.onIo fun io => { io with hold := io.hold.set (halfKey m addr.toNat) (v.toNat + 1) })) ∧
     (splitAddr addr.toNat = (dw d, 0xCC, 0x404 + 8 * i.val) → Serves s m (dw d) 0xCC (0x404 + 8 * i.val) true →
       Completes (.highHalfWrite m addr v) s
         (((s.core.onIo fun io => { io with hold := io.hold.set (halfKey m (addr.toNat - 4)) 0 }).wr R.CNT_VAL_LO (dw d) 0 i
           (if s.core.io.hold.get (halfKey m (addr.toNat - 4)) = 0 then s.core.rd R.CNT_VAL_LO (dw d) 0 i
            else s.core.io.hold.get (halfKey m (addr.toNat - 4)) - 1)).wr R.CNT_VAL_HI (dw d) 0 i v.toNat)))

/-- RWD_HOLD_RELEASE and PAGE_OWNER_WRITE (R82, R85, R86): releasing the hold lets the page's held writes wait for the next
boundary, and theirs alone; PF0 and the MP set VALID and OWNER, and no other master does: its write is discarded with
ACC_ERR. -/
def Obligations.PageControlWrites : Prop :=
  ∀ (s : State) (m : Master) (w : Fin 9) (page : Fin 4096) (v : Word),
    (Serves s m w page 0x008 true →
      Completes (.rwdHoldRelease m w page) s
        ((s.core.wr R.PAGE_CTRL_RWD_HOLD w page 0 0).onIo fun io =>
          { io with rwd := io.rwd.map fun r =>
              if r.win = w.val ∧ r.page = page.val then { r with held := false } else r })) ∧
    (Serves s m w page 0x024 true → m = .pf 0 ∨ m = .mp → v.toNat % 16 ≠ 6 → v.toNat % 16 ≠ 7 →
      Completes (.pageOwnerWrite m w page v) s
        ((s.core.wr R.PAGE_OWNER_VALID w page 0 (bit v.toNat 4)).wr R.PAGE_OWNER_OWNER w page 0 (v.toNat % 16))) ∧
    (Serves s m w page 0x024 true → m ≠ .pf 0 → m ≠ .mp →
      Completes (.pageOwnerWrite m w page v) s (s.core.accErr w page m 0x024))

/-- IND_READ and IND_WRITE start an operation of a window (R95): AUTOINC is kept, the page is busy with the operation,
and nothing else changes; while the page is busy the command is discarded with ACC_ERR (R97); a stage-store write by
another master than the MP is discarded with ACC_ERR (R187). IND_OP_COMPLETE on the multicast groups of a pipeline
(R95, R96): a write puts the staged words into the entry at IND_ADDR, a read shows the entry in the data words; FAIL
clears, the operation ends, and IND_ADDR moves on under AUTOINC. CXL_RD_READ (R620): a read of a line inside a region
that takes requests, within its budget, and of region 0 only for the MP, shows the line in the data words, with FAIL
where it is poisoned, now or before, and counts in the latency of its port. -/
def Obligations.IndirectWindows : Prop :=
  (∀ (s : State) (m : Master) (w : Fin 9) (tab : Fin 42) (p : Fin 68) (autoinc : Bool) (x : IndWin),
     winOf tab = some x → indStands x w p = true → Serves s m w (x.page + p) (x.base + 4) true →
     (s.core.indBusy w (x.page + p) = false →
       Completes (.indRead m w tab p autoinc) s
         ((s.core.wr (indAuto x) w p 0 (b2n autoinc)).onIo fun io =>
           { io with ind := io.ind ++ [⟨x.tab, w, x.page + p, x.base, false, false, m.id, s.core.time.now⟩] }) ∧
       ((x.kind = .store → m = .mp) →
         Completes (.indWrite m w tab p autoinc) s
           ((s.core.wr (indAuto x) w p 0 (b2n autoinc)).onIo fun io =>
             { io with ind := io.ind ++ [⟨x.tab, w, x.page + p, x.base, true, false, m.id, s.core.time.now⟩] })) ∧
       (x.kind = .store → m ≠ .mp →
         Completes (.indWrite m w tab p autoinc) s (s.core.accErr w (x.page + p) m (x.base + 4)))) ∧
     (s.core.indBusy w (x.page + p) = true →
       Completes (.indRead m w tab p autoinc) s (s.core.accErr w (x.page + p) m (x.base + 4)) ∧
       Completes (.indWrite m w tab p autoinc) s (s.core.accErr w (x.page + p) m (x.base + 4)))) ∧
  (∀ (s : State) (d p : Fin 8) (x : IndWin) (op : IndOp) (i : Nat) (act : Bool),
     s.core.live = true → winOf Tab.HVX_MCG = some x → s.core.rd (indAddr x) (dw d) p 0 = i → i < 16384 →
     s.core.underTest x (dw d) p = false →
     s.core.io.ind.find? (fun o => o.tab == Tab.HVX_MCG && o.win == dw d && o.page == x.page + p.val) = some op →
     (op.write = true →
       Completes (.indOpComplete (Fin.ofNat 9 (dw d)) 2 (Fin.ofNat 68 p.val) .good act) s
         ((((s.core.wr (indFailed x) (dw d) p 0 0).tw T.HVX_MCG_PIPES (dw d) p i (s.core.indWord x (dw d) p % 2 ^ 64)).tw
           T.HVX_MCG_MEMBERS (dw d) p i (s.core.indWord x (dw d) p / 2 ^ 64 % 2 ^ 32)).indEnd x op (dw d) p)) ∧
     (op.write = false →
       Completes (.indOpComplete (Fin.ofNat 9 (dw d)) 2 (Fin.ofNat 68 p.val) .good act) s
         ((((s.core.wr (indFailed x) (dw d) p 0 0).putIndData x (dw d) p
           (s.core.td T.HVX_MCG_PIPES (dw d) p i % 2 ^ 64 + s.core.td T.HVX_MCG_MEMBERS (dw d) p i % 2 ^ 32 * 2 ^ 64)).wr
             (indFailed x) (dw d) p 0 0).indEnd x op (dw d) p))) ∧
  (∀ (s : State) (x : IndWin) (op : IndOp) (r n : Nat) (poisoned : Bool),
     s.core.live = true → winOf Tab.CXL_RD = some x →
     s.core.io.ind.find? (fun o => o.tab == Tab.CXL_RD && o.win == 0 && o.page == x.page) = some op → op.write = false →
     s.core.rd R.CXL_RD_SEL_REGION 0 0 0 = r → s.core.rd (indAddr x) 0 0 0 = n → 64 ≤ s.core.tokens r →
     s.core.regionOn r = true → s.core.cxlUp (s.core.regionPort r) = true → n < s.core.regionLines r →
     (r = 0 → op.master = 4) →
     op.refused = false →
       Completes (.cxlRdRead poisoned) s
         (let k := s.core.answered r op.since
          let y := (if poisoned then k.poisonLine r n else k).readLine r n
          ((y.1.putIndData x 0 0 y.2.1).wr (indFailed x) 0 0 0 (b2n y.2.2)).indEnd x op 0 0))

/-! ### Events and locks -/

/-- CE_BUCKET_LEAK, EVT_FORCE, EVT_PENDING_CLEAR and EVT_SRC_PENDING_UPDATE (R82, R84, R105, R108, R109): a bucket
loses one unit and stops at 0; a forced bit becomes pending whatever EVT_ENABLE says; each 1 written clears its
pending bit, at once in the tree for a Meridian page and noted for the master for a port-die page; an update brings a
page's state to the tree, of a fenced die too. EVT_VEC_ARM and MSIX_MESSAGE_SEND (R106 to R108): arming sets the arm bits
written and no other, after the master's own clears have reached the tree (it has none here); an enabled, armed and active
vector whose hold-off has passed sends its message, is disarmed, and keeps the time of the message; while its function masks
the entry the message is held in the PBA instead. -/
def Obligations.EventsAndVectors : Prop :=
  (∀ (s : State) (m : Master) (w : Fin 9) (page : Fin 4096) (i d : Fin 8) (mask : Word),
     (s.core.live = true →
       Completes (.ceBucketLeak w page i) s
         (s.core.wr R.PAGE_CE_STAT_LEVEL w page i (s.core.rd R.PAGE_CE_STAT_LEVEL w page i - 1))) ∧
     (Serves s m w page 0x01C true →
       Completes (.evtForce m w page mask) s (s.core.onIo (·.setPending s.core.stamp w page mask.toNat))) ∧
     (Serves s m w page 0x018 true →
       Completes (.evtPendingClear m w page mask) s
         (let k := s.core.wr R.EVT_PENDING w page 0
             (s.core.rd R.EVT_PENDING w page 0 - (s.core.rd R.EVT_PENDING w page 0 &&& mask.toNat))
          if w.val = 0 then k.onIo (·.refreshSource 0 page)
          else k.onIo fun io => { io with w1c := io.w1c ++ [(m.id, w.val, page.val)] })) ∧
     (s.core.live = true → s.core.populated d = true → (blockOf (dw d) page).isSome = true →
       Completes (.evtSrcPendingUpdate d page) s
         (s.core.onIo fun io => { io.refreshSource (dw d) page with
           w1c := io.w1c.filter fun x => !(x.2.1 == dw d && x.2.2 == page.val) }))) ∧
  (∀ (s : State) (m : Master) (hi : Bool) (mask : Word) (v : Fin 64) (masked : BitVec 4),
     (Serves s m 0 0x002 (if hi then 0x204 else 0x200) true → s.core.io.w1c = [] →
       Completes (.evtVecArm m hi mask) s
         (s.core.wr (if hi then R.EVT_VEC_ARM_HI else R.EVT_VEC_ARM_LO) 0 0 0
           (s.core.rd (if hi then R.EVT_VEC_ARM_HI else R.EVT_VEC_ARM_LO) 0 0 0 ||| mask.toNat))) ∧
     (s.core.live = true → s.core.rd R.EVT_VEC_CFG_EN 0 0 v = 1 → bit s.core.armed v = 1 → s.core.vecActive v = true →
       (s.core.io.vecLast.get v = 0 ∨
         s.core.io.vecLast.get v - 1 + s.core.rd R.EVT_VEC_CFG_HOLDOFF 0 0 v * 1000 ≤ s.core.time.now) →
       s.core.io.pba = [] →
       let pf := s.core.rd R.EVT_VEC_CFG_PF 0 0 v
       Completes (.msixMessageSend v masked) s
         (((if masked.getLsbD pf then s.core.onIo fun io => { io with pba := [(pf, v.val)] }
             else s.core.emit (.msix pf v)).onIo fun io =>
             io.wr64 R.EVT_VEC_ARM_LO R.EVT_VEC_ARM_HI 0 0 0 (s.core.armed - 2 ^ v.val)).onIo fun io =>
           { io with vecLast := io.vecLast.set v (s.core.time.now + 1) })))

/-- The lock registers (R112 to R115): a read of a free lock answers 0 and makes the reader its owner; a read of a
held one answers HELD and the owner and changes nothing; the owner's write of its own ID frees the lock; any other
write is discarded with ACC_ERR; a holding above the limit raises its event once. LOCK_BREAK_WRITE and
LOCK_HOLD_LIMIT_WRITE (R114 to R116): PF0 and the MP free each held lock whose bit is 1, and freeing one raises the
lock-broken event; no other master does: ACC_ERR; a limit of 0 is reserved: CFG_ERR; another limit is in force at once
(no lock is held here, so no alarm follows). -/
def Obligations.LockRegisters : Prop :=
  (∀ (s : State) (m : Master) (i : Fin 64) (v : Word),
     (Serves s m 0 0x004 (0x100 + 4 * i.val) false → s.core.lockHeld i = false →
       Completes (.lockAcquireRead m i) s
         ((((s.core.wr R.LCK_LOCK_HELD 0 0 i 1).wr R.LCK_LOCK_OWNER 0 0 i m.id).onIo fun io =>
           { io with lockSince := io.lockSince.set i (s.core.time.now + 1) }).emit
             (.readData m.id (regAddr 0 0x004 (0x100 + 4 * i.val)) 0))) ∧
     (Serves s m 0 0x004 (0x100 + 4 * i.val) false → s.core.lockHeld i = true →
       Completes (.lockAcquireRead m i) s
         (s.core.emit (.readData m.id (regAddr 0 0x004 (0x100 + 4 * i.val))
           (2 ^ 31 + s.core.rd R.LCK_LOCK_OWNER 0 0 i)))) ∧
     (Serves s m 0 0x004 (0x100 + 4 * i.val) true → s.core.lockHeld i = true →
       s.core.rd R.LCK_LOCK_OWNER 0 0 i = m.id → v.toNat % 16 = m.id →
       Completes (.lockRelease m i v) s
         (((s.core.wr R.LCK_LOCK_HELD 0 0 i 0).wr R.LCK_LOCK_OWNER 0 0 i 0).onIo fun io =>
           { io with lockSince := io.lockSince.set i 0, lockRaised := io.lockRaised.filter (· != i.val) })) ∧
     (Serves s m 0 0x004 (0x100 + 4 * i.val) true →
       (s.core.lockHeld i = false ∨ s.core.rd R.LCK_LOCK_OWNER 0 0 i ≠ m.id ∨ v.toNat % 16 ≠ m.id) →
       Completes (.lockRelease m i v) s (s.core.accErr 0 0x004 m (0x100 + 4 * i.val))) ∧
     (s.core.live = true → s.core.lockHeld i = true → i.val ∉ s.core.io.lockRaised →
       s.core.io.lockSince.get i - 1 + s.core.rd R.LCK_CFG_HOLD_LIMIT 0 0 0 * 1000 < s.core.time.now →
       Completes (.lockHoldExpire i) s
         ((s.core.onIo fun io => { io with lockRaised := io.lockRaised ++ [i.val] }).raise 0 0x004 0))) ∧
  (∀ (s : State) (m : Master) (i : Fin 32) (hi : Bool) (mask v : Word),
     let off := if hi then 0x20C else 0x208
     let n := if hi then i.val + 32 else i.val
     (Serves s m 0 0x004 off true → m = .pf 0 ∨ m = .mp → mask.toNat = 2 ^ i.val → s.core.lockHeld n = true →
       Completes (.lockBreakWrite m hi mask) s
         ((((s.core.wr R.LCK_LOCK_HELD 0 0 n 0).wr R.LCK_LOCK_OWNER 0 0 n 0).onIo fun io =>
           { io with lockSince := io.lockSince.set n 0, lockRaised := io.lockRaised.filter (· != n) }).raise
             0 0x004 1)) ∧
     (Serves s m 0 0x004 off true → m ≠ .pf 0 → m ≠ .mp →
       Completes (.lockBreakWrite m hi mask) s (s.core.accErr 0 0x004 m off)) ∧
     (Serves s m 0 0x004 0x210 true → v.toNat % 65536 = 0 →
       Completes (.lockHoldLimitWrite m v) s (s.core.cfgErr 0 0x004 m 0x210)) ∧
     (Serves s m 0 0x004 0x210 true → v.toNat % 65536 ≠ 0 → (∀ i < 64, s.core.lockHeld i = false) →
       Completes (.lockHoldLimitWrite m v) s (s.core.wr R.LCK_CFG_HOLD_LIMIT 0 0 0 (v.toNat % 65536))))

/-! ### Reception, the ingress half, parking -/

/-- FRAME_RECEIVE of a good frame of one cell on a port that is up, with room in its account (R42, R316, R324, R407): after
its codewords are counted (R534) and the statistics, one cell is charged to the account of its priority group, and a packet
with the frame, the group's number and its timestamp, the time of the end of its first symbol less RX_COMP, waits for the
parser, behind all others. A port that does not receive takes nothing, nor does one whose pipeline is not ready besides what
its codewords count, and a frame shorter than 64 bytes only counts. -/
def Obligations.FrameReceive : Prop :=
  (∀ (s : State) (d : Fin 8) (l : Fin 256) (frame : List Byte) (words : List (List (Fin 544))) (shared : Bool)
      (line : List (List (Fin 4))), s.core.live = true →
    let k1 := s.core.wordsSeen d l (s.core.codedWords d l (words.map fun x => x.map (·.val))) shared
    (s.core.receives d l = false → Completes (.frameReceive d l frame words shared line) s s.core) ∧
    (s.core.receives d l = true → k1.macReady d l = false →
      Completes (.frameReceive d l frame words shared []) s k1) ∧
    (s.core.receives d l = true → k1.macReady d l = true → frame.length < 64 →
      Completes (.frameReceive d l frame words shared []) s ((k1.pstat d l 10 frame.length).pstat d l 3 1))) ∧
  ∀ (s : State) (d : Fin 8) (l : Fin 256) (frame : List Byte) (words : List (List (Fin 544))) (shared : Bool),
    let ws := s.core.codedWords d l (words.map fun x => x.map (·.val))
    let k0 := s.core.wordsSeen d l ws shared
    s.core.live = true → s.core.receives d l = true → ws.any (s.core.lineForm d l).spoilt = false →
    k0.macReady d l = true → 64 ≤ frame.length → frame.length ≤ 256 →
    frame.length ≤ k0.mtu d l → fcsGood frame = true → getBe frame 12 2 ≠ 0x8808 →
    let k1 := (k0.pstat d l 10 frame.length).rxStats d l frame false true
    let pg := (k1.classify d l frame).1
    let t := ((k1.time.tod : Int) - signed (k1.td T.STB_COMP_RX_COMP (dw d) 0 l)).toNat
    (k1.admitCell d l pg true = .minimum ∨ k1.admitCell d l pg true = .shared) →
      let k2 := (k1.chargeCell d l pg .shared).moved d (k1.freeCells d)
      Completes (.frameReceive d l frame words shared []) s
        ((k2.takeId.2.takeId.2.addGrp (freshGrp k2.takeId.1 d 1 l pg)).moveOn
          (freshPkt k2.takeId.2.takeId.1 d (l.val / 32) l pg (k1.losslessPg d l pg) k2.takeId.1 frame
            (k1.classify d l frame).2 (BitVec.ofNat 32 (t / 65536 % 1000000000)) (BitVec.ofNat 32 (t / secUnits))))

/-- XOFF_EVAL (R327): a lossless group that is not in XOFF enters it when its use reaches the limit or headroom is in use;
one in XOFF leaves it when no headroom is in use and its use is at most the limit less XON_OFS; otherwise nothing changes. -/
def Obligations.XoffEvaluation : Prop :=
  ∀ (s : State) (d : Fin 8) (l : Fin 256) (g : Fin 8), s.core.live = true → s.core.portExists d l = true →
    let k := s.core
    let mask := k.td T.BUF_PORT_XOFF_TX (dw d) 0 l
    let full := overLimit (k.ingS d l g) (k.td T.BUF_PG_ALPHA (dw d) 0 (l.val * 8 + g.val)) (k.freeCells d)
    let empty := underLimit (k.ingS d l g) (k.td T.BUF_PG_ALPHA (dw d) 0 (l.val * 8 + g.val)) (k.freeCells d)
      (k.td T.BUF_PG_XON_OFS (dw d) 0 (l.val * 8 + g.val))
    (k.losslessPg d l g = true → k.inXoff d l g = false → full = true ∨ 0 < k.ingH d l g →
      Completes (.xoffEval d l g) s
        (((k.tw T.BUF_PORT_XOFF_TX (dw d) 0 l (mask ||| 2 ^ g.val)).count (dw d) 3 2 (l.val / 32) 1).pfcDue d l 0)) ∧
    (k.inXoff d l g = true → k.ingH d l g = 0 → empty = true →
      Completes (.xoffEval d l g) s
        ((k.tw T.BUF_PORT_XOFF_TX (dw d) 0 l (mask - (mask &&& 2 ^ g.val))).pfcDue d l (2 ^ g.val))) ∧
    (k.inXoff d l g = true → k.ingH d l g ≠ 0 ∨ empty = false → Completes (.xoffEval d l g) s k) ∧
    (k.inXoff d l g = false → k.losslessPg d l g = false ∨ (full = false ∧ k.ingH d l g = 0) →
      Completes (.xoffEval d l g) s k)

/-- INGRESS_PARSE (R44, R120, R209): on a pipeline whose stores are ready the oldest packet that waits is parsed and stands at
stage 0, at an address of its epoch's half, behind all others, with its frame as it was; the buffers and the tables stay. -/
def Obligations.IngressParse : Prop :=
  ∀ (s : State) (d p : Fin 8) (ue : Option (Fin 256)) (ces : List (Fin 4096 × Fin 8)) (x : Pkt), s.core.live = true →
    s.core.pipes.pkts.find? (fun x => x.die == d.val && x.pipe == p.val && x.place == .arrived) = some x →
    s.core.rd R.SEQ_STATUS_READY (dw d) p 0 ≠ 0 →
    ∃ k y, Completes (.ingressParse d p ue ces) s k ∧ k.pipes.pkts = s.core.pipes.pkts.filter (·.id != x.id) ++ [y] ∧
      y.id = x.id ∧ y.frame = x.frame ∧ y.grp = x.grp ∧ y.place = .stage ∧ y.stage = 0 ∧ y.ended = false ∧
      y.addr / 2048 = s.core.epoch d p false ∧ k.buf = s.core.buf ∧ k.tables = s.core.tables ∧ k.time = s.core.time

/-- STAGE_EXECUTE of the first packet of a stage (R143 to R155, R188, R189, R241), whatever the stage finds besides: past
END it goes on without a fetch; an uncorrectable word drops it; a parity failure replays it; a lookup that is not served waits;
else the word at its address runs and the packet goes on, or parks where a WAIT condition does not hold. A word of zeros
does nothing but pass the packet on (R127, R131, R143, R152): in an ingress stage before the last, the packet stands at the
next stage with the next address of its half; its vector, flags, results and frame are as before. -/
def Obligations.StageExecute : Prop :=
  (∀ (s : State) (id : Nat) (x : StageFacts) (p : Pkt), s.core.live = true → s.core.pkt id = some p → p.place = .stage →
     s.core.firstInStage p = true → (p.stage = 17 → ∀ c, p.copy = some c → s.core.egressBehind p c = false) →
     let key := storeKey p.die p.pipe p.stage p.addr
     let word := s.core.pipes.store.get key
     let k1 := if x.fetch = .ce then s.core.ceFound (dw p.die) (8 + p.pipe) 0 0 else s.core
     let entry := x.prs.map (·.val)
     (p.ended = true →
       (x.rebuild = false ∨ p.stage ≠ 17 →
         Completes (.stageExecute id x) s ((s.core.cesFound (dw p.die) x.ces).advance p x.entryUe)) ∧
       (x.rebuild = true → p.stage = 17 → Completes (.stageExecute id x) s (s.core.replay p entry))) ∧
     (p.ended = false → x.fetch = .ue ∨ key ∈ s.core.pipes.storeUe →
       Completes (.stageExecute id x) s (s.core.storeUe p key)) ∧
     (p.ended = false → x.fetch ≠ .ue → key ∉ s.core.pipes.storeUe →
       (x.parity = true → Completes (.stageExecute id x) s (k1.replay p entry)) ∧
       (x.parity = false → x.defer = true → wLookup word = true → Completes (.stageExecute id x) s k1) ∧
       (x.parity = false → x.defer = false ∨ wLookup word = false →
         Completes (.stageExecute id x) s
           (match (k1.cesFound (dw p.die) x.ces).execWord p word (x.lookupUe.map fun u => (u.1.val, u.2)) with
            | (k2, .wait q) => k2.park q word
            | (k2, .go q) => if x.rebuild = true ∧ p.stage = 17 then k2.replay q entry else k2.advance q x.entryUe)))) ∧
  (∀ (s : State) (id : Nat) (tableUe : Bool) (p : Pkt), s.core.live = true → s.core.pkt id = some p → p.place = .stage →
     s.core.firstInStage p = true → p.copy = none → p.ended = false → p.stage < 11 → p.reentry = false → p.flags < 256 →
     storeKey p.die p.pipe p.stage p.addr ∉ s.core.pipes.storeUe →
     s.core.pipes.store.get (storeKey p.die p.pipe p.stage p.addr) = 0 →
       Completes (.stageExecute id ⟨false, false, .good, none, tableUe, false, none, []⟩) s
         ({ s.core with time := { s.core.time with draws := s.core.time.draws + 16 } }.moveOn
           { p with stage := p.stage + 1, addr := p.addr / 2048 * 2048 + (p.addr % 2048 + 1) % 2048 }))

/-- The ALU opcodes of R214, each with its result and its carry, as numbers and bits: a shift or rotation takes B[4:0], BFX
and BFI take their width less one from B[9:5], and BFI reads the destination as its third source. HASH has the check
value of R214. NOP forms no result and no carry. A word that holds a reserved opcode is refused, under reason 6 of R181
where no lower reason applies. -/
def Obligations.AluOperations : Prop :=
  (∀ a b d : Word,
    let A := a.toNat
    let B := b.toNat
    let n := B % 32
    let w := B / 32 % 32 + 1
    let sum := A % 65536 + B % 65536
    let res (op : Nat) : Word := (alu op a b d).res
    let carry (op : Nat) : Bool := (alu op a b d).carry
    ((alu 0x00 a b d).nop = true ∧ ∀ op, 1 ≤ op → op < 0x1A → (alu op a b d).nop = false) ∧
    res 0x01 = a ∧
    ((res 0x02).toNat = (A + B) % 2 ^ 32 ∧ (carry 0x02 = true ↔ 2 ^ 32 ≤ A + B)) ∧
    ((res 0x03).toNat = (A + 2 ^ 32 - B) % 2 ^ 32 ∧ (carry 0x03 = true ↔ A < B)) ∧
    ((res 0x04).toNat = min (A + B) 0xFFFFFFFF ∧ (carry 0x04 = true ↔ 0xFFFFFFFF < A + B)) ∧
    ((res 0x05).toNat = A - B ∧ (carry 0x05 = true ↔ A < B)) ∧
    (∀ i, (res 0x06).getLsbD i = (a.getLsbD i && b.getLsbD i) ∧ (res 0x07).getLsbD i = (a.getLsbD i || b.getLsbD i) ∧
      (res 0x08).getLsbD i = (a.getLsbD i != b.getLsbD i) ∧ (res 0x09).getLsbD i = (a.getLsbD i && !b.getLsbD i)) ∧
    ((res 0x0A).toNat = A * 2 ^ n % 2 ^ 32 ∧ (carry 0x0A = true ↔ n ≠ 0 ∧ a.getLsbD (32 - n) = true)) ∧
    ((res 0x0B).toNat = A / 2 ^ n ∧ (res 0x0C).toInt = a.toInt / 2 ^ n ∧
      ∀ op, op = 0x0B ∨ op = 0x0C → (carry op = true ↔ n ≠ 0 ∧ a.getLsbD (n - 1) = true)) ∧
    (∀ i, i < 32 → (res 0x0D).getLsbD ((i + n) % 32) = a.getLsbD i) ∧
    ((res 0x0E).toNat = min A B ∧ (res 0x0F).toNat = max A B) ∧
    (res 0x10 = (if A = B then 1 else 0) ∧ res 0x11 = (if A < B then 1 else 0) ∧
      res 0x12 = (if a.toInt < b.toInt then 1 else 0)) ∧
    (res 0x13).toNat = A / 2 ^ n % 2 ^ w ∧
    (res 0x14).toNat = crc32c [A % 256, A / 2 ^ 8 % 256, A / 2 ^ 16 % 256, A / 2 ^ 24, B % 256, B / 2 ^ 8 % 256,
      B / 2 ^ 16 % 256, B / 2 ^ 24] ∧
    (∀ i, i < 32 → (res 0x15).getLsbD i = if n ≤ i ∧ i < n + w then a.getLsbD (i - n) else d.getLsbD i) ∧
    (res 0x16).toNat = A % 2 ^ 16 * (B % 2 ^ 17) / 2 ^ 16 ∧
    (res 0x17).toNat = (List.range 32).countP (fun i => a.getLsbD i) ∧
    ((A = 0 → (res 0x18).toNat = 32) ∧
      (A ≠ 0 → (res 0x18).toNat < 32 ∧ a.getLsbD (res 0x18).toNat = true ∧
        ∀ i, i < (res 0x18).toNat → a.getLsbD i = false)) ∧
    ((res 0x19).toNat = (if sum < 65536 then sum else sum - 65535) ∧ (carry 0x19 = true ↔ 65536 ≤ sum)) ∧
    (∀ op, op < 0x1A → op ∉ [0x02, 0x03, 0x04, 0x05, 0x0A, 0x0B, 0x0C, 0x19] → carry op = false)) ∧
  crc32c [0x31, 0x32, 0x33, 0x34, 0x35, 0x36, 0x37, 0x38, 0x39] = 0xE3069283 ∧
  (∀ w st j, j < 4 → 0x1A ≤ (aluField w j).op →
    wordReason w st = some 5 ∨ wordReason w st = some 6) ∧
  (∀ w st j, j < 4 → 0x1A ≤ (aluField w j).op → wordBreaks w st = false → wordReason w st = some 6)

/-- Parking (R159 to R168): a stalled packet is held once an entry and room are free; a parked packet whose condition holds is
woken, unless one that parked before it in its pipeline is ready too; one whose time has run out is so too, with the timed-out
mark and counted; a woken packet re-enters its stage with its cells back in its ingress account, after those that parked before
it and became ready with it, or is dropped when its entry is lost; a held packet leaves the ingress half when no earlier packet
of its port has to leave first. -/
def Obligations.Parking : Prop :=
  ∀ (s : State) (id : Nat) (p : Pkt) (ue : Bool), s.core.live = true → s.core.pkt id = some p →
    (p.place = .stalled true → s.core.canPark p.die p.pipe (s.core.grpCells p.grp) = true →
      Completes (.parkStallRelease id) s
        (((((s.core.takeId.2.parkGrp p.grp p.pipe).putPkt
          { p with place := .held, parkSeq := s.core.pipes.nextId }).bump R.SEQ_ORDER_HOLD_CNT (dw p.die) p.pipe
          0 1).count (dw p.die) 1 4 p.pipe 1).unstall p.die p.pipe)) ∧
    (∀ wsel since tmo, p.place = .parked wsel since tmo → s.core.waitHolds p (s.core.wordOf p) = true →
      (s.core.pipes.pkts.any (s.core.readyBefore · p) = false →
        Completes (.parkWake id) s (s.core.putPkt { p with place := .woken wsel s.core.time.now })) ∧
      (s.core.pipes.pkts.any (s.core.readyBefore · p) = true →
        Completes (.parkWake id) s s.core ∧ Completes (.parkTimeout id) s s.core)) ∧
    (∀ wsel at', p.place = .woken wsel at' → s.core.pipes.pkts.any (s.core.wokenBefore · p at') = false →
      Completes (.parkReentry id false) s ((s.core.unparkGrp p.grp).moveOn { p with place := .stage, reentry := true }) ∧
      Completes (.parkReentry id true) s
        ((((s.core.unparkGrp p.grp).ueFound (dw p.die) 1).raise (dw p.die) (8 + p.pipe) 0).dropPkt p)) ∧
    (∀ wsel since tmo, p.place = .parked wsel since tmo → since + tmo * 1000 ≤ s.core.time.now →
      s.core.waitHolds p (s.core.wordOf p) = false → s.core.pipes.pkts.any (s.core.readyBefore · p) = false →
      Completes (.parkTimeout id) s
        (((s.core.bump R.SEQ_PARK_TMO_CNT (dw p.die) p.pipe 0 1).raise (dw p.die) (8 + p.pipe) 2).putPkt
          { (if wsel = 1 then { p with res := [0, 0, 0, 0], resHit := false, resPoison := false, resErr := true, deep := .returned }
              else p) with place := .woken wsel s.core.time.now, timedOut := true })) ∧
    (p.place = .held →
      (∀ x ∈ s.core.pipes.pkts, x.id < p.id → x.die = p.die → x.inPort = p.inPort → x.egress = false →
        x.recirculated = true ∨ x.place = .arrived ∨ x.focusParked = true) →
      Completes (.orderHoldRelease id ue) s ((s.core.unparkGrp p.grp).leaveIngress p ue))

/-- DEEP_LOOKUP_RETURN and STORE_WORD_REWRITE (R190, R291 to R293): a lookup that times out returns an error, is counted and
raises the event; one whose two lines are within the budget returns what they hold; either makes room for the die's oldest
queued one; a queued lookup with no place stays; an uncorrectable word is rewritten from the retained image, which is read
within the budget of region 0, and is readable again. -/
def Obligations.DeepReturnAndRewrite : Prop :=
  ∀ (s : State) (id : Nat) (p : Pkt) (ws : List Word) (since : Nat) (poisoned : Fin 4) (d q : Fin 8) (st : Fin 18)
    (a : Fin 4096), s.core.live = true →
    (s.core.pkt id = some p → p.deep = .issued ws since →
      Completes (.deepLookupReturn id poisoned true) s
        ((((s.core.bump R.CAT_DEEP_ERR_CNT (dw p.die) 0 0 1).raise (dw p.die) 0x23 0).putPkt
          { p with res := [0, 0, 0, 0], resHit := false, resPoison := false, resErr := true, deep := .returned }).deepNext
            p.die) ∧
      (s.core.deepOn p.die = true → 128 ≤ s.core.tokens 1 →
        let r := (s.core.answered 1 since).deepLookup p.die (keyOf ws) poisoned
        Completes (.deepLookupReturn id poisoned false) s
          ((r.1.putPkt { p.took r.2 with deep := .returned }).deepNext p.die))) ∧
    (s.core.pkt id = some p → p.deep = .queued ws → s.core.deepOn p.die = true → s.core.deepFree p.die = false →
      Completes (.deepLookupReturn id poisoned false) s s.core) ∧
    (storeKey d q st a ∈ s.core.pipes.storeUe → s.core.regionOn 0 = true → s.core.tokens 0 ≠ 0 →
      Completes (.storeWordRewrite d q st a false) s
        { (s.core.firmwareRead false) with pipes := { s.core.pipes with
            store := s.core.pipes.store.set (storeKey d q st a) (s.core.pipes.image.get (st.val * 4096 + a.val))
            storeUe := s.core.pipes.storeUe.filter (· != storeKey d q st a) } })

/-! ### Flow control, local transfer, spilling -/

/-- Priority flow control (R329, R331 to R333): a frame that is due leaves, once no frame of the port is in transmission, and
is no longer due; while a group is in XOFF the port repeats its frame; a MAC control frame takes effect after its statistics;
a pause whose time has run out ends, for its priority alone. The watchdog (R335, R391): a back-pressure queue whose pause
still runs, that holds copies and has sent nothing for BUF_WDOG_CFG.MS enters discard: its copies are flushed, it is counted
and the event raised; it leaves discard when none of its priorities has been paused for that time. -/
def Obligations.FlowControl : Prop :=
  (∀ (s : State) (d : Fin 8) (l : Fin 256) (g : Fin 8) (frame : List Byte) (left : Nat), s.core.live = true →
     (s.core.buf.pfcDue.find? (·.1 == d.val * 256 + l.val) = some (d.val * 256 + l.val, left) → s.core.linkUp d l = true →
       s.core.sendingOn d l = false → s.core.macReady d l = true →
       Completes (.pfcFrameSend d l) s
         ({ s.core with buf := { s.core.buf with
             pfcDue := s.core.buf.pfcDue.filter (·.1 != d.val * 256 + l.val) } }.pfcSend d l left)) ∧
     (s.core.td T.BUF_PORT_XOFF_TX (dw d) 0 l ≠ 0 → s.core.td T.BUF_PORT_PFC_TX_EN (dw d) 0 l = 1 →
       s.core.linkUp d l = true → s.core.sendingOn d l = false → s.core.macReady d l = true →
       Completes (.pfcRepeat d l) s (s.core.pfcSend d l 0)) ∧
     (s.core.receives d l = true → s.core.macReady d l = true → 64 ≤ frame.length → fcsGood frame = true →
       getBe frame 12 2 = 0x8808 →
       Completes (.macControlReceive d l frame) s
         (((s.core.pstat d l 10 frame.length).rxStats d l frame false true).macControl d l frame)) ∧
     (s.core.buf.pauseEnd.get ((d.val * 256 + l.val) * 8 + g.val) ≠ 0 →
       s.core.buf.pauseEnd.get ((d.val * 256 + l.val) * 8 + g.val) - 1 ≤ s.core.time.now →
       let k := s.core.notePaused d l g
       let mask := s.core.td T.BUF_PORT_PAUSED_RX (dw d) 0 l
       Completes (.pfcPauseExpire d l g) s
         (({ k with buf := { k.buf with
             pauseEnd := s.core.buf.pauseEnd.set ((d.val * 256 + l.val) * 8 + g.val) 0 } }.tw T.BUF_PORT_PAUSED_RX (dw d) 0 l
           (mask - (mask &&& 2 ^ g.val))).watchPort d l))) ∧
  (∀ (s : State) (d : Fin 8) (l : Fin 256) (q : Fin 16), s.core.live = true →
     let k := s.core
     let mask := k.td T.BUF_PORT_WDOG_DISCARD (dw d) 0 l
     let key := (d.val * 256 + l.val) * 16 + q.val
     (k.rd R.BUF_WDOG_CFG_EN (dw d) 0 0 = 1 → k.marking d l q = false → k.wdogDiscard d l q = false →
       k.pauseRuns d l q = true → k.queueHolds d l q = true → k.buf.stuckSince.get key ≠ 0 →
       k.buf.stuckSince.get key - 1 + k.rd R.BUF_WDOG_CFG_MS (dw d) 0 0 * 1000000 ≤ k.time.now →
       Completes (.watchdogDiscard d l q) s
         (((((k.tw T.BUF_PORT_WDOG_DISCARD (dw d) 0 l (mask ||| 2 ^ q.val)).flushQueue d l q).stopEval d l q).bump
           R.BUF_WDOG_CNT (dw d) 0 0 1).raise (dw d) 0x28 1)) ∧
     (k.wdogDiscard d l q = true → k.paused d l q = false →
       k.buf.lastPaused.get key - 1 + k.rd R.BUF_WDOG_CFG_MS (dw d) 0 0 * 1000000 ≤ k.time.now →
       Completes (.watchdogExit d l q) s
         ((k.tw T.BUF_PORT_WDOG_DISCARD (dw d) 0 l (mask - (mask &&& 2 ^ q.val))).stopEval d l q)))

/-- LOCAL_TRANSFER and STOP_MESSAGE_RECEIVE (R341, R343, R347): a destination pipeline with one source pipeline that has a
copy for it takes that copy out of its VOQ, turns to the next source and to the TC behind its own, and enqueues it; a viewer
sees a queue's stop as it stands. -/
def Obligations.LocalTransferAndStops : Prop :=
  ∀ (s : State) (d p v : Fin 8) (l : Fin 256) (q : Fin 16) (ue : Bool) (c : Copy)
      (lost : Option (Fin 8 × Fin 8)) (ces : List (Fin 4096 × Fin 8)), s.core.live = true →
    let k0 := s.core.voqsRead d ces (lost.map fun x => (x.1.val, 8 * d.val + p.val, x.2.val))
    (((List.range 8).map fun i => (k0.buf.localTurn.get (8 * d.val + p.val) + i) % 8).findSome? (fun src =>
        (k0.localOrder (8 * d.val + p.val) src).findSome? fun tc => k0.voqHead d src (8 * d.val + p.val) tc) = some c →
      let k := k0.voqServed c
      Completes (.localTransfer d p ue lost ces) s
        ((({ k with buf := { k.buf with
            voq := k.buf.voq.filter (·.id != c.id)
            localTurn := k.buf.localTurn.set (8 * d.val + p.val) ((c.pipe + 1) % 8)
            localTc := k.buf.localTc.set ((8 * d.val + p.val) * 8 + c.pipe) (k.tcOrder.idxOf c.tc + 1) } }.enqueue c ue).copyGone c.grp).settle
          c.grp)) ∧
    (s.core.populated v = true → s.core.populated d = true → s.core.fenced d = false →
      Completes (.stopMessageReceive v d l q) s
        ((s.core.seeStop v d l q (s.core.stopped d l q)).seeMcStops v d (l.val / 32)))

/-- SPILL_FETCH and SPILL_FETCH_RETURN (R374, R616): the oldest spilled copy of a queue that holds fewer than 64 cells is
fetched within the budget of region 2 and the fetch reserve; a poisoned return is dropped and counted; a good one joins its
queue from the reserve; the queues that spill are evaluated after each, and a queue with nothing spilled by a fetch of it. -/
def Obligations.Spilling : Prop :=
  ∀ (s : State) (d : Fin 8) (l : Fin 256) (q : Fin 16) (c : Copy), s.core.live = true →
    (s.core.buf.spilled.find? (fun c => c.port == d.val * 256 + l.val && c.queue == q.val) = some c →
      s.core.queueCells d l q < 64 → s.core.regionOn 2 = true →
      256 * cellsOf c.frame.length ≤ s.core.tokens 2 →
      s.core.reserveUsed d + cellsOf c.frame.length ≤ s.core.rd R.BUF_SPILL_RSV_FETCH_CELLS (dw d) 0 0 →
      Completes (.spillFetch d l q) s
        ({ s.core with buf := { s.core.buf with
            spilled := s.core.buf.spilled.filter (·.id != c.id)
            fetching := s.core.buf.fetching ++ [{ c with asked := s.core.time.now }] } }.spend 2 (256 * cellsOf c.frame.length)).spillersEval) ∧
    (s.core.buf.spilled.find? (fun c => c.port == d.val * 256 + l.val && c.queue == q.val) = none →
      Completes (.spillFetch d l q) s (s.core.queueEval d l q)) ∧
    (s.core.buf.fetching.find? (·.die == d.val) = some c →
      let k := (({ s.core with buf := { s.core.buf with fetching := s.core.buf.fetching.filter (·.id != c.id) } }.tw
        T.BUF_Q_SPILLED (dw d) 0 (c.port % 256 * 16 + c.queue)
        (s.core.td T.BUF_Q_SPILLED (dw d) 0 (c.port % 256 * 16 + c.queue) - cellsOf c.frame.length)).answered 2 c.asked).regionRead 2
          (256 * cellsOf c.frame.length)
      Completes (.spillFetchReturn d true) s
        ((((k.regionPoison 2).bump R.CXL_SPILL_POISON_CNT 0 0 0 1).noteIdle d (c.port % 256) c.queue).spillersEval) ∧
      Completes (.spillFetchReturn d false) s
        (((k.takeId.2.addGrp { freshGrp k.takeId.1 d (cellsOf c.frame.length) 0 0 with
            ingress := none, reserve := true, waiting := 0 }).placeCopy d (c.port % 256) c.queue
          { c with grp := k.takeId.1 }).spillersEval))

/-! ### The lookup tables -/

/-- Hardware learns and their messages (R269, R274 to R283): the oldest waiting learn of a die is taken, its entry applied,
counted and announced; for a key without an entry no record stands in its way; the Meridian die copies the oldest message to
every other populated die that is not fenced; a die applies the learn at the head of its arrivals, a software one being
acknowledged to the command that waits, or rejects it to its home when it has no place; the home of a rejected learn deletes the
entry everywhere and counts it; a hardware one raises the event, and the INSERT of a software one waits for the deletes. -/
def Obligations.LearnMessages : Prop :=
  ∀ (s : State) (d : Fin 8) (l : CatLearn) (msg : CatMsg), s.core.live = true →
    (s.core.tables.learns.find? (·.die == d.val) = some l →
      let k0 := { s.core with tables := { s.core.tables with learns := s.core.tables.learns.erase l } }
      let e : CatEnt := ⟨d, 0, l.wide, l.key, l.data, false, true, d, true, false⟩
      Completes (.hwLearn d) s
        (match (if (k0.catFind d l.wide l.key).isSome then k0 else k0.catForget d l.wide l.key).catApply e false l.time with
         | (k1, true) =>
           if ((k1.catFind d l.wide l.key).any fun x => x.home == d.val && x.data == l.data) = true then
             ((k1.bump R.CAT_LRN_CNT (dw d) 0 0 1).count (dw d) 2 2 0 1).catSend (learnMsg e false l.time)
           else k1
         | (k1, false) => (k1.bump R.CAT_LRN_FULL_CNT (dw d) 0 0 1).raise (dw d) 0x20 1)) ∧
    (s.core.tables.msgs.find? (·.atSender) = some msg → msg.dst = none →
      Completes .learnMessageForward s
        { s.core with tables := { s.core.tables with
            msgs := s.core.tables.msgs.erase msg ++
              ((s.core.dieList.filter fun x => x != msg.src && !s.core.fenced x).map fun x =>
                { msg with atSender := false, dst := some x }) } }) ∧
    (s.core.catInbox d = some msg → msg.kind = .learn →
      let e : CatEnt := ⟨d, 0, msg.wide, msg.key, msg.data, msg.static, !msg.software, msg.src, false, false⟩
      Completes (.learnMessageApply d) s
        (match (s.core.catTake msg).catApply e msg.software msg.time with
         | (k1, true) =>
           if msg.software then (k1.count (dw d) 2 3 0 1).catAck msg.src d msg.wide msg.key false else k1.count (dw d) 2 3 0 1
         | (k1, false) => k1.catSend { msg with kind := .reject, src := d, atSender := true, dst := some msg.src })) ∧
    (s.core.catInbox d = some msg → msg.kind = .reject →
      let k1 := ((((s.core.catTake msg).catRemove d msg.wide msg.key).catForget d msg.wide msg.key).bump R.CAT_LRN_FULL_CNT
        (dw d) 0 0 1).catSend (deleteMsg d msg.wide msg.key msg.software)
      Completes (.learnReject d) s
        (if msg.software then k1.catRejected d msg.wide msg.key else k1.raise (dw d) 0x20 1))

/-- Deletes, touches, records and sweeps (R281, R284, R286, R287, R314): a hardware delete removes the entry only when it
names the sender as home and otherwise counts a stale delete; a software one removes it and its record and is acknowledged; a
queued touch goes to the entry's home, which sets the
hit bit; records older than 4 µs go and no others; a pass runs while sweeping is enabled and not paused. What the
sweeper does to one entry of its own die (R287, R288): a static entry stays; an entry that was hit loses its hit bit
and mark; one not hit and not marked is marked; one not hit and marked is deleted, counted and announced, but where a hit or a
touch falls in the same cycle, as the command says for its slot, it survives with its hit bit set (R314). -/
def Obligations.DeletesTouchesSweeps : Prop :=
  (∀ (s : State) (d : Fin 8) (msg : CatMsg) (e : CatEnt) (t : Nat × Nat × Bool × Nat)
      (prevail : List (Fin 262176)), s.core.live = true →
     (s.core.catInbox d = some msg → msg.kind = .delete → msg.software = true →
       Completes (.deleteMessageApply d) s
         ((((s.core.catTake msg).catRemove d msg.wide msg.key).catForget d msg.wide msg.key).catAck msg.src d msg.wide msg.key
           true)) ∧
     (s.core.catInbox d = some msg → msg.kind = .delete → msg.software = false →
       (s.core.catTake msg).catFind d msg.wide msg.key = some e →
       Completes (.deleteMessageApply d) s
         (if e.home = msg.src then (s.core.catTake msg).catRemove d msg.wide msg.key
          else (s.core.catTake msg).bump R.CAT_STALE_DEL_CNT (dw d) 0 0 1)) ∧
     (s.core.tables.touches.find? (·.1 == d.val) = some t → s.core.fenced t.2.1 = false →
       Completes (.touchSend d) s
         ({ s.core with tables := { s.core.tables with touches := s.core.tables.touches.erase t } }.catSend
           ⟨.touch, d, t.2.2.1, t.2.2.2, 0, false, false, 0, true, some t.2.1⟩)) ∧
     (s.core.catInbox d = some msg → msg.kind = .touch → s.core.catFind d msg.wide msg.key = some e →
       Completes (.touchApply d) s ((s.core.catTake msg).catPut { e with hit := true })) ∧
     Completes (.learnRecordExpire d) s
       { s.core with tables := { s.core.tables with
           recs := s.core.tables.recs.filter fun r => !(r.die == d.val && decide (r.at' + 4000 ≤ s.core.time.now)) } } ∧
     (s.core.rd R.CAT_SWEEP_CFG_EN (dw d) 0 0 = 1 → s.core.rd R.CAT_STATUS_SWEEP_PAUSED (dw d) 0 0 = 0 →
       Completes (.sweepPass d prevail) s
         ((s.core.tables.ents.filter (·.die == d.val)).foldl (Core.sweepEnt · (prevail.map (·.val)) ·) s.core))) ∧
  (∀ (k : Core) (e : CatEnt) (prevail : List Nat), e.home = e.die → k.fenced e.die = false →
     (e.static = true → k.sweepEnt prevail e = k) ∧
     (e.static = false → e.hit = true → k.sweepEnt prevail e = k.catPut { e with hit := false, mark := false }) ∧
     (e.static = false → e.hit = false → e.mark = false → k.sweepEnt prevail e = k.catPut { e with mark := true }) ∧
     (e.static = false → e.hit = false → e.mark = true → e.idx ∈ prevail →
       k.sweepEnt prevail e = k.catPut { e with hit := true }) ∧
     (e.static = false → e.hit = false → e.mark = true → e.idx ∉ prevail →
       k.sweepEnt prevail e = ((k.catRemove e.die e.wide e.key).bump R.CAT_AGE_DEL_CNT (dw e.die) 0 0 1).catSend
         (deleteMsg e.die e.wide e.key false) ∧
       (k.sweepEnt prevail e).catFind e.die e.wide e.key = none))

/-- The Catalogue commands on an idle engine (R265, R267 to R269): written on their die with an empty queue and an
empty response FIFO, each runs at once on what the staging registers hold, by `catRunOne`; it posts its response, or waits at
the head of the queue for the other dies. Into a full queue a command is discarded, counted and sets ACC_ERR; through the
broadcast window it is discarded with ACC_ERR (R266). What a Catalogue command does on its own die (R268, R270, R271, R284): an
insert that finds a place waits for the other dies and announces the entry, with none it answers 2, and one that may not replace
answers 3; a delete removes the entry, announces it and waits, or answers 1; a search answers the entry, or 1; NEXT answers 5
past the last slot and 4 where no slot matches; a flush removes the matching entries of every die that is not fenced and
answers how many its own die lost; a pause sets SWEEP_PAUSED of every die that is not fenced, a resume clears it, and a start
makes a pass, in which the slots that the command names for a die prevail (R314); a fenced die refuses with 5. -/
def Obligations.CatalogueCommands : Prop :=
  (∀ (s : State) (m : Master) (d : Fin 8) (tag : Fin 256) (wide static noReplace incl ue : Bool)
      (ces : List (Fin 4096 × Fin 8)) (prevail : List (Fin 8 × Fin 262176)),
     Serves s m (dw d) 0x21 0x154 true → s.core.tables.cmds = [] → s.core.tables.rsps = [] →
     ∀ x ∈ ([(.catInsert m d tag wide static noReplace false, s.core.catStage d 1 tag false wide static noReplace false false),
         (.catDelete m d tag wide false, s.core.catStage d 2 tag false wide false false false false),
         (.catSearch m d tag wide ue false ces,
           { s.core.catStage d 3 tag false wide false false false ue with ces := ces }),
         (.catNext m d tag ue false ces, { s.core.catStage d 4 tag false true false false false ue with ces := ces }),
         (.catFlushByPort m d tag incl false, s.core.catStage d 5 tag false true false false incl false),
         (.sweepPause m d tag false, { s.core.catStage d 6 tag false false false false false false with data := 0 }),
         (.sweepResume m d tag false, { s.core.catStage d 6 tag false false false false false false with data := 1 }),
         (.sweepStartNow m d tag false prevail,
           { s.core.catStage d 6 tag false false false false false false with data := 2, prevail := prevail })] :
         List (Instr × CatCmd)),
       Completes x.1 s (match (s.core.cesFound (dw d) x.2.ces).catRunOne x.2 with
         | (k, .finished r) => k.catRespond r
         | (k, .waits ds n) => { k with tables := { k.tables with
             cmds := { x.2 with started := true, waiting := ds, removed := n } :: k.tables.cmds } })) ∧
  (∀ (s : State) (m : Master) (d : Fin 8) (tag : Fin 256) (wide static noReplace incl ue via : Bool)
      (ces : List (Fin 4096 × Fin 8)) (prevail : List (Fin 8 × Fin 262176)) (poisoned : Fin 4), s.core.live = true →
     ∀ x ∈ ([.catInsert m d tag wide static noReplace via, .catDelete m d tag wide via, .catSearch m d tag wide ue via ces,
         .catNext m d tag ue via ces, .catFlushByPort m d tag incl via, .sweepPause m d tag via, .sweepResume m d tag via,
         .sweepStartNow m d tag via prevail, .catDeepInsert m d tag noReplace via poisoned, .catDeepDelete m d tag via poisoned,
         .catDeepSearch m d tag via poisoned] : List Instr),
       (via = true → s.core.broadcastVerdict m 0x21 0x154 true = .ok → Completes x s (s.core.accErr 1 0x21 m 0x154)) ∧
       (via = false → s.core.verdict m (dw d) 0x21 0x154 true = .ok → 16 ≤ s.core.tables.cmds.countP (·.die == d.val) →
         Completes x s (((s.core.bump R.CAT_CMD_STAT_OVF_CNT (dw d) 0 0 1).accErr (dw d) 0x21 m 0x154).raise (dw d) 0x21 1))) ∧
  (∀ (k : Core) (c : CatCmd) (e : CatEnt),
     (k.fenced c.die = true → k.catRunOne c = (k, .finished (c.rsp 5))) ∧
     (k.fenced c.die = false → c.op = 1 → c.noReplace = true → k.catFind c.die c.wide c.key = some e →
       k.catRunOne c = (k, .finished (c.rsp 3))) ∧
     (k.fenced c.die = false → c.op = 1 → c.noReplace = false →
       let n : CatEnt := ⟨c.die, 0, c.wide, c.key, c.data, c.static, false, c.die, false, false⟩
       (k.catPlace n = none → k.catRunOne c = (k, .finished (c.rsp 2))) ∧
       (∀ k1, k.catPlace n = some k1 →
         k.catRunOne c = ((k1.catRemember ⟨c.die, c.wide, c.key, c.die, true, k.followTime, k.time.now⟩).catSend
           (learnMsg n true k.followTime), .waits (k.peers c.die) 0))) ∧
     (k.fenced c.die = false → c.op = 2 →
       (k.catFind c.die c.wide c.key = none → k.catRunOne c = (k, .finished (c.rsp 1))) ∧
       (k.catFind c.die c.wide c.key = some e →
         (k.catRunOne c).1.catFind c.die c.wide c.key = none ∧ (k.catRunOne c).1.catRec c.die c.wide c.key = none ∧
         (k.catRunOne c).2 = .waits (k.peers c.die) 0)) ∧
     (k.fenced c.die = false → c.op = 3 → c.ue = false →
       (k.catFind c.die c.wide c.key = none → k.catRunOne c = (k, .finished (c.rsp 1))) ∧
       (k.catFind c.die c.wide c.key = some e → k.catRunOne c = (k, .finished (c.rspEnt e 0)))) ∧
     (k.fenced c.die = false → c.op = 4 →
       (262175 < c.cursor → k.catRunOne c = (k, .finished (c.rsp 5))) ∧
       (c.cursor ≤ 262175 → (∀ x ∈ k.tables.ents, x.die = c.die → c.cursor ≤ x.idx → (x.key &&& c.kmask) = (c.key &&& c.kmask) →
           (x.data &&& c.dmask) ≠ (c.data &&& c.dmask)) → k.catRunOne c = (k, .finished (c.rsp 4)))) ∧
     (k.fenced c.die = false → c.op = 5 →
       k.catRunOne c = ({ k with tables := { k.tables with
           ents := k.tables.ents.filter fun x => !(!k.fenced x.die && flushes c x) } },
         .waits [] (k.tables.ents.countP fun x => x.die == c.die && flushes c x))) ∧
     (k.fenced c.die = false → c.op = 6 →
       let dies := k.dieList.filter fun x => !k.fenced x
       (c.data = 0 → k.catRunOne c = (dies.foldl (fun k x => k.wr R.CAT_STATUS_SWEEP_PAUSED (dw x) 0 0 1) k, .waits [] 0)) ∧
       (c.data = 1 → k.catRunOne c = (dies.foldl (fun k x => k.wr R.CAT_STATUS_SWEEP_PAUSED (dw x) 0 0 0) k, .waits [] 0)) ∧
       (c.data = 2 → k.catRunOne c = (dies.foldl (fun k x =>
         k.sweep x ((c.prevail.filter (·.1.val == x)).map (·.2.val))) k, .waits [] 0))))

/-- An entry that is placed is found (R256, R258, R260), whatever moves its place took: a lookup of its key on its die
gives its data, home and static flag. Placing an entry loses no other (R260): the moves that make room keep the key,
width and data of every entry of every die. -/
def Obligations.PlacingAnEntry : Prop :=
  (∀ (k k' : Core) (e : CatEnt), k.catPlace e = some k' →
     ∃ x, k'.catFind e.die e.wide e.key = some x ∧ x.data = e.data ∧ x.home = e.home ∧ x.static = e.static) ∧
  (∀ (k k' : Core) (e x : CatEnt), k.catPlace e = some k' → k.catFind e.die e.wide e.key = none → x ∈ k.tables.ents →
     ∃ y ∈ k'.tables.ents, y.die = x.die ∧ y.wide = x.wide ∧ y.key = x.key ∧ y.data = x.data)

/-- The deep commands, the posting of responses and the configuration of the deep catalogue (R269, R270, R294, R295, R311): a
deep command on an idle engine runs, once region 1's budget holds what it reads, and posts its response; a command that all
dies have answered posts its response and leaves the queue; a pop discards the head response; a configuration write while EN
is 0 sets SEED and SIZE_LOG2, and one that would enable the deep catalogue without region 1 is refused with CFG_ERR. -/
def Obligations.DeepCommandsAndResponses : Prop :=
  ∀ (s : State) (m : Master) (d : Fin 8) (tag : Fin 256) (noReplace : Bool) (c : CatCmd) (r : CatRsp) (seed : Fin 65536)
    (size : Fin 32) (poisoned : Fin 4),
    (Serves s m (dw d) 0x21 0x154 true → s.core.tables.cmds = [] → s.core.tables.rsps = [] →
      s.core.deepOn d = false ∨ 128 ≤ s.core.tokens 1 →
      ∀ x ∈ ([(.catDeepInsert m d tag noReplace false poisoned,
            { s.core.catStage d 1 tag true false false noReplace false false with poisoned := poisoned }),
          (.catDeepDelete m d tag false poisoned,
            { s.core.catStage d 2 tag true false false false false false with poisoned := poisoned }),
          (.catDeepSearch m d tag false poisoned,
            { s.core.catStage d 3 tag true false false false false false with poisoned := poisoned })] : List (Instr × CatCmd)),
        Completes x.1 s ((s.core.runDeep x.2).1.catRespond (s.core.runDeep x.2).2)) ∧
    (s.core.live = true → s.core.tables.cmds = [c] → c.die = d.val → c.started = true → s.core.catAnswered c = true →
      Completes (.catCmdResponsePost d) s
        ({ s.core with tables := { s.core.tables with cmds := [] } }.catRespond
          { c.rsp (if c.rejected then 6 else 0) with removed := c.removed })) ∧
    (Serves s m (dw d) 0x21 0x15C true → s.core.tables.cmds = [] → s.core.tables.rsps.find? (·.die == d.val) = some r →
      Completes (.catRspPop m d) s
        { s.core with tables := { s.core.tables with rsps := s.core.tables.rsps.erase r } }) ∧
    (Serves s m (dw d) 0x23 0x100 true → s.core.rd R.CAT_DEEP_CFG_EN (dw d) 0 0 = 0 → 10 ≤ size.val → size.val ≤ 24 →
      Completes (.deepCfgWrite m d false false seed size) s
        (let k := ((s.core.wr R.CAT_DEEP_CFG_EN (dw d) 0 0 0).wr R.CAT_DEEP_CFG_SEED (dw d) 0 0 seed).wr
           R.CAT_DEEP_CFG_SIZE_LOG2 (dw d) 0 0 size
         { k with cxl := { k.cxl with deepStuck := k.cxl.deepStuck.filter (· != d.val) } })) ∧
    (Serves s m (dw d) 0x23 0x100 true → s.core.rd R.CAT_DEEP_CFG_EN (dw d) 0 0 = 0 → s.core.rd R.CXL_REG_EN 0 0 1 = 0 →
      Completes (.deepCfgWrite m d false true seed size) s (s.core.cfgErr (dw d) 0x23 m 0x100))

/-- The prefix commands (R298 to R300): on a die with an empty queue and response FIFO a search and a lookup run at
once on what the staging registers hold; an insert and a delete through a die window are refused, and through the
broadcast window run on every populated die that is not fenced (here one), at once or, on a die that the write has not reached
yet (R68), when it comes to it; a pop discards the head response. What a
prefix command does on a die (R296 to R298, R300): an insert of a new prefix with room adds it and answers 0; a delete
removes the exact prefix; a search answers the exact prefix; a lookup answers the longest match; a length above the
width is refused with 5. What a lookup finds matches the address, and no prefix of the die, the width and the VRF that matches is
longer. -/
def Obligations.PrefixCommands : Prop :=
  (∀ (s : State) (m : Master) (d : Fin 8) (tag len : Fin 256) (v6 : Bool) (r : LpmRsp) (late : Fin 256),
     s.core.tables.lpmCmds = [] →
     (Serves s m (dw d) 0x24 0x120 true → s.core.tables.lpmRsps = [] →
       Completes (.lpmSearch m d tag len v6 false late) s (s.core.lpmRun (s.core.lpmStage d 3 tag len v6 false)) ∧
       Completes (.lpmLookupCmd m d tag len v6 false late) s (s.core.lpmRun (s.core.lpmStage d 4 tag len v6 false)) ∧
       Completes (.lpmInsert m d tag len v6 false late) s (s.core.lpmRespond (LpmRsp.mk d tag 5 0 0)) ∧
       Completes (.lpmDelete m d tag len v6 false late) s (s.core.lpmRespond (LpmRsp.mk d tag 5 0 0))) ∧
     (s.core.live = true → s.core.broadcastVerdict m 0x24 0x120 true = .ok → s.core.tables.lpmRsps = [] → s.core.dieList.filter (fun x => !s.core.fenced x) = [0] →
       (bit late 0 = 0 →
       Completes (.lpmInsert m d tag len v6 true late) s (s.core.lpmRun (s.core.lpmStage 0 1 tag len v6 true)) ∧
       Completes (.lpmDelete m d tag len v6 true late) s (s.core.lpmRun (s.core.lpmStage 0 2 tag len v6 true))) ∧
       (bit late 0 = 1 →
       Completes (.lpmInsert m d tag len v6 true late) s (s.core.lpmHold (s.core.lpmStage 0 1 tag len v6 true)) ∧
       Completes (.lpmDelete m d tag len v6 true late) s (s.core.lpmHold (s.core.lpmStage 0 2 tag len v6 true)))) ∧
     (Serves s m (dw d) 0x24 0x128 true → s.core.tables.lpmRsps.find? (·.die == d.val) = some r →
       Completes (.lpmRspPop m d) s
         { s.core with tables := { s.core.tables with lpmRsps := s.core.tables.lpmRsps.erase r } })) ∧
  (∀ (k : Core) (c : LpmCmd) (e : LpmEnt),
     (c.v6 = false → 32 < c.len → k.lpmRun c = k.lpmRespond (LpmRsp.mk c.die c.tag 5 0 0)) ∧
     (c.v6 = false → c.len ≤ 32 → c.broadcast = true → c.op = 1 → k.lpmFind c.die c.v6 c.vrf c.addr c.len = none →
       k.lpmUnits c.die + 1 ≤ 196608 →
       k.lpmRun c = { k with tables := { k.tables with
         lpm := k.tables.lpm ++ [LpmEnt.mk c.die false c.vrf c.addr c.len c.data false] } }.lpmRespond (LpmRsp.mk c.die c.tag 0 0 0)) ∧
     (c.v6 = false → c.len ≤ 32 → c.broadcast = true → c.op = 2 → k.lpmFind c.die c.v6 c.vrf c.addr c.len = some e →
       k.lpmRun c = { k with tables := { k.tables with lpm := k.tables.lpm.erase e } }.lpmRespond (LpmRsp.mk c.die c.tag 0 0 0)) ∧
     (c.v6 = false → c.len ≤ 32 → c.op = 3 → k.lpmFind c.die c.v6 c.vrf c.addr c.len = some e → e.ue = false →
       k.lpmRun c = k.lpmRespond (LpmRsp.mk c.die c.tag 0 e.len e.data)) ∧
     (c.v6 = false → c.len ≤ 32 → c.op = 4 → k.lpmBest c.die c.v6 c.vrf c.addr = some e → e.ue = false →
       k.lpmRun c = k.lpmRespond (LpmRsp.mk c.die c.tag 0 e.len e.data))) ∧
  ∀ (k : Core) (d vrf addr : Nat) (v6 : Bool) (e x : LpmEnt), k.lpmBest d v6 vrf addr = some e →
    (e ∈ k.tables.lpm ∧ e.die = d ∧ e.v6 = v6 ∧ prefixMatch (if v6 then 128 else 32) addr e.addr e.len = true) ∧
    (x ∈ k.tables.lpm → x.die = d → x.v6 = v6 → (v6 = true ∨ x.vrf = vrf) →
      prefixMatch (if v6 then 128 else 32) addr x.addr x.len = true → x.len ≤ e.len)

/-- The filter table's commands (R97, R304, R305): a commit takes the staged value and mask with the action; an action write
changes action and VALID alone; both are discarded with ACC_ERR while the window is busy, and through the broadcast window they
reach every populated die, where the command says so only as an operation of the die's window (R68); the background pass rewrites a row that differs from its shadow and counts it, and with an
uncorrectable shadow the entry loses VALID. -/
def Obligations.FilterCommands : Prop :=
  ∀ (s : State) (m : Master) (d : Fin 8) (i : Fin 16384) (action : BitVec 64) (valid : Bool) (rv rm : BitVec 320)
    (late : Fin 256),
    let k := s.core
    (Serves s m (dw d) 0x27 0x204 true → k.indBusy (dw d) 0x27 = true →
      Completes (.filterKeyCommit m d false late i action valid) s (k.accErr (dw d) 0x27 m 0x204) ∧
      Completes (.filterActionWrite m d false late i action valid) s (k.accErr (dw d) 0x27 m 0x204)) ∧
    (k.live = true → k.broadcastVerdict m 0x27 0x204 true = .ok →
      Completes (.filterKeyCommit m d true late i action valid) s
        (k.dieList.foldl (fun k x => if bit late x = 1 then k.fltLate m x i action.toNat valid true
          else k.fltWindow m x i action.toNat valid true) k) ∧
      Completes (.filterActionWrite m d true late i action valid) s
        (k.dieList.foldl (fun k x => if bit late x = 1 then k.fltLate m x i action.toNat valid false
          else k.fltWindow m x i action.toNat valid false) k)) ∧
    (Serves s m (dw d) 0x27 0x204 true → k.indBusy (dw d) 0x27 = false →
      Completes (.filterKeyCommit m d false late i action valid) s
        (k.fltPut { k.fltGet d i with
          value := k.fltStaged d R.FLT_STAGE_VAL, mask := k.fltStaged d R.FLT_STAGE_MASK,
          rowValue := k.fltStaged d R.FLT_STAGE_VAL, rowMask := k.fltStaged d R.FLT_STAGE_MASK,
          action := action.toNat, valid := valid }) ∧
      Completes (.filterActionWrite m d false late i action valid) s
        (k.fltPut { k.fltGet d i with action := action.toNat, valid := valid })) ∧
    (k.live = true → k.rd R.FLT_BG_CFG_EN (dw d) 0 0 ≠ 0 →
      (rv.toNat ≠ (k.fltGet d i).value ∨ rm.toNat ≠ (k.fltGet d i).mask →
        Completes (.filterBgCompare d i rv rm .good) s
          ((((k.fltPut { k.fltGet d i with rowValue := (k.fltGet d i).value, rowMask := (k.fltGet d i).mask }).bump
            R.FLT_BG_FIX_CNT (dw d) 0 0 1).ceFound (dw d) 0x26 0 7).raise (dw d) 0x26 0)) ∧
      (rv.toNat = (k.fltGet d i).value → rm.toNat = (k.fltGet d i).mask →
        Completes (.filterBgCompare d i rv rm .good) s k) ∧
      Completes (.filterBgCompare d i rv rm .ue) s (k.fltShadowUe d i))

/-! ### The crossbar -/

/-- CROSSBAR_MATCH (R355, R356): a slot that is not skipped makes a matching: no port stands twice among the sources nor twice
among the destinations, every pair joins live ports of two dies, and the buffers and the Focus Contexts are as before. A slot
that is skipped only advances the slot count and is counted. -/
def Obligations.CrossbarMatching : Prop :=
  ∀ s : State, s.core.live = true →
    (s.core.slotSkipped = false →
      ∃ k, Completes .crossbarMatch s k ∧ (k.xbar.matched.map (·.1)).Nodup ∧ (k.xbar.matched.map (·.2)).Nodup ∧
        (∀ m ∈ k.xbar.matched, m.1 / 8 ≠ m.2 / 8 ∧ s.core.xLive m.1 = true ∧ s.core.xLive m.2 = true) ∧
        k.xbar.retained = s.core.xbar.retained ∧ k.buf = s.core.buf ∧ k.foc = s.core.foc) ∧
    (s.core.slotSkipped = true →
      Completes .crossbarMatch s
        (({ s.core with xbar := { s.core.xbar with slot := s.core.xbar.slot + 1 } }).count 0 4 4 0 1))

/-- Parcels (R46, R357, R359 to R361): a matched pair with cells to send launches them as one parcel under the pair's next
sequence number and retains it, its copies marked where the part is throttled; with none its credit returns; with a replay
pending the next retained parcel goes again; at each match the pair's TC pointer turns; a parcel that arrives whole and next
in order is acknowledged and its cells are taken; one whose parity fails is named in a NACK and its credit returns; an
acknowledgement ends what it covers, a NACK replays from the parcel it names, and so does a timeout of the pair's oldest
parcel while neither port retrains (R576); where the retention index is uncorrectable the message ends in a fault of its port
(R571). -/
def Obligations.ParcelCommands : Prop :=
  ∀ (s : State) (src dst : Fin 64) (parity : Option (Fin 16)) (bad : Bool) (lost : Option (Fin 8))
    (ces : List (Fin 4096 × Fin 8)), s.core.live = true →
    (∀ m, s.core.xbar.matched.find? (·.1 == src.val) = some m →
      let k := s.core.voqsRead (src.val / 8) ces (lost.map fun tc => (src.val % 8, m.2, tc.val))
      k.xLive src = true → k.xLive m.2 = true →
      let k1 := k.onX fun x => { x with matched := x.matched.filter (·.1 != src.val) }
      let r := k1.fillParcel src m.2 (parity.map (·.val)) bad
      let slow := decide (0 < r.1.rd R.M_PMU_STATUS_S 0 0 0)
      (k.xbar.replay.get (pairKey src m.2) ≠ 0 →
        Completes (.parcelLaunch src parity bad lost ces) s ((k1.launchReplay src m.2).turnTc src m.2)) ∧
      (k.xbar.replay.get (pairKey src m.2) = 0 → r.2 = [] →
        Completes (.parcelLaunch src parity bad lost ces) s ((r.1.creditBack m.2 16).turnTc src m.2)) ∧
      (k.xbar.replay.get (pairKey src m.2) = 0 → r.2 ≠ [] →
        ∃ k', Completes (.parcelLaunch src parity bad lost ces) s k' ∧
          k'.xbar.flight = r.1.xbar.flight ++ [⟨src, m.2, r.1.xbar.seqNext.get (pairKey src m.2),
            r.2.map (·.onCopy fun c => { c with throttled := c.throttled || slow }), 1, r.1.time.now⟩] ∧
          k'.xbar.seqNext = r.1.xbar.seqNext.set (pairKey src m.2) ((r.1.xbar.seqNext.get (pairKey src m.2) + 1) % 256) ∧
          k'.xbar.tcPtr = r.1.xbar.tcPtr.set (pairKey src m.2) ((r.1.xbar.tcPtr.get (pairKey src m.2) + 1) % 8))) ∧
    (∀ p, s.core.xbar.flight.find? (·.dst == dst.val) = some p →
      s.core.flitsWait (toMeridian p.src) = false → s.core.flitsWait (toDie dst) = false →
      let name := (p.src, p.dst, p.seq)
      let k := ((s.core.cesFound (dw (dst.val / 8)) ces).flitsSettled (toMeridian p.src) name).flitsSettled (toDie dst) name
      k.fenced (p.src / 8) = false → k.fenced (dst.val / 8) = false →
      k.portFailed p.src = false → k.portFailed dst = false →
      let k1 := (k.onX fun x => { x with flight := x.flight.eraseP (·.dst == dst.val) }).xstat T.MER_PORT_PARCELS_RX dst 1
      let key := pairKey p.src p.dst
      (k1.xbar.seqWant.get key = p.seq → ∀ ue,
        Completes (.parcelArrival dst true false ue ces) s
          ((p.cells.foldl (fun k c => k.takeCell dst ue c)
            ((k1.onX fun x => { x with gap := x.gap.set key 0, seqWant := x.seqWant.set key ((p.seq + 1) % 256) }).xmsg
              p.src dst p.seq false)).creditBack dst (16 - p.cells.length))) ∧
      (k1.xbar.seqWant.get key = p.seq → ∀ ue,
        Completes (.parcelArrival dst false false ue ces) s
          (((((k1.creditBack dst 16).onX fun x => { x with gap := x.gap.set key 1 }).xmsg p.src dst p.seq true).xstat
            T.MER_PORT_NACKS_TX dst 1).xcount 3 dst 1))) ∧
    (∀ m k1, s.core.takeMsg src false = some (m, k1) →
      Completes (.parcelAckReceive src .good) s (k1.parcelsAcked m.src m.dst m.seq) ∧
      Completes (.parcelAckReceive src .ue) s (((k1.ueFound 0 1).raise 0 0x010 0).portFault m.src)) ∧
    (∀ m k1, s.core.takeMsg src true = some (m, k1) →
      let k2 := k1.xstat T.MER_PORT_NACKS_RX m.src 1
      Completes (.parcelNackReceive src .good) s (k2.replayFrom m.src m.dst m.seq) ∧
      Completes (.parcelNackReceive src .ue) s (((k2.ueFound 0 1).raise 0 0x010 0).portFault m.src)) ∧
    let k := s.core
    (∀ p, (k.retainedOf src dst).head? = some p → k.xbar.replay.get (pairKey src dst) = 0 →
      k.retraining src = false → k.retraining dst = false → p.sentAt + k.rd R.MER_CFG_ACK_TMO_NS 0 0 0 ≤ k.time.now →
      Completes (.parcelAckTimeout src dst) s
        (((k.xstat T.MER_PORT_ACK_TMOS src 1).raise 0 0x010 1).replayFrom src dst p.seq))

/-! ### Egress service, scheduling, policing -/

/-- Egress service (R66, R315, R366, R409, R420, R421, R446): on a free port with no PFC frame due EGRESS_SELECT starts the head of the queue that the
rule picks, if it picks one: the highest eligible one where that is a strict one; a queue whose links are lost is flushed first;
under any setting a queue that is started is eligible; a cell that fails parity drops
the head. TRANSMIT_COMPLETE counts the frame, captures its timestamp, hands it out and releases its copy; ETS_POP discards the
oldest timestamp; a down-hold that ends with the link down flushes the port. -/
def Obligations.EgressService : Prop :=
  ∀ (s : State) (m : Master) (d : Fin 8) (l : Fin 256), s.core.live = true →
    let k := s.core
    (∀ x : SelectFacts, k.portExists d l = true → k.portBusy d l = false → k.pfcFirst d l = false → k.macReady d l = true →
      let k1 := match x.link with
        | some q => (k.cesFound (dw d) x.ces).queueLost d l q
        | none => k.cesFound (dw d) x.ces
      let r := k1.pickQueue d l (k1.viewQueue d l)
      let k2 := (List.range 16).foldl (fun k q => k.countHeld d l q) r.1
      (r.2 = none → Completes (.egressSelect d l x) s k2) ∧
      (∀ q, r.2 = some q → Completes (.egressSelect d l x) s (k2.startHead d l q x)) ∧
      (∀ q, q < 16 → 16 - q ≤ k1.td T.SCH_PORT_NSTRICT (dw d) (l.val / 32) (l.val % 32) →
        (k1.viewQueue d l q).any (·.eligible) = true →
        (∀ r, q < r → r < 16 → (k1.viewQueue d l r).any (·.eligible) = false) →
        Completes (.egressSelect d l x) s
          (((List.range 16).foldl (fun k q => k.countHeld d l q) k1).startHead d l q x))) ∧
    (∀ view q, (k.pickQueue d l view).2 = some q → (view q).any (·.eligible) = true) ∧
    (∀ q c x, k.headOf d l q = some c → x.parity = true →
      k.startHead d l q x =
        ((((({ k with buf := { k.buf with eq := k.buf.eq.filter (·.id != c.id) } }.cellBad d).bump
          R.BUF_CELL_PAR_DROP_CNT (dw d) 0 0 1).raise (dw d) 0x28 2).releaseEgress c l q).noteIdle d l q)) ∧
    (∀ x, k.egr.sending.find? (fun x => x.copy.port == d.val * 256 + l.val) = some x → k.linkUp d l = true →
      k.holding d l = false → k.macReady d l = true → x.copy.bad = false → x.copy.cut = false →
      Completes (.transmitComplete d l false) s
        ((((((({ k with egr := { k.egr with sending := k.egr.sending.filter fun y => y.copy.id != x.copy.id } }).txStats d l
          x.frame false).etsCapture d l x.flags x.tag x.start).sendLine d l x.frame).emit
            (.frame (d.val * 256 + l.val) x.frame)).releaseEgress x.copy l x.copy.queue).noteIdle d l x.copy.queue |>.watchQueue
              d l x.copy.queue true)) ∧
    (∀ e, Serves s m (dw d) 0x5C 0x10C true → k.egr.ets.find? (·.die == d.val) = some e →
      Completes (.etsPop m d) s (({ k with egr := { k.egr with ets := k.egr.ets.erase e } }).etsShow d)) ∧
    (k.buf.holdEnd.get (d.val * 256 + l.val) ≠ 0 → k.buf.holdEnd.get (d.val * 256 + l.val) ≤ k.time.now + 1 →
      k.linkUp d l = false → Completes (.downHoldExpire d l) s ((k.downFlush d l).fenceFlush d))

/-- Gates (R97, R411, R413, R414, R416): a swap request is taken with STATE pending, and its validation accepts it for the cycle
it names or refuses it with the reason and the event; writing EN = 0 opens the port's gates at once and EN = 1 leaves them as
they are, and while the page is busy the write is an access error; GATE_CHANGE brings the clock to the START of the entry and
opens and closes nothing besides. -/
def Obligations.EphemerisGates : Prop :=
  ∀ (s : State) (m : Master) (d p : Fin 8) (l : Fin 32) (n : Fin 512), s.core.live = true →
    let k := s.core
    (Serves s m (dw d) (0x50 + p) 0x108 true →
      ∃ k', Completes (.ephSwapGo m d p n) s k' ∧
        k'.egr.swapReq = k.egr.swapReq ++ [⟨d, p, k.rd R.EPH_SWAP_SEL_PORT (dw d) p 0, n, k.rd R.EPH_SWAP_AT (dw d) p 0,
          k.egr.swapLast.get (d.val * 8 + p.val) + 1⟩] ∧
        k'.egr.swapPend = k.egr.swapPend ∧ k'.rd R.EPH_SWAP_STAT_STATE (dw d) p 0 = 1 ∧
        k'.rd R.EPH_SWAP_STAT_REASON (dw d) p 0 = 0) ∧
    (∀ r c, k.egr.swapReq.find? (fun r => r.die == d.val && r.pipe == p.val) = some r → k.validate r = .accepted c →
      Completes (.ephSwapValidate d p) s
        ({ k with egr := { k.egr with
            swapReq := k.egr.swapReq.erase r
            swapPend := k.egr.swapPend ++ [{ r with at' := c }] } }.tw T.EPH_PORT_SWAP_STATE (dw d) p r.l 1)) ∧
    (∀ r why det, k.egr.swapReq.find? (fun r => r.die == d.val && r.pipe == p.val) = some r →
      k.validate r = .refused why det → k.egr.swapLast.get (d.val * 8 + p.val) = r.seq → k.egr.swapPend = [] →
      Completes (.ephSwapValidate d p) s
        ((((((({ k with egr := { k.egr with swapReq := k.egr.swapReq.erase r } }).tw T.EPH_PORT_SWAP_STATE (dw d) p r.l
          3).raise (dw d) (0x50 + p) 1).wr R.EPH_SWAP_STAT_STATE (dw d) p 0 3).wr R.EPH_SWAP_STAT_REASON (dw d) p 0 why).wr
          R.EPH_SWAP_STAT_DETAIL (dw d) p 0 det))) ∧
    (Serves s m (dw d) (0x50 + p) 0x204 true → k.indBusy (dw d) (0x50 + p) = true →
      Completes (.ephEnableWrite m d p l true) s (k.accErr (dw d) (0x50 + p) m 0x204)) ∧
    (Serves s m (dw d) (0x50 + p) 0x204 true → k.indBusy (dw d) (0x50 + p) = false →
      Completes (.ephEnableWrite m d p l true) s (k.tw T.EPH_PORT_EN (dw d) p l 1) ∧
      ∃ k', Completes (.ephEnableWrite m d p l false) s k' ∧ k'.egr.gated.get (d.val * 256 + 32 * p.val + l.val) = 0) ∧
    (∀ (port entry : Fin 256) es, k.ephAt d port 0 = some es → entry.val < es.length →
      let start := ((es.getD entry (0, 0)).1 * k.time.span + 2 ^ 32 - 1) / 2 ^ 32
      Completes (.gateChange d port entry) s (k.pass (start - k.time.elapsed)) ∧
      (k.pass (start - k.time.elapsed)).time.elapsed = max start k.time.elapsed) ∧
    ∀ n, (k.pass n).time.tod = k.time.tod + n ∧ (k.pass n).io = k.io ∧ (k.pass n).egr = k.egr ∧ (k.pass n).buf = k.buf

/-- Shapers (R424, R425, R427, R428, R436): a refill stands at its 16 ns of elapsed follower time, to which it brings the
clock, and empties the die's list of configurations that wait to come into force; an enabled bucket gains 16 ns of its rate
and stops at its burst; a start is allowed exactly while a bucket in force holds 0 or more. The marker of R436 takes from both
buckets for green, from one for yellow and from none for red. Ramp groups (R430 to R432): at a step phase that the follower
has reached, and at no other, an enabled group that ramps moves to its next step and, when the new limit reaches CEIL, to FULL
with the event; a group that has been idle for IDLE_RESET_US goes back to RESET at FLOOR with a level of at most 0 and the
event. -/
def Obligations.ShapersAndRamps : Prop :=
  ((∀ (s : State) (d : Fin 8), s.core.live = true →
     ∃ k, Completes (.shaperRefill d) s k ∧ k.egr.dirty = s.core.egr.dirty.filter (·.2.1 != dw d) ∧ k.buf = s.core.buf ∧
       k.io.regs = s.core.io.regs ∧
       k.time = (s.core.pass ((s.core.egr.refills.get d + 1) * 1048576 - s.core.time.flow)).time ∧
       k.egr.refills = s.core.egr.refills.set d (s.core.egr.refills.get d + 1)) ∧
   (∀ (k : Core) (x : ShpFlds) (w p i : Nat), x = shpQ ∨ x = shpPort →
     k.td x.en.eff w p i = 1 → k.td x.burst.eff w p i < 2 ^ 31 →
       (k.shpRefill x w p i).level x.level w p i =
         min ((k.td x.burst.eff w p i : Int) * 1000000) (k.level x.level w p i + k.td x.rate.eff w p i * 2)) ∧
   (∀ (k : Core) (x : ShpFlds) (w p i : Nat), k.td x.en.eff w p i = 1 →
     (k.shpAllows x w p i = true ↔ 0 ≤ k.level x.level w p i)) ∧
   (∀ (b : Int) (tc tp c : Nat), b ≤ tp →
     (b ≤ tc → marker false c b tc tp = (green, (tc - b).toNat, (tp - b).toNat)) ∧
     (tc < b → marker false c b tc tp = (yellow, tc, (tp - b).toNat))) ∧
   (∀ aware (b : Int) (tc tp c : Nat), tp < b → marker aware c b tc tp = (red, tc, tp)) ∧
   ∀ b tc tp c, 2 ≤ c → marker true c b tc tp = (red, tc, tp)) ∧
  (∀ (s : State) (d : Fin 8) (g : Fin 64), s.core.live = true → s.core.rmp T.RMP_GRP_EN d g = 1 →
     let k := s.core
     let k0 := (k.rampFrom d g (k.nextStep d g (k.egr.rampAt.get (d.val * 64 + g.val)))).rampApply d g
     let k1 := k0.count (dw d) 5 3 256 1
     let n := min (k.rmp T.RMP_GRP_STEP_N d g + 1) (2 ^ 24 - 1)
     let lim := k1.rampLimit d g n
     let k2 := (k1.tw T.RMP_GRP_STEP_N (dw d) 0 g n).tw T.RMP_GRP_LIMIT (dw d) 0 g lim
     (k.stepDue d g = false → Completes (.rampStep d g) s k) ∧
     (k.stepDue d g = true → k.rmp T.RMP_GRP_STATE d g = 2 → k1.rmp T.RMP_GRP_CEIL.eff d g ≤ lim →
       Completes (.rampStep d g) s ((k2.tw T.RMP_GRP_STATE (dw d) 0 g 3).raise (dw d) 0x58 0)) ∧
     (k.stepDue d g = true → k.rmp T.RMP_GRP_STATE d g = 2 → lim < k1.rmp T.RMP_GRP_CEIL.eff d g →
       Completes (.rampStep d g) s (k2.tw T.RMP_GRP_STATE (dw d) 0 g 2)) ∧
     (k.stepDue d g = true → k.rmp T.RMP_GRP_STATE d g = 3 → k1.rmp T.RMP_GRP_CEIL.eff d g ≤ lim →
       Completes (.rampStep d g) s (k2.tw T.RMP_GRP_STATE (dw d) 0 g 3)) ∧
     (k.stepDue d g = true → k.rmp T.RMP_GRP_STATE d g = 1 →
       Completes (.rampStep d g) s (k0.tw T.RMP_GRP_LIMIT (dw d) 0 g (k0.rmp T.RMP_GRP_FLOOR.eff d g))) ∧
     (k.rmp T.RMP_GRP_STATE d g ≠ 1 → k.egr.idleSince.get (d.val * 64 + g.val) ≠ 0 → k.groupIdle d g = true →
       k.rmp T.RMP_GRP_IDLE_RESET_US d g * 1000 ≤ k.time.now + 1 - k.egr.idleSince.get (d.val * 64 + g.val) →
       Completes (.rampIdleReset d g) s
         (((((k.tw T.RMP_GRP_STATE (dw d) 0 g 1).tw T.RMP_GRP_STEP_N (dw d) 0 g 0).tw T.RMP_GRP_LIMIT (dw d) 0 g
           (k.rmp T.RMP_GRP_FLOOR.eff d g)).setLevel T.RMP_GRP_LEVEL (dw d) 0 g
           (min (k.level T.RMP_GRP_LEVEL (dw d) 0 g) 0)).raise (dw d) 0x58 1)))

/-- Stream contexts (R442, R451): POL_CLR clears the counters and the sequence state of a context and fills its buckets; a
write whose PIR is below its CIR while EN = 1 is refused as a whole with FAIL and CFG_ERR; one that is taken waits for the next
refill, and on a poisoned context is in force at once. -/
def Obligations.StreamContexts : Prop :=
  ∀ (s : State) (m : Master) (d : Fin 8) (i : Fin 16384) (w0 w1 w2 w3 w4 : Word), s.core.live = true →
    let k := s.core
    let ws := [w0.toNat, w1.toNat, w2.toNat, w3.toNat, w4.toNat]
    let k1 := ((polValues ws).foldl (fun k x => k.tw x.1 (dw d) 0 i x.2.1) k).wr (indFail 0x49 0x200) (dw d) 0 0 0
    (Serves s m (dw d) 0x48 0x100 true →
      ∃ k', Completes (.polClr m d i) s k' ∧
        k'.egr.tc = k.egr.tc.set (d.val * 16384 + i.val) (k.pol T.POL_CTX_CBS d i * 1000000) ∧
        k'.egr.tp = k.egr.tp.set (d.val * 16384 + i.val) (k.pol T.POL_CTX_PBS d i * 1000000) ∧
        k'.td T.POL_CTX_LAST_SEQ (dw d) 0 i = 0 ∧ k'.td T.POL_CTX_SEQ_SEEN (dw d) 0 i = 0 ∧
          k'.td T.POL_CTX_RED_PKTS (dw d) 0 i = 0 ∧ k'.td T.POL_CTX_CIR (dw d) 0 i = k.td T.POL_CTX_CIR (dw d) 0 i) ∧
    (Serves s m (dw d) 0x49 0x204 true → k.indBusy (dw d) 0x49 = true →
      Completes (.polCtxWrite m d i w0 w1 w2 w3 w4) s (k.accErr (dw d) 0x49 m 0x204)) ∧
    (Serves s m (dw d) 0x49 0x204 true → k.indBusy (dw d) 0x49 = false →
      (bit w0.toNat 31 = 1 → bits w2.toNat 30 0 < bits w1.toNat 30 0 →
        Completes (.polCtxWrite m d i w0 w1 w2 w3 w4) s ((k.cfgErr (dw d) 0x49 m 0x204).wr (indFail 0x49 0x200) (dw d) 0 0 1)) ∧
      (polRefused ws = false → (polValues ws).any (·.2.2) = false →
        (k.td T.POL_CTX_POISON (dw d) 0 i = 0 →
          Completes (.polCtxWrite m d i w0 w1 w2 w3 w4) s
            { k1 with egr := { k1.egr with dirty := k1.egr.dirty ++ [(Tab.POL_CTX, dw d, 0, i.val)] } }) ∧
        (k.td T.POL_CTX_POISON (dw d) 0 i = 1 →
          Completes (.polCtxWrite m d i w0 w1 w2 w3 w4) s
            ((((k1.tw T.POL_CTX_POISON (dw d) 0 i 0).polClear d i).polApply d i).polFill d i))))

/-! ### Host queues and telemetry -/

/-- Host queues (R743 to R746): a written TAIL stands; a transmit descriptor of a good length and port is taken, its frame
admitted in the mode it asks for and the descriptor completed with status 1, or, in ingress mode, waits for room; one of a bad
length or without its port completes with status 3, whatever its buffer holds; a fault disables the queue; a received copy goes to the buffer, cut at its size, or is dropped
where no descriptor is ready. -/
def Obligations.HostQueues : Prop :=
  ∀ (s : State) (m : Master) (pf q : Fin 4) (r : Fin 16) (t : Fin 20) (tail : Fin 65536) (desc : BitVec 256)
    (bytes : List Byte) (buffer : BitVec 64) (fault : Bool) (prs : Option (Fin 256)), s.core.live = true →
    let k := s.core
    let x := txDesc desc.toNat
    (Serves s m 0 (hqPage pf) (0x40C + 32 * t.val) true →
      Completes (.hqTailWrite m pf t tail) s (k.wr R.HQ_TAIL 0 pf t tail)) ∧
    (k.hqReady pf (16 + q) = false → Completes (.hostFrameInject pf q desc bytes fault prs) s k) ∧
    (k.hqReady pf (16 + q) = true →
      Completes (.hostFrameInject pf q desc bytes true prs) s (k.hqFault pf (16 + q)) ∧
      (k.globalExists x.port = false ∨ x.len < 60 ∨ 16348 < x.len →
        Completes (.hostFrameInject pf q desc bytes false prs) s (k.hqDone pf (16 + q) 18 (leSeq 3 2) 3)) ∧
      (bytes.length < x.len → k.globalExists x.port = true → 60 ≤ x.len → x.len ≤ 16348 →
        Completes (.hostFrameInject pf q desc bytes false prs) s (k.hqFault pf (16 + q))) ∧
      (x.len ≤ bytes.length → k.globalExists x.port = true → 60 ≤ x.len → x.len ≤ 16348 →
        let frame := withFcs (bytes.take x.len)
        let injected := k.inject (x.port / 256) (x.port % 256 / 32) x.port
          (k.classify (x.port / 256) (x.port % 256) frame).1 x.tc true none frame (if x.ts then some x.tag else none)
          (prs.map (·.val))
        (x.egress = true →
          Completes (.hostFrameInject pf q desc bytes false prs) s
            ((k.hostEgress x frame).hqDone pf (16 + q) 18 (leSeq 1 2) 3)) ∧
        (x.egress = false → injected = none → Completes (.hostFrameInject pf q desc bytes false prs) s k) ∧
        (∀ k1, x.egress = false → injected = some k1 →
          Completes (.hostFrameInject pf q desc bytes false prs) s (k1.hqDone pf (16 + q) 18 (leSeq 1 2) 3)))) ∧
    (∀ c, k.hostq.rx.find? (fun c => c.pf == pf.val && c.queue == r.val) = some c →
      let k1 := { k with hostq := { k.hostq with rx := k.hostq.rx.eraseP fun c => c.pf == pf.val && c.queue == r.val } }
      let cap := k.rd R.HQ_CFG_BUF_BYTES 0 pf r
      (k.hqReady pf r = false → Completes (.hostRxDeliver pf r buffer fault) s (k1.bump R.HQ_DROP 0 pf r 1)) ∧
      (k.hqReady pf r = true → Completes (.hostRxDeliver pf r buffer true) s (k1.hqFault pf r)) ∧
      (k.hqReady pf r = true → c.bytes.length ≤ cap →
        Completes (.hostRxDeliver pf r buffer false) s
          ((k1.emit (.dma pf buffer.toNat c.bytes)).hqDone pf r 8 (leSeq c.bytes.length 2 ++ leSeq 1 2) 2)) ∧
      (k.hqReady pf r = true → cap < c.bytes.length →
        Completes (.hostRxDeliver pf r buffer false) s
          ((k1.emit (.dma pf buffer.toNat (c.bytes.take cap))).hqDone pf r 8 (leSeq cap 2 ++ leSeq 3 2) 2)))

/-- Telemetry outputs (R617, R618, R771): a record is written at WP, which moves on by its lines and wraps, or is dropped and
counted without a region or a budget, or in stop mode where the ring has no room for it, as the Plate-full event says; a
collector frame that its account takes enters its pipeline and is counted, and waits where it does not. -/
def Obligations.TelemetryOutputs : Prop :=
  ∀ (s : State) (d p : Fin 8) (prs : Option (Fin 256)), s.core.live = true →
    let k := s.core
    (∀ r, k.cxl.plate.find? (·.die == d.val) = some r →
      let k1 := { k with cxl := { k.cxl with plate := k.cxl.plate.eraseP (·.die == d.val) } }
      let k2 := { k1 with cxl := { k1.cxl with plateFull := false } }
      ((k.regionOn 3 = false ∨ k.tokens 3 = 0) →
        Completes (.plateRecordWrite d) s (k1.bump R.CXL_PLATE_DROP_CNT 0 0 0 1)) ∧
      (k.regionOn 3 = true → k.tokens 3 ≠ 0 → k.plateFull r.lines.length = true → k.cxl.plateFull = false →
        Completes (.plateRecordWrite d) s
          (({ (k1.raise 0 0x90 4) with cxl := { k1.cxl with plateFull := true } }).bump R.CXL_PLATE_DROP_CNT 0 0 0 1)) ∧
      (k.regionOn 3 = true → k.tokens 3 ≠ 0 → k.plateFull r.lines.length = false →
        Completes (.plateRecordWrite d) s
          ((k2.plateLines (k.rd R.CXL_PLATE_WP 0 0 0) (k.regionLines 3) r.lines).wr R.CXL_PLATE_WP 0 0 0
            ((k.rd R.CXL_PLATE_WP 0 0 0 + r.lines.length) % max (k.regionLines 3) 1)))) ∧
    (∀ c, k.tele.queue.find? (fun c => c.die == d.val && c.pipe == p.val) = some c →
      let injected := k.inject d p (d * 256 + c.port % 256) (k.collPg d (c.port % 256)) c.tc false (some c.entry) c.frame none
        (prs.map (·.val))
      (injected = none → Completes (.collectorFrameInject d p prs) s k) ∧
      (∀ k1, injected = some k1 →
        Completes (.collectorFrameInject d p prs) s
          (({ k1 with tele := { k1.tele with queue := k1.tele.queue.erase c } }).bump R.TRC_COLL_CNT (dw d) 0 0 1)))

/-! ### The mailbox and its services -/

/-- The handshake of R735: GO by the sender posts an idle channel under its next sequence number; TAKE by the MP takes a
posted channel and clears its reply words, and acknowledges a withdrawn one; firmware's own turn is that of R736; DONE raises reply ready, and RELEASE by the sender ends it;
a bit written by another master, or in a state with no such transition, is discarded with ACC_ERR. -/
def Obligations.MailboxHandshake : Prop :=
  ∀ (s : State) (m : Master) (ch : Fin 13), Serves s m 0 (0xB0 + ch) 0x144 true →
    let k := s.core
    let seq := (k.rd R.MBX_REQ_HDR_SEQ 0 ch 0 + 1) % 256
    let refused := k.accErr 0 (0xB0 + ch) m 0x144
    (m.id = senderId ch → k.mbxState ch ∈ [0, 3, 4, 5] →
      Completes (.mbxGo m ch) s
        ((((k.wr R.MBX_REQ_HDR_SENDER 0 ch 0 m.id).wr R.MBX_REQ_HDR_SEQ 0 ch 0 seq).wr R.MBX_STATUS_SEQ 0 ch 0 seq).mbxTo ch 1)) ∧
    (m.id ≠ senderId ch ∨ k.mbxState ch = 1 ∨ k.mbxState ch = 2 → Completes (.mbxGo m ch) s refused) ∧
    (m = .mp → k.mbxState ch = 1 →
      let k1 := ((({ k with mbx := { k.mbx with
            lastTaken := ch.val + 1
            replied := k.mbx.replied.filter (· != ch.val) } }.clearReply ch).mbxTo ch 2).begin' ch)
      Completes (.mbxTake m (some ch)) s (match k.atOnce ch with
        | some st => k1.reply ch ⟨st, []⟩
        | none => k1)) ∧
    (m = .mp → k.mbxState ch = 5 → Completes (.mbxTake m (some ch)) s (k.mbxTo ch 0)) ∧
    (k.nextChannel = none → Completes (.mbxTake m none) s k) ∧
    (k.nextChannel = some ch.val → exec (.mbxTake m none) s = exec (.mbxTake m (some ch)) s) ∧
    (m ≠ .mp → Completes (.mbxTake m (some ch)) s refused ∧ Completes (.mbxDone m ch) s refused) ∧
    (m = .mp → k.mbxState ch = 2 → Completes (.mbxDone m ch) s (k.finish ch)) ∧
    (m = .mp → k.mbxState ch ≠ 2 → Completes (.mbxDone m ch) s refused) ∧
    (m.id = senderId ch → k.mbxState ch = 3 → Completes (.mbxRelease m ch) s (k.mbxTo ch 0)) ∧
    (m.id ≠ senderId ch ∨ k.mbxState ch ≠ 3 → Completes (.mbxRelease m ch) s refused)

/-- What every service shares (R735, R739, R740): a request that does not have the form its service asks for is answered with
status 3, one on a channel that does not have the service with status 4, and neither changes fuses, flash or measurements; a
reply stands in the channel's words until DONE. -/
def Obligations.ServiceScreening : Prop :=
  ∀ (s : State) (ch : Nat) (sv : Service) (f : State → State × Option Reply), s.core.working ch sv = true →
    (bits (s.core.req ch 0) 7 5 ≠ 0 ∨ bits (s.core.req ch 0) 4 0 ≠ sv.len → s.serve ch sv f = s.reply ch ⟨3, []⟩) ∧
    (bits (s.core.req ch 0) 7 5 = 0 → bits (s.core.req ch 0) 4 0 = sv.len → ch ∉ sv.channels →
      s.serve ch sv f = s.reply ch ⟨4, []⟩) ∧
    (∀ r, ch ∉ s.core.mbx.orphans → ch < 13 → r.status < 256 →
      (s.reply ch r).core.mbxState ch = s.core.mbxState ch ∧
      (s.reply ch r).core.rd R.MBX_RSP 0 ch 0 = s.core.req ch 0 / 256 * 256 % 2 ^ 32 + r.status ∧
      ∀ j, j < 15 → (s.reply ch r).core.rd R.MBX_RSP 0 ch (j + 1) = r.words.getD j 0 % 2 ^ 32)

/-- Start status, sensors, the repair map, quote and certificate (R583, R586, R701, R725, R741, R742, R747): what each reply
holds and what each changes when its service runs on the request. -/
def Obligations.StatusSensorsAndRepairMap : Prop :=
  ∀ (s : State) (ch : Fin 13) (b : List Byte) (d : List Byte),
    let k := s.core
    let es := (readSoftMap s.flash).getD []
    (Runs s ch svcStart →
      exec (.startStatusGet ch) s = .next (s.reply ch ⟨0, [k.rd R.PAG_BOOT_PROG_STEP 0 0 0 * 2 ^ 24 +
        k.rd R.PAG_BOOT_PROG_FAIL_STEP 0 0 0 * 2 ^ 16 + k.rd R.PAG_DIEMAP_FENCED 0 0 0 * 2 ^ 8 + k.boot.bootCase * 16 +
        k.boot.result, k.boot.stopCause]⟩)) ∧
    (Runs s ch svcRead →
      let w := k.req ch 1
      (1 ≤ w / 65536 → w / 65536 ≤ 14 →
        exec (.sensorsRead ch) s = .next (s.reply ch ⟨0, 0 :: (List.range (w / 65536)).map fun i =>
          k.sensor ((w + i) % 65536)⟩)) ∧
      (w / 65536 = 0 ∨ 14 < w / 65536 → exec (.sensorsRead ch) s = .next (s.reply ch ⟨3, []⟩))) ∧
    (Runs s ch svcLogCfg → 1 ≤ k.req ch 1 → k.req ch 1 ≤ 3600 →
      exec (.sensorsLogCfg ch) s = .next
        ({ s with core := { k with mbx := { k.mbx with period := k.req ch 1 } } }.reply ch ⟨0, []⟩)) ∧
    (k.live = true → k.rd R.MBX_MP_STATUS_STATE 0 0 0 = 1 → k.mbx.loggedAt + k.mbx.period * 1000000000 ≤ k.time.now →
      ∃ k', Completes .sensorLogPeriod s k' ∧ k'.mbx = { k.mbx with loggedAt := k.time.now }) ∧
    (Runs s ch svcMapRead → (withDigest (softBytes es)).length ≤ k.bufLen ch →
      exec (.repairMapRead ch true) s = .next
        ({ s with core := k.bufOut ch (withDigest (softBytes es)) }.reply ch ⟨0, []⟩)) ∧
    (Runs s ch svcMapAdd → k.bufLen ch ≤ b.length → k.bufLen ch % 8 = 0 → k.bufLen ch ≠ 0 →
      es.length + k.bufLen ch / 8 ≤ 36864 →
      exec (.repairMapAdd ch (some b)) s = .next
        ((s.putSoftMap (es ++ (List.range (k.bufLen ch / 8)).map fun i => leAt (b.take (k.bufLen ch)) (8 * i) 8)).reply ch
          ⟨0, []⟩)) ∧
    (Runs s ch svcMapRemove → k.req ch 1 < es.length →
      exec (.repairMapRemove ch) s = .next ((s.putSoftMap (es.eraseIdx (k.req ch 1))).reply ch ⟨0, []⟩)) ∧
    (Runs s ch svcQuote →
      (k.rd R.SEC_STATUS_ID_READY 0 0 0 = 0 → exec (.quote ch (some b) true) s = .next (s.reply ch ⟨7, []⟩)) ∧
      (k.rd R.SEC_STATUS_ID_READY 0 0 0 ≠ 0 → 3477 ≤ k.bufLen ch → k.bufLen ch ≤ b.length →
        exec (.quote ch (some b) true) s = .next
          ({ s with core := s.fresh.2.core.bufOut ch (s.quoteBody (b.take 64) ++
              (List.range 3309).map (Config.mldsaSign (idSeed k.pack.debugOn) (s.quoteBody (b.take 64)) k.time.draws)) }.reply
            ch ⟨0, []⟩))) ∧
    (Runs s ch svcCert → readRecord s.flash certSlot = some d → d.length ≤ k.bufLen ch →
      exec (.certificateGet ch true) s = .next ({ s with core := k.bufOut ch d }.reply ch ⟨0, []⟩))

/-- Fuses (R710 to R713): a burn that reads back sets exactly the fuses the service names and is answered OK; a key is added to
the lowest free owner slot, a revoked slot's bit is set, a counter rises to the running set's number, a matrix is burnt only
where MATRIX_LOCK is 0 and its rights are acceptable; a revocation that does not read back raises the
fuse-burn-failed event and burns no bit but the slot's. -/
def Obligations.FuseServices : Prop :=
  ∀ (s : State) (ch : Fin 13) (b : List Byte),
    let s1 := s.fresh.2
    let fz := s.fuse
    let mx := matrixOf (b.take (s.core.bufLen ch))
    let locked (debug : Bool) : Fuses := { fz with
      matrix := (List.range 16).map fun i => fz.matrix.getD i 0 ||| mx.getD i 0
      matrixLock := true
      debugOff := fz.debugOff || debug }
    let acceptable := fz.matrixLock = false ∧ matrixOk mx = true ∧ (∀ w ∈ mx, w < 2 ^ 20)
    (∀ i, Runs s ch svcKeyAdd → 64 ≤ s.core.bufLen ch → s.core.bufLen ch ≤ b.length →
      (List.range 4).find? (fun i => bit fz.ownerValid i == 0) = some i →
      exec (.ownerKeyAdd ch (some b) true) s = .next ({ s1 with fuse := { fz with
          ownerHash := fz.ownerHash.set i (burnBytes (fz.ownerHash.getD i []) (b.take 64) 0 true)
          ownerValid := fz.ownerValid ||| 2 ^ i } }.reply ch ⟨0, []⟩)) ∧
    (Runs s ch svcKeyRevoke → s.core.req ch 1 ≤ 3 →
      exec (.ownerKeyRevoke ch true) s = .next ({ s1 with fuse := { fz with
          ownerRevoked := fz.ownerRevoked ||| 2 ^ s.core.req ch 1 } }.reply ch ⟨0, []⟩) ∧
      ∃ (t : State) (c : Nat), exec (.ownerKeyRevoke ch false) s = .next (t.reply ch ⟨6, [c]⟩) ∧
        t.core.io = (s1.core.raise 0 0xA0 4).io ∧ t.fuse = { fz with ownerRevoked := t.fuse.ownerRevoked } ∧
        t.fuse.ownerRevoked ||| 2 ^ s.core.req ch 1 = fz.ownerRevoked ||| 2 ^ s.core.req ch 1) ∧
    (∀ man, Runs s ch svcCommit → s.core.req ch 1 = 3 → s.core.boot.owner = some man → fz.ownerRb < man.svn →
      exec (.rollbackCommit ch true) s = .next ({ s1 with fuse := { fz with ownerRb := man.svn } }.reply ch ⟨0, []⟩)) ∧
    (∀ man, Runs s ch svcCommit → s.core.req ch 1 = 2 → s.core.boot.vendor = some man → man.svn ≤ fz.vendorRb →
      exec (.rollbackCommit ch true) s = .next (s.reply ch ⟨0, []⟩)) ∧
    (Runs s ch svcMatrix → 64 ≤ s.core.bufLen ch → s.core.bufLen ch ≤ b.length → acceptable →
      exec (.fuseLockMatrix ch (some b) true) s = .next ({ s1 with fuse := locked false }.reply ch ⟨0, []⟩)) ∧
    (Runs s ch svcDebugOff →
      exec (.fuseLockDebugOff ch true) s = .next ({ s1 with fuse := { fz with debugOff := true } }.reply ch ⟨0, []⟩)) ∧
    (Runs s ch svcBoth → 64 ≤ s.core.bufLen ch → s.core.bufLen ch ≤ b.length → acceptable →
      exec (.fuseLockBoth ch (some b) true) s = .next ({ s1 with fuse := locked true }.reply ch ⟨0, []⟩)) ∧
    (Runs s ch svcMatrix → 64 ≤ s.core.bufLen ch → s.core.bufLen ch ≤ b.length → fz.matrixLock = true →
      (∀ w ∈ mx, w < 2 ^ 20) →
      ∃ (t : State) (c : Nat), exec (.fuseLockMatrix ch (some b) true) s = .next (t.reply ch ⟨2, [c]⟩) ∧ t.fuse = fz)

/-- Updates, recovery, the board description and die reports (R672, R716, R726, R727, R740): a staged chunk stands at its
offset, one of a recovery set behind those before it, which a failed check discards (the order is the model's choice, log 148); a set that fails a check is refused with the check's code and the flash stays; one that passes goes to the other bank,
which the selector then names on trial; CONFIRM ends the trial of the running bank; a good board description is written; a
recovery set goes to bank A without trial. -/
def Obligations.UpdateAndRecovery : Prop :=
  ∀ (s : State) (ch : Fin 13) (b : List Byte) (d : Fin 8),
    let k := s.core
    let data := b.take (k.bufLen ch)
    let other := otherBank (k.rd R.PAG_BOOT_PROG_IMAGE 0 0 0)
    let staged' := { s with core := k.onBoot fun x => { x with staged := stageBytes x.staged (k.req ch 4) data } }
    (Runs s ch svcStage → s.onTrial = false → k.bufLen ch ≤ b.length → k.req ch 4 + k.bufLen ch ≤ bankSize →
      exec (.updateStage ch (some b)) s = .next (staged'.reply ch ⟨0, []⟩)) ∧
    (∀ ps c, Runs s ch svcApply → s.onTrial = false → s.updateParts = (ps, some c) →
      exec (.updateApply ch []) s = .next (s.reply ch (refusal c 0))) ∧
    (∀ ps, Runs s ch svcApply → s.onTrial = false → s.updateParts = (ps, none) →
      let s1 := s.writeBank other ps []
      (ps.all fun p => p.readsBack s1.flash other) = true →
        let s2 := s1.select ⟨other, 1, 0⟩
        exec (.updateApply ch []) s = .next
          ({ s2 with core := (s2.core.onBoot fun x => { x with staged := [] }).raise 0 0xA0 1 }.reply ch ⟨0, []⟩)) ∧
    (Runs s ch svcConfirm → k.rd R.PAG_BOOT_PROG_IMAGE 0 0 0 = (readSelector s.flash).preferred →
      exec (.confirm ch) s = .next ((s.select { readSelector s.flash with trial := 0 }).reply ch ⟨0, []⟩)) ∧
    (Runs s ch svcBoard → k.bufLen ch ≤ b.length → boardOk data = true →
      exec (.boardDescriptionWrite ch (some b)) s = .next
        ({ s with flash := writeRecord s.flash boardSlot data }.reply ch ⟨0, []⟩)) ∧
    (Runs s ch svcRecStage → k.bufLen ch ≤ b.length → k.boot.staged.length + k.bufLen ch ≤ bankSize →
      let next := { s with core := k.onBoot fun x => { x with staged := stageBytes x.staged k.boot.staged.length data } }
      (next.recoveryCode = none → exec (.recoveryStage ch (some b)) s = .next (next.reply ch ⟨0, []⟩)) ∧
      (∀ c, next.recoveryCode = some c →
        exec (.recoveryStage ch (some b)) s = .next (next.unstage.reply ch (refusal c 0)))) ∧
    (Runs s ch svcRecWrite → s.partCode s.recoveryPart 0 = none →
      let s1 := (s.writeBank 0 [s.recoveryPart] []).unstage
      s.recoveryPart.readsBack s1.flash 0 = true →
        exec (.recoveryWrite ch []) s = .next ((s1.select ⟨0, 0, 0⟩).reply ch ⟨0, []⟩)) ∧
    (k.live = true → k.mbxState (4 + d) = 2 → bits (k.req (4 + d) 0) 31 24 = 0x30 → (4 + d.val) ∉ k.mbx.replied →
      k.rd R.MBX_MP_STATUS_STATE 0 0 0 = 1 →
      ∃ r, exec (.dieReport d) s = .next (s.fresh.2.reply (4 + d) r) ∧ r.words.length = 15 ∧ r.status < 8)

/-- The services that write one-time programmable state or the flash complete (R672, R710 to R713, R716, R726, R727).
On a request that firmware works on and takes, with a burn that reads back, each fuse service answers OK with exactly its fuses
burnt: the key in the lowest slot that is not valid, the revocation of the slot word 1 names, the counter of the running vendor or
owner set raised to its number (ALLOW_SINGLE set), the matrix and MATRIX_LOCK, DEBUG_OFF, or all three; all else but the reply and
the draw of the burn is as before. A chunk is staged; an applied set that verifies and reads back goes to the other bank, which the
selector then names on trial; a trial that the running bank is on is confirmed; a good board description is stored; a chunk of a
recovery set that is sound so far is staged behind the others (log 148); a recovery set that verifies and reads back goes to bank A,
which the selector then names. Each answers OK. -/
def Obligations.FuseAndFlashServicesComplete : Prop :=
  (∀ (s : State) (ch : Fin 13) (b : List Byte),
     let fz := s.fuse
     let burnt (f : Fuses) : State := { s.fresh.2 with fuse := f }.reply ch ⟨0, []⟩
     let mx := matrixOf (b.take (s.core.bufLen ch))
     let good := 64 ≤ s.core.bufLen ch ∧ s.core.bufLen ch ≤ b.length
     let lockable := good ∧ fz.matrixLock = false ∧ matrixOk mx = true ∧ ∀ w ∈ mx, w < 2 ^ 20
     let fused : Fuses := { fz with
       matrix := (List.range 16).map fun i => fz.matrix.getD i 0 ||| mx.getD i 0, matrixLock := true }
     (∀ i, Runs s ch svcKeyAdd → good → i < 4 → bit fz.ownerValid i = 0 → (∀ j, j < i → bit fz.ownerValid j = 1) →
       exec (.ownerKeyAdd ch (some b) true) s = .next (burnt { fz with
         ownerHash := fz.ownerHash.set i (burnBytes (fz.ownerHash.getD i []) (b.take 64) 0 true)
         ownerValid := fz.ownerValid ||| 2 ^ i })) ∧
     (∀ i, Runs s ch svcKeyRevoke → s.core.req ch 1 = i → i < 4 →
       exec (.ownerKeyRevoke ch true) s = .next (burnt { fz with ownerRevoked := fz.ownerRevoked ||| 2 ^ i })) ∧
     (∀ m, Runs s ch svcCommit → s.core.boot.owner = some m → fz.ownerRb < m.svn → s.core.req ch 1 = 3 →
       exec (.rollbackCommit ch true) s = .next (burnt { fz with ownerRb := m.svn })) ∧
     (∀ m, Runs s ch svcCommit → s.core.boot.vendor = some m → fz.vendorRb < m.svn → s.core.req ch 1 = 2 →
       exec (.rollbackCommit ch true) s = .next (burnt { fz with
         vendorRb := m.svn
         vendorRevoked := fz.vendorRevoked ||| (m.revoke % 16 - (m.revoke % 16 &&& 2 ^ m.slot)) })) ∧
     (Runs s ch svcMatrix → lockable → exec (.fuseLockMatrix ch (some b) true) s = .next (burnt fused)) ∧
     (Runs s ch svcDebugOff → exec (.fuseLockDebugOff ch true) s = .next (burnt { fz with debugOff := true })) ∧
     (Runs s ch svcBoth → lockable →
       exec (.fuseLockBoth ch (some b) true) s = .next (burnt { fused with debugOff := true }))) ∧
  ∀ (s : State) (ch : Fin 13) (b : List Byte) (p : SetPart) (ps : List SetPart),
    let k := s.core
    let data := b.take (k.bufLen ch)
    let got := k.bufLen ch ≤ b.length
    let ok (t : State) : State := t.reply ch ⟨0, []⟩
    let stagedAt (o : Nat) : State := { s with core := k.onBoot fun x => { x with staged := stageBytes x.staged o data } }
    let other := otherBank (k.rd R.PAG_BOOT_PROG_IMAGE 0 0 0)
    (Runs s ch svcStage → s.onTrial = false → got → k.req ch 4 + k.bufLen ch ≤ bankSize →
      exec (.updateStage ch (some b)) s = .next (ok (stagedAt (k.req ch 4)))) ∧
    (Runs s ch svcApply → s.onTrial = false → s.updateParts = (ps, none) →
      (∀ p ∈ ps, p.readsBack (s.writeBank other ps []).flash other = true) →
      let t := (s.writeBank other ps []).select ⟨other, 1, 0⟩
      exec (.updateApply ch []) s = .next
        (ok { t with core := (t.core.onBoot fun x => { x with staged := [] }).raise 0 0xA0 1 })) ∧
    (Runs s ch svcConfirm → k.rd R.PAG_BOOT_PROG_IMAGE 0 0 0 = (readSelector s.flash).preferred →
      exec (.confirm ch) s = .next (ok (s.select { readSelector s.flash with trial := 0 }))) ∧
    (Runs s ch svcBoard → got → boardOk data = true →
      exec (.boardDescriptionWrite ch (some b)) s = .next (ok { s with flash := writeRecord s.flash boardSlot data })) ∧
    (Runs s ch svcRecStage → got → k.boot.staged.length + k.bufLen ch ≤ bankSize →
      (stagedAt k.boot.staged.length).recoveryCode = none →
      exec (.recoveryStage ch (some b)) s = .next (ok (stagedAt k.boot.staged.length))) ∧
    (Runs s ch svcRecWrite → s.recoveryPart = p → s.partCode p 0 = none →
      let t := (s.writeBank 0 [p] []).unstage
      p.readsBack t.flash 0 = true → exec (.recoveryWrite ch []) s = .next (ok (t.select ⟨0, 0, 0⟩)))

/-- Program change (R171, R174, R175, R181, R184, R192, R741): a load whose image is refused is answered with the reason and
place and loads nothing; one that passes loads the inactive halves, queues a flip for each live pipeline and waits, with LOADING
set and no reply yet; a flip by the MP is queued and takes effect as the pipeline's epoch turning over and ends its LOADING, the
second half of a change nowhere before the first everywhere; once the old halves are idle everywhere each pipeline raises its
event, and the last to report ends the change; a restore gives a pipeline the words, the epochs and READY of the others. -/
def Obligations.ProgramChange : Prop :=
  ∀ (s : State) (m : Master) (ch : Fin 13) (b : List Byte) (d p : Fin 8),
    let k := s.core
    let man := manifestAt fun o n => ((b.take (k.bufLen ch)).drop o).take n
    let halves := changeHalves (k.req ch 4)
    (∀ e, Runs s ch svcLoad → k.req ch 4 ≤ 3 → k.bufLen ch ≤ b.length → man.entries[k.req ch 5]? = some e →
      e.type = 4 ∨ e.type = 0x10 → s.fuse.manifestCode (min 1 man.kind) man 0 = none →
      let stored := ((b.take (k.bufLen ch)).drop (programAt man)).take e.length
      stored.length = e.length → imageCode e stored = none →
      (∀ r, k.imageRefused (imagePlain e stored) e.length = some r →
        exec (.programChangeLoad ch (some b) none) s = .next (s.reply ch (loadRefusal r 0))) ∧
      (k.imageRefused (imagePlain e stored) e.length = none →
        (k.livePipes.all fun x => halves.all fun h => k.oldUse x.1 x.2 h == 0) = true →
        let k1 := halves.foldl (fun k h => k.loadInactive h (imageWords (imagePlain e stored))) k
        Completes (.programChangeLoad ch (some b) none) s (Core.setLoading { k1 with
          pipes := { k1.pipes with flips := k1.pipes.flips ++
            (halves.zipIdx.flatMap fun h => k.livePipes.map fun x => (x.1 * 8 + x.2, h.1, h.2 != 0)) }
          mbx := { k1.mbx with change := some ⟨k.livePipes.map fun x => x.1 * 8 + x.2, ch, man, e⟩ } } 1))) ∧
    (∀ x t, Runs s ch svcRestore → k.req ch 1 < 64 → (bits (k.req ch 1) 5 3, k.req ch 1 % 8) ∈ k.livePipes →
      k.rd R.SEQ_STATUS_READY (dw (bits (k.req ch 1) 5 3)) (k.req ch 1 % 8) 0 = 0 → k.mbx.change = none →
      k.rd R.SEQ_STATUS_LOADING (dw (bits (k.req ch 1) 5 3)) (k.req ch 1 % 8) 0 = 0 →
      k.readyPipes (bits (k.req ch 1) 5 3) (k.req ch 1 % 8) = x :: t →
      exec (.programChangeRestore ch) s = .next
        ({ s with core := k.restorePipe (bits (k.req ch 1) 5 3) (k.req ch 1 % 8) (x :: t) x }.reply ch ⟨0, []⟩)) ∧
    (Serves s m (dw d) (8 + p) 0x108 true →
      (m = .mp →
        Completes (.epochFlipIn m d p) s
          { k with pipes := { k.pipes with flips := k.pipes.flips ++ [(d.val * 8 + p.val, false, false)] } } ∧
        Completes (.epochFlipEg m d p) s
          { k with pipes := { k.pipes with flips := k.pipes.flips ++ [(d.val * 8 + p.val, true, false)] } }) ∧
      (m ≠ .mp →
        Completes (.epochFlipIn m d p) s (k.accErr (dw d) (8 + p) m 0x108) ∧
        Completes (.epochFlipEg m d p) s (k.accErr (dw d) (8 + p) m 0x108))) ∧
    (∀ x, k.live = true → k.pipes.flips.find? (fun x => x.1 == d.val * 8 + p.val) = some x →
      (x.2.2 = true → k.pipes.flips.any (fun y => !y.2.2) = true → Completes (.epochFlipApply d p) s k) ∧
      (x.2.2 = false ∨ k.pipes.flips.any (fun y => !y.2.2) = false →
        Completes (.epochFlipApply d p) s
          (({ k with pipes := { k.pipes with flips := k.pipes.flips.erase x } }.wr R.SEQ_STATUS_LOADING (dw d) p 0 0).wr
            (if x.2.1 then R.SEQ_STATUS_EPOCH_EG else R.SEQ_STATUS_EPOCH_IN) (dw d) p 0 (1 - k.epoch d p x.2.1)))) ∧
    (∀ c, k.live = true → k.mbx.change = some c → k.halvesIdle = true → (d.val * 8 + p.val) ∈ c.left →
      let s1 : State := { s with core := k.raise (dw d) (8 + p) 3 }
      let left := c.left.filter (· != d.val * 8 + p.val)
      (left = [] → exec (.oldHalfIdle d p) s = .next (s1.endChange c)) ∧
      (left ≠ [] → Completes (.oldHalfIdle d p) s
        { s1.core with mbx := { s1.core.mbx with change := some { c with left } } })) ∧
    (k.mbx.change = none ∨ k.halvesIdle = false → Completes (.oldHalfIdle d p) s k)
/-! ### The Focus engine -/

/-- Contributions, chunks and results (R466, R470, R479 to R482): the oldest contribution is handled and its cells released, once no
partial cell and no rounding stands before it; an
open notice opens its chunk at the root and starts the timer; a complete chunk is rounded and its RESULT injected, or waits for
room, and fails its context where an accumulator word is uncorrectable; a close message frees the chunk; CREATE and DESTROY report their reason with the command-done event. -/
def Obligations.FocusChunks : Prop :=
  ∀ (s : State) (m : Master) (d : Fin 8) (tag : Fin 256) (prs : Option (Fin 256)) (ue : Option (Fin 3))
    (ces : List (Fin 4096 × Fin 8)), s.core.live = true →
    let k := s.core
    let c := k.rd R.FOC_CMD_CTX_CTX (dw d) 0 0
    let slot := c % 512
    let dies := k.dieList.filter fun z => k.ctx T.FOC_CTX_STATE z slot != 0 && k.ctx T.FOC_CTX_ROOT z slot == d.val
    (∀ p, k.foc.inq.find? (·.die == d.val) = some p →
      ((k.foc.landed.any (·.1 == d.val)) = true ∨ k.roundingDue d = true → Completes (.focusContribution d ue ces) s k) ∧
      ((k.foc.landed.any (·.1 == d.val)) = false → k.roundingDue d = false →
        let k1 := ({ k with foc := { k.foc with inq := k.foc.inq.eraseP (·.die == d.val) } }.cesFound (dw d) ces).focRead d p.ctx
          (ue.map fun x : Fin 3 => x.val)
        Completes (.focusContribution d ue ces) s ((k1.contribute p (ue == some 0)).copyGone p.grp))) ∧
    (∀ x k1, k.takeFocMsg d .openNotice = some (x, k1) →
      (k1.ctxIs d x.ctx x.gen = true → k1.inWindow d (x.ctx % 512) x.seq = true →
        Completes (.openNoticeReceive d) s
          ((k1.openChunk d (x.ctx % 512) x.seq 0).startTimer d (x.ctx % 512) x.seq)) ∧
      (k1.ctxIs d x.ctx x.gen = false → Completes (.openNoticeReceive d) s k1)) ∧
    (∀ x, k.resultDue d = some x →
      (x.rounded = false → k.foc.landed.any (·.1 == d.val) = true → Completes (.resultInject d false prs) s k) ∧
      (x.rounded = true ∨ k.foc.landed.any (·.1 == d.val) = false →
        Completes (.resultInject d false prs) s ((match k.injectResult x (prs.map fun x : Fin 256 => x.val) with
          | some k1 => k1.failAfter (d.val * 512 + x.slot)
          | none => k.putChunk { x with rounded := true }).destroyGoOn d)) ∧
      (x.rounded = false → k.foc.landed.any (·.1 == d.val) = false →
        Completes (.resultInject d true prs) s ((k.accUe d (d.val * 512 + x.slot)).destroyGoOn d))) ∧
    (k.foc.chunks.all (fun x => !(x.die == d.val && x.complete)) = true → k.foc.destroys = [] →
      ∀ bad, Completes (.resultInject d bad prs) s k) ∧
    (∀ x, k.foc.msgs.find? (fun m => m.dst == d.val && m.kind == FocMsgKind.close &&
        !(k.foc.partials.any fun y => y.src == d.val && y.ctx == m.ctx && y.seq == m.seq && !y.acked)) = some x →
      let k1 := k.onFoc fun f => { f with msgs := f.msgs.erase x }
      k1.ctxIs d x.ctx x.gen = true → Completes (.closeMessageReceive d) s (k1.closeChunk d (x.ctx % 512) x.seq)) ∧
    (Serves s m (dw d) 0x60 0x114 true → k.rd R.FOC_CMD_STAT_BUSY (dw d) 0 0 = 0 →
      (k.createReason d c ≠ 0 → Completes (.focusCreate m d tag) s (k.focDone d tag (k.createReason d c))) ∧
      (k.createReason d c = 0 →
        Completes (.focusCreate m d tag) s
          (((k.ctxDies d slot).foldl (fun k' z => k'.activate z slot ((k.ctx T.FOC_CTX_GEN d slot + 1) % 16)
            (k.ctxLines d slot)) k).focDone d tag 0)) ∧
      (c / 512 ≠ d.val → Completes (.focusDestroy m d tag) s (k.focDone d tag 6)) ∧
      (c / 512 = d.val → k.ctx T.FOC_CTX_STATE d slot = 1 → k.ctx T.FOC_CTX_ROOT d slot = d.val → k.foc.chunks = [] →
        Completes (.focusDestroy m d tag) s
          ((((((dies.foldl (fun k z => k.tw T.FOC_CTX_STATE (dw z) 0 slot 0) k).forgetCtx c dies).freeLines c).focDone d tag 0).wr
            R.FOC_CMD_STAT_BUSY (dw d) 0 0 0))))

/-- Partials, timers and errors (R477, R478, R480, R488): the cells of a partial are gathered in order and the last adds it; an
acknowledgement settles it, a NACK or a timeout sends it again until its sends are used up and its context fails with code 5; a
chunk timer that runs out fails the context with code 1; a die answers with its missing members, in 5 µs; an ERROR that waits for no
bitmap is injected and counted. -/
def Obligations.FocusPartialsAndErrors : Prop :=
  ∀ (s : State) (d : Fin 8) (slot : Fin 512) (prs : Option (Fin 256)) (ue : Bool)
    (ces : List (Fin 4096 × Fin 8)), s.core.live = true →
    let k := s.core
    let retry := k.rd R.FOC_PART_CFG_RETRY (dw d) 0 0 + 1
    (∀ x, k.foc.landed.find? (·.1 == d.val) = some x →
      Completes (.partialCellArrival d ue ces) s
        (((k.onFoc fun f => { f with landed := f.landed.eraseP (·.1 == d.val) }).cesFound (dw d) ces).partialCell d x.2.1 x.2.2 ue)) ∧
    (∀ m p k1, k.takeFocMsg d .ack = some (m, k1) → k.partialOf m = some p →
      Completes (.partialAckReceive d) s (k1.putPartial { p with acked := true })) ∧
    (∀ m p k1, k.takeFocMsg d .nack = some (m, k1) → k.partialOf m = some p →
      (p.acked = true ∨ k1.ctxIs d p.ctx p.gen = false → Completes (.partialNackReceive d) s k1) ∧
      (p.acked = false → k1.ctxIs d p.ctx p.gen = true → retry ≤ p.sends → Completes (.partialNackReceive d) s (k1.focFail p.ctx 5)) ∧
      (p.acked = false → k1.ctxIs d p.ctx p.gen = true → p.sends < retry →
        Completes (.partialNackReceive d) s
          (((k1.putPartial { p with next := 0 }).bump R.FOC_PART_REPLAY_CNT (dw d) 0 0 1).raise (dw d) 0x60 3))) ∧
    (∀ p, k.foc.partials.find? (fun x => x.src == d.val && x.next == x.cells && !x.acked && k.ctxIs d x.ctx x.gen && decide (0 < x.sends ∧
        x.sentAt + k.rd R.FOC_PART_CFG_ACK_TMO_US (dw d) 0 0 * 1000 ≤ k.time.now)) = some p → p.sends < retry →
      Completes (.partialAckTimeout d) s
        (((k.putPartial { p with next := 0 }).bump R.FOC_PART_REPLAY_CNT (dw d) 0 0 1).raise (dw d) 0x60 3)) ∧
    (∀ x, k.ctxActive d slot = true → k.ctx T.FOC_CTX_ROOT d slot = d.val → x ∈ k.foc.chunks → x.die = d.val →
      x.slot = slot.val → x.complete = false → 0 < x.timer →
      x.timer - 1 + k.ctx T.FOC_CTX_TIMEOUT_US d slot * 1000 ≤ k.time.now →
      Completes (.chunkTimerExpire d slot) s (k.focFail (d.val * 512 + slot.val) 1)) ∧
    (∀ m k1, k.takeFocMsg d .ask = some (m, k1) →
      ∃ k', Completes (.memberBitmapReply d) s k' ∧ k'.foc.chunks = k.foc.chunks ∧ k'.foc.msgs = k1.foc.msgs ∧
        ∀ e ∈ k'.foc.errors, e.ctx = m.ctx → e.gen = m.gen → e.seq = m.seq →
          k.time.now < e.askedAt + 5000 → d.val ∉ e.waiting) ∧
    (∀ e, k.foc.errors.find? (fun e => e.root == d.val && (e.waiting.isEmpty || decide (e.askedAt + 5000 ≤ k.time.now))) = some e →
      e.waiting = [] →
      let sent := k.focInject d e.inj (mkFocHdr 9 e.inj.ty 0 (e.gen * 4096 + e.ctx) e.seq e.code)
        ((List.range 256).map fun i => BitVec.ofNat 8 (e.bitmap / 2 ^ (8 * i))) (prs.map (·.val))
      Completes (.errorInject d prs) s (match sent with
        | some k1 =>
          ((k1.onFoc fun f => { f with errors := f.errors.erase e }).bump R.FOC_ERR_CNT (dw d) 0 0 1).count (dw d) 6 4 0 1
        | none => k)) ∧
    (k.foc.errors = [] → Completes (.errorInject d prs) s k) ∧
    (k.ctxActive d slot = false → (k.focFail (d.val * 512 + slot.val) 1).foc.errors = k.foc.errors)

/-! ### Time -/

/-- References (R397 to R400, R403, R404, R445): a mains edge that did not hold its level is none; one that did records its time,
phase error and event whatever the source of the cycle; one out of range counts as missing and raises its event; the second
missing edge in a row puts a locked source into HOLDOVER; a PPS edge records its time and phase error whatever the source of time
of day, and the first after a selection realigns time of day; losing the 10 MHz in PPS mode is loss at once; an edge or an update
is missing only once its window has gone by; a selection moves its source to FREE or ACQUIRING and value 3 is refused. -/
def Obligations.TimeReferences : Prop :=
  ∀ (s : State) (m : Master) (held : Bool) (tracked rate : BitVec 32) (byMains : Bool), s.core.live = true →
    let k := s.core
    let tod := k.rd R.STB_CFG_TOD_SRC 0 0 0
    let cyc := k.rd R.STB_CFG_CYC_SRC 0 0 0
    let s1 := k.time.cycSrc
    let gap := k.time.now + 1 - s1.last
    let at1 := k.onTime fun t => { t with cycSrc := { s1 with last := t.now + 1 } }
    let out := s1.last ≠ 0 ∧ (gap * 65 < 1000000000 ∨ 1000000000 < gap * 45)
    let mains (k : Core) : Core := k.onTime fun t => { t with mainsEdge := t.now + 1 }
    let pps (k : Core) : Core := k.onTime fun t => { t with ppsEdge := t.now + 1 }
    (held = false → Completes (.mainsEdge held tracked) s (mains k)) ∧
    (held = true → cyc = 0 → ¬ out → Completes (.mainsEdge held tracked) s (mains at1.mainsNote)) ∧
    (held = true → cyc = 0 → out → Completes (.mainsEdge held tracked) s (mains (at1.raise 0 stbPage 4))) ∧
    (held = true → cyc ≠ 0 → out → Completes (.mainsEdge held tracked) s (mains ((at1.missEdge true).raise 0 stbPage 4))) ∧
    (held = true → cyc ≠ 0 → s1.last = 0 → s1.fresh = true → k.rd R.STB_STATUS_CYC_STATE 0 0 0 ≠ 3 →
      ∃ k', Completes (.mainsEdge held tracked) s k' ∧ k'.time.cycSrc.fresh = false ∧ k'.time.cycSrc.last = k.time.now + 1 ∧
        k'.time.cycSrc.rate = (tracked.toNat : Int) * 65536 ∧ k'.time.theta = 0 ∧ k'.time.tod = k.time.tod ∧ k'.buf = k.buf ∧
        k'.rd R.STB_MAINS_TS 0 0 0 = (timeWords k.time.tod).getD 0 0 % 2 ^ 32) ∧
    (tod ≠ 1 → Completes (.ppsEdge rate) s (pps k.ppsNote) ∧ Completes .tenMhzLoss s k ∧ Completes (.missingEdge .pps) s k) ∧
    (tod = 1 → k.time.todSrc.fresh = true → k.time.todSrc.last = 0 → k.rd R.STB_STATUS_TOD_STATE 0 0 0 ≠ 3 →
      ∃ k', Completes (.ppsEdge rate) s k' ∧ k'.time.tod = (k.time.tod - secErr k.ppsTime).toNat ∧
        k'.time.todSrc.fresh = false ∧ k'.time.todSrc.rate = rate.toInt ∧ k'.time.todSrc.last = k.time.now + 1) ∧
    (tod = 1 → k.rd R.STB_STATUS_TOD_STATE 0 0 0 = 2 → Completes .tenMhzLoss s (k.holdover false)) ∧
    (tod = 1 → k.overdue false = false → Completes (.missingEdge .pps) s k) ∧
    (tod = 1 → k.overdue false = true → k.rd R.STB_STATUS_TOD_STATE 0 0 0 = 2 → k.time.todSrc.missed = 1 →
      Completes (.missingEdge .pps) s
        ((k.setSrc false { k.time.todSrc with missed := 2, good := 0, gone := k.time.todSrc.gone + 1 }).holdover false)) ∧
    (tod = 1 → k.overdue false = true → k.time.todSrc.missed = 0 →
      Completes (.missingEdge .pps) s (k.setSrc false { k.time.todSrc with missed := 1, good := 0, gone := k.time.todSrc.gone + 1 })) ∧
    (tod = 2 → Completes (.missingEdge .servo) s
      (if k.overdue true then (k.missEdge false).raise 0 stbPage 6 else k)) ∧
    (cyc = 1 → Completes (.missingEdge .mains) s (k.missEdge true) ∧
      (k.missEdge true).rd R.STB_MAINS_FREQ_MHZ 0 0 0 = 0 ∧ (k.missEdge true).time.periods = []) ∧
    (Serves s m 0 stbPage 0x100 true → tod = 2 → byMains = decide (cyc = 1) → cyc ≤ 1 →
      Completes (.sourceSelect m 3 byMains) s
        (((k.cfgErr 0 stbPage m 0x100).wr R.STB_CFG_TOD_SRC 0 0 0 2).wr R.STB_CFG_CYC_SRC 0 0 0 cyc)) ∧
    (k.rd R.STB_STATUS_TOD_STATE 0 0 0 = 2 → cyc = 1 →
      (k.holdover false).rd R.STB_STATUS_TOD_STATE 0 0 0 = 3)

/-- Steps, cycles and followers (R393 to R395, R399, R405, R446): a step waits for the boundary with STEP_PENDING set; a cycle
boundary raises the cycle number by one, wraps the phase and applies a waiting step to time of day; a written frequency stands; a
follower's SYNC falls with its event and returns. The clock that CYCLE_BOUNDARY brings to its boundary is the model's choice
(log 131). -/
def Obligations.StepsCyclesAndFollowers : Prop :=
  ∀ (s : State) (m : Master) (v : Word) (d : Fin 8), s.core.live = true →
    let k := s.core
    (Serves s m 0 stbPage 0x16C true → k.rd R.STB_CFG_TOD_SRC 0 0 0 ≠ 2 →
      ∃ k', Completes (.stepGo m) s k' ∧
        k'.time = { k.time with
          step := some (signed (k.rd R.STB_STEP_SEC 0 0 0) * 1000000000 + signed (k.rd R.STB_STEP_NS 0 0 0)) } ∧
        k'.rd R.STB_STATUS_STEP_PENDING 0 0 0 = 1) ∧
    (∃ k', Completes .cycleBoundary s k' ∧ k'.time.cycle = (k.time.cycle + 1) % 2 ^ 64 ∧
      k'.time.elapsed = k.time.elapsed - k.time.span ∧ k'.time.step = none ∧ k'.time.jump = 0 ∧ k'.time.reform = false ∧
      0 < k'.time.span ∧
      (k.time.step = none → k'.time.tod = (k.toBoundary.time.tod + k.time.jump).toNat) ∧
      (∀ n, k.time.step = some n →
        k'.time.tod = (((k.toBoundary.time.tod + n * 65536).toNat : Int) + k.time.jump).toNat) ∧
      (k.time.span ≤ k.time.elapsed → k.toBoundary.time.tod = k.time.tod) ∧
      ∀ x ∈ k'.egr.swapPend, x.at' ≠ k'.time.cycle) ∧
    (Serves s m 0 stbPage 0x160 true → k.rd R.STB_CFG_TOD_SRC 0 0 0 ≠ 2 →
      ∃ k', Completes (.freqAdjWrite m v) s k' ∧ k'.time = k.time ∧ k'.io.regs =
        (k.wr R.STB_FREQ_ADJ 0 0 0 v.toNat).io.regs) ∧
    Completes (.followerSyncLoss d) s ((k.wr R.STB_FOL_STATUS_SYNC (dw d) 0 0 0).raise (dw d) 0x5C 1) ∧
    Completes (.followerSyncRegain d) s (k.wr R.STB_FOL_STATUS_SYNC (dw d) 0 0 1)
/-! ### Ports and lanes -/

/-- Link states (R368, R539 to R545, R559): EN = 1 from L0 begins an attempt; negotiation and training end their parts of it; with
both done, every lane in alignment lock and 1 ms without a fault the link comes up, LINK_UP is told to the buffer and the event
raised, at the attempt's end too (R569); a fault met during an attempt is shown, and local fault answered with remote fault; an attempt that runs out backs off with the wait
of R542, after which the next begins; a link that goes down begins attempt 1, and EN = 0 ends everything in the state LSTATE_REQ
names. A command to a port that does not exist sets FAIL, one while the page is busy is an access error (R97), and the ports of a
fenced die begin no attempt (R66). -/
def Obligations.LinkStates : Prop :=
  ∀ (s : State) (m : Master) (d : Fin 8) (l : Fin 256) (req cause : Fin 4) (cs : List Word) (tx rx : BitVec 8)
    (cut : List Byte) (partner : List (Fin 4 × Fin 4)) (aligned : BitVec 8) (since : Nat), s.core.live = true →
    let k := s.core
    let w := dw d
    let reached := s.core.verdict m w (0xA0 + l / 8) 0x204 true = .ok
    let served := reached ∧ k.indBusy w (0xA0 + l / 8) = false
    (reached → k.indBusy w (0xA0 + l / 8) = true →
      Completes (.portEnable m d l) s (k.accErr w (0xA0 + l / 8) m 0x204) ∧
      Completes (.portDisable m d l cut) s (k.accErr w (0xA0 + l / 8) m 0x204) ∧
      Completes (.laneStateRequest m d l req) s (k.accErr w (0xA0 + l / 8) m 0x204)) ∧
    (k.fenced d = true → Completes (.lanesReady d l) s k ∧ Completes (.backoffExpire d l) s k) ∧
    (served → k.portExists d l = false →
      Completes (.portEnable m d l) s (k.wr (indFail (0xA0 + l / 8) 0x200) w 0 0 1) ∧
      Completes (.portDisable m d l cut) s (k.wr (indFail (0xA0 + l / 8) 0x200) w 0 0 1) ∧
      Completes (.laneStateRequest m d l req) s (k.wr (indFail (0xA0 + l / 8) 0x200) w 0 0 1)) ∧
    (served → k.portExists d l = true →
      (k.mcReady d (l / 8) = false →
        Completes (.portEnable m d l) s ((k.wr (indFail (0xA0 + l / 8) 0x200) w 0 0 1).accErr w (0xA0 + l / 8) m 0x204)) ∧
      (k.mcReady d (l / 8) = true → k.prt T.PRT_PORT_EN d l = 0 → k.linkState d l = 0 →
        Completes (.portEnable m d l) s ((k.setPrt T.PRT_PORT_EN d l 1).beginAttempt d l)) ∧
      (k.prt T.PRT_PORT_EN d l ≠ 0 → k.linkUp d l = false → k.linkState d l ≠ 7 →
        Completes (.portDisable m d l cut) s
          (((((k.abortSubsts d l).setPrt T.PRT_PORT_EN d l 0).endAttempt d l).setPrt T.PRT_PORT_ATTEMPT d l 0).setLinkState d l
            (restState (k.prt T.PRT_PORT_LSTATE_REQ d l)))) ∧
      (req.val ≠ 3 → k.prt T.PRT_PORT_EN d l = 0 → k.linkState d l ≠ 7 →
        Completes (.laneStateRequest m d l req) s
          ((k.setPrt T.PRT_PORT_LSTATE_REQ d l req).setLinkState d l (restState req)))) ∧
    (k.prt T.PRT_PORT_EN d l = 1 → k.linkState d l = 5 ∨ k.linkState d l = 6 →
      Completes (.lanesReady d l) s (k.beginAttempt d l)) ∧
    (∀ a, k.attemptOf d l = some a →
      (a.needAn = true →
        let common := ∃ x ∈ partner, x.1.val = k.rd R.PRT_OCT_CFG_RATE w (l / 8) 0 ∧ x.2.val = k.rd R.PRT_OCT_CFG_MODE w (l / 8) 0
        (common → Completes (.autonegComplete d l partner) s ((k.putAttempt { a with needAn := false }).setLinkState d l 2)) ∧
        (¬ common → Completes (.autonegComplete d l partner) s (k.setPrt T.PRT_PORT_AN_MISMATCH d l 1))) ∧
      (a.needAn = false → a.needTrain = true →
        Completes (.trainingComplete d l cs tx rx) s
          ((k.putAttempt { a with needTrain := false }).trained d l cs tx.toNat rx.toNat)) ∧
      (a.needAn = false → a.needTrain = false → k.rd R.SEQ_STATUS_READY w (l / 32) 0 = 1 →
        (∀ i, i < (k.lanesOf d l).length → aligned.getLsbD i = true) → since + 1000000 ≤ k.time.now →
        (k.link.faultAt.get (d.val * 256 + l.val) = 0 ∨ k.link.faultAt.get (d.val * 256 + l.val) + 999999 ≤ k.time.now) →
        Completes (.linkUp d l aligned since) s (k.linkGoesUp d l) ∧ Completes (.attemptTimeout d l aligned since) s (k.linkGoesUp d l)) ∧
      (k.attemptGood d l a aligned.toNat since = false →
        Completes (.linkUp d l aligned since) s k) ∧
      (a.since + k.rd R.PRT_LINK_CFG_ATTEMPT_MS w (l / 8) 0 * 1000000 ≤ k.time.now → k.attemptGood d l a aligned.toNat since = false →
        let n := min 255 (k.prt T.PRT_PORT_ATTEMPT d l + 1)
        let ms := min (k.rd R.PRT_BACKOFF_BASE_MS w (l / 8) 0 * 2 ^ (n - 1)) (k.rd R.PRT_BACKOFF_MAX_MS w (l / 8) 0)
        Completes (.attemptTimeout d l aligned since) s
          (((((k.endAttempt d l).setPrt T.PRT_PORT_ATTEMPT d l n).setLinkState d l 4).onLink fun x => { x with
            backoff := x.backoff.set (d.val * 256 + l.val) (k.time.now + ms * 1000000 + 1) }).raise w (0xA0 + l / 8) 2))) ∧
    (k.link.backoff.get (d.val * 256 + l.val) ≠ 0 → k.link.backoff.get (d.val * 256 + l.val) ≤ k.time.now + 1 →
      Completes (.backoffExpire d l) s (k.beginAttempt d l)) ∧
    (k.linkUp d l = false → cause.val < 2 ∨ k.attemptOf d l = none → Completes (.linkDown d l cause cut) s k) ∧
    (k.linkUp d l = false → k.attemptOf d l ≠ none →
      Completes (.linkDown d l 2 cut) s (((k.onLink fun x => { x with
        faultAt := x.faultAt.set (d.val * 256 + l.val) (k.time.now + 1) }).setPrt T.PRT_PORT_LOCAL_FAULT d l 1).emit
          (.remoteFault (d.val * 256 + l.val))) ∧
      Completes (.linkDown d l 3 cut) s ((k.onLink fun x => { x with
        faultAt := x.faultAt.set (d.val * 256 + l.val) (k.time.now + 1) }).setPrt T.PRT_PORT_REMOTE_FAULT d l 1)) ∧
    (k.linkUp d l = true → Completes (.linkDown d l 0 cut) s (((k.cutOff d l cut).linkGoesDown d l).beginAttempt d l)) ∧
    (k.linkUp d l = true → Completes (.linkDown d l 0 []) s ((k.linkGoesDown d l).beginAttempt d l))

/-- Scans, calibration, slices and the octet configuration (R546 to R557, R565, R568): a second software scan is an access
error; a scan that begins is shown and, when it completes, ends with its event; a background scan begins on a lane that is due,
and not before; a request for calibration or a spare is refused
with its code or begins, and its end shows the result; a configuration that the octet cannot have, or that meets an enabled
port, is refused with CFG_ERR. -/
def Obligations.LaneCommands : Prop :=
  ∀ (s : State) (m : Master) (d : Fin 8) (o : Fin 32) (v : Word) (g : List (Fin 4096 × Word)) (lane : Fin 8) (ok : Bool)
    (l : Fin 256), s.core.live = true →
    let k := s.core
    let w := dw d
    let idle := k.scanOf d o true = none ∧ k.scanOf d o false = none
    (Serves s m w (0x80 + o) 0x170 true →
      (∀ x, k.scanOf d o true = some x → Completes (.rtcScanGo m d o v) s (k.accErr w (0x80 + o) m 0x170) ∧
        Completes (.rtcScanAbort m d o v) s
          ((((k.rtcFields m d o v.toNat).dropScan d o true).wr R.LAN_RTC_STAT_STATE w o 0 3).wr R.LAN_RTC_STAT_POINTS w o 0
            ((k.rtcFields m d o v.toNat).scanned x))) ∧
      (k.scanOf d o true = none → Completes (.rtcScanAbort m d o v) s (k.rtcFields m d o v.toNat)) ∧
      (k.scanOf d o true = none → (k.rtcFields m d o v.toNat).mcReady d o = true →
        let k1 := k.rtcFields m d o v.toNat
        Completes (.rtcScanGo m d o v) s
          ((k1.onLink fun x => { x with scans := x.scans ++ [⟨d, o, k1.rd R.LAN_RTC_CMD_LANE w o 0,
            k1.rd R.LAN_RTC_CMD_FULL w o 0 == 1, true, k1.rd R.LAN_RTC_CMD_DWELL w o 0, k.time.now⟩] }).scanShown d o (k1.rd R.LAN_RTC_CMD_LANE w o 0) true))) ∧
    (∀ x, k.scanOf d o true = some x →
      (scanPoints x.full (k.rd R.PRT_OCT_CFG_RATE w o 0) ≤ k.scanned x →
        ∃ k', Completes (.scanComplete d o g) s k' ∧ k'.link.scans = (k.dropScan d o x.software).link.scans ∧
          k'.buf = k.buf) ∧
      (k.scanned x < scanPoints x.full (k.rd R.PRT_OCT_CFG_RATE w o 0) → Completes (.scanComplete d o g) s k)) ∧
    (idle → Completes (.scanComplete d o g) s k) ∧
    (idle → k.rd R.LAN_BG_CFG_EN w o 0 = 1 → k.mcReady d o = true →
      (k.scanDue d o lane = true →
        Completes (.backgroundScan d o lane) s
          ((k.onLink fun x => { x with
            scans := x.scans ++ [⟨d, o, lane, false, false, 20, k.time.now⟩]
            lastScan := x.lastScan.set (d.val * 256 + 8 * o.val + lane.val) (k.time.now + 1) }).scanShown d o lane false)) ∧
      (k.scanDue d o lane = false → Completes (.backgroundScan d o lane) s k)) ∧
    (Serves s m w (0x80 + o) 0x180 true →
      let k1 := (k.putFld m R.LAN_CAL_CMD_SCOPE w o 0 v.toNat 0 1).putFld m R.LAN_CAL_CMD_LANE w o 0 v.toNat 0 7
      let one := [k1.portLane d (8 * o.val + k1.rd R.LAN_CAL_CMD_LANE w o 0)]
      k1.rd R.LAN_CAL_CMD_SCOPE w o 0 = 0 →
      (k1.calCode d o one = 1 ∨ k1.calCode d o one = 2 ∨ k1.calCode d o one = 7 →
        Completes (.calibrationGo m d o v) s
          ((k1.wr R.LAN_CAL_STAT_STATE w o 0 2).wr R.LAN_CAL_STAT_CODE w o 0 (k1.calCode d o one))) ∧
      (k1.calCode d o one = 0 →
        Completes (.calibrationGo m d o v) s
          ((((k1.wr R.LAN_CAL_STAT_STATE w o 0 1).wr R.LAN_CAL_STAT_CODE w o 0 0).onLink fun x => { x with
            calibs := x.calibs ++ [⟨d, o, false, one⟩] }).setLinkState d (k1.portLane d (8 * o.val + k1.rd R.LAN_CAL_CMD_LANE w o 0))
            7))) ∧
    (∀ x, k.link.calibs.find? (fun x => x.die == d.val && x.oct == o.val) = some x → x.ports = [l.val] →
      k.prt T.PRT_PORT_EN d l = 0 →
      ∃ k', Completes (.calibrationComplete d o ok) s (k'.raise w (0x80 + o) 1) ∧
        k' = ((((k.onLink fun y => { y with calibs := y.calibs.erase x }).wr R.LAN_CAL_STAT_STATE w o 0 2).wr
          R.LAN_CAL_STAT_CODE w o 0 (if ok then 0 else 4)).setLinkState d l (restState (k.prt T.PRT_PORT_LSTATE_REQ d l)))) ∧
    (Serves s m w (0x80 + o) 0x188 true →
      let k1 := (k.putFld m R.LAN_SPARE_CMD_LANE w o 0 v.toNat 0 7).putFld m R.LAN_SPARE_CMD_SPARE w o 0 v.toNat 0 7
      let spare := k1.rd R.LAN_SPARE_CMD_SPARE w o 0
      k1.mcReady d o = true → k1.link.substs = [] →
      (bit (k1.sparesUsed d) spare = 1 →
        Completes (.spareSubstituteGo m d o v) s
          ((k1.wr R.LAN_SPARE_STAT_STATE w o 0 2).wr R.LAN_SPARE_STAT_CODE w o 0 6)) ∧
      (bit (k1.sparesUsed d) spare = 0 →
        ∃ k', Completes (.spareSubstituteGo m d o v) s k' ∧
          k'.link.substs = [⟨d, o, k1.rd R.LAN_SPARE_CMD_LANE w o 0, spare⟩] ∧ k'.io.ents = k1.io.ents)) ∧
    (∀ x, k.link.substs.find? (fun x => x.die == d.val && x.oct == o.val) = some x →
      Completes (.substitutionComplete d o true) s
        ((((((k.onLink fun y => { y with substs := y.substs.erase x }).wr R.LAN_SPARE_STAT_STATE w o 0 2).wr
          R.LAN_SPARE_STAT_CODE w o 0 0).wr R.LAN_LANE_STAT_SLICE w o x.lane (256 + x.spare)).wr R.LAN_LANE_STAT_DEGRADED w o
          x.lane 0).raise w (0x80 + o) 3)) ∧
    (k.populated d = true →
      Completes (.sliceDegraded d l) s
        ((k.wr R.LAN_LANE_STAT_DEGRADED w (l.val / 8) (l.val % 8) 1).raise w (0x80 + l.val / 8) 2)) ∧
    (Serves s m w (0xA0 + o) 0x100 true →
      let rate := bits v.toNat 1 0
      let mode := bits v.toNat 3 2
      let good := octetOk rate mode (bit v.toNat 8) (bits v.toNat 5 4)
      (good = false ∨ (k.octPorts d o).any (fun l => k.prt T.PRT_PORT_EN d l == 1) = true →
        Completes (.octetConfigWrite m d o v) s (k.cfgErr w (0xA0 + o) m 0x100)) ∧
      (good = true → (k.octPorts d o).any (fun l => k.prt T.PRT_PORT_EN d l == 1) = false →
        k.rd R.PRT_OCT_CFG_RATE w o 0 = rate → k.rd R.PRT_OCT_CFG_MODE w o 0 = mode →
        Completes (.octetConfigWrite m d o v) s
          (((((k.wr R.PRT_OCT_CFG_RATE w o 0 rate).wr R.PRT_OCT_CFG_MODE w o 0 mode).wr R.PRT_OCT_CFG_MEDIA w o 0
            (bit v.toNat 8)).wr R.PRT_OCT_CFG_FEC25 w o 0 (bits v.toNat 5 4)).moved d (k.freeCells d))))

/-- The digital coding of the lanes (R528, R529, R532, R533): a pair of bits becomes its symbol and comes back; each precoded
symbol is its own less the one sent before, modulo 4, and receive precoding recovers it; polarity maps s to 3 − s and undoes
itself; the descrambler recovers what the scrambler sent, and both stand alike after it; and a lane that receives what a lane
of the same settings and the same last symbol sends recovers its bits. The coding of the die-to-die links (R30, R575): a flit as
its sender seals it passes the receiver's checks and gives back its payload, its sequence and its acknowledgement; one bit of it
wrong, in any of the 240 payload bytes, and it fails them. Where the control bytes hold the fields, and the CRC, are the model's
choice (log 123). -/
def Obligations.LaneCoding : Prop :=
  (toSymbols true [false, false] = [0] ∧ toSymbols true [false, true] = [1] ∧ toSymbols true [true, true] = [2] ∧
    toSymbols true [true, false] = [3]) ∧
  (∀ bs : List Bool, bs.length % 2 = 0 → ofSymbols true (toSymbols true bs) = bs ∧ ∀ s ∈ toSymbols true bs, s < 4) ∧
  (∀ (p : Nat) (gs : List Nat), (∀ g ∈ gs, g < 4) → p < 4 →
    (∀ q ∈ precodeTx p gs, q < 4) ∧ precodeRx p (precodeTx p gs) = gs ∧
      ∀ j, j < gs.length → (precodeTx p gs).getD j 0 =
        (gs.getD j 0 + 4 - (if j = 0 then p else (precodeTx p gs).getD (j - 1) 0)) % 4) ∧
  (∀ ss : List Nat, (∀ s ∈ ss, s < 4) → invertLane true (invertLane true ss) = ss ∧
    ∀ j, j < ss.length → (invertLane true ss).getD j 0 = 3 - ss.getD j 0) ∧
  (∀ (st : Nat) (bs : List Bool), descramble st (scramble st bs).1 = (bs, (scramble st bs).2)) ∧
  (∀ (k : Core) (d x : Nat) (bs : List Bool),
     let w := dw d
     bs.length % 2 = 0 →
     k.rd R.LAN_LANE_CFG_TX_INV w (x / 8) (x % 8) = k.rd R.LAN_LANE_CFG_RX_INV w (x / 8) (x % 8) →
     k.rd R.LAN_LANE_STAT_PRE_TX_ACT w (x / 8) (x % 8) = k.rd R.LAN_LANE_STAT_PRE_RX_ACT w (x / 8) (x % 8) →
     k.link.preTx.get (d * 256 + x) = k.link.preRx.get (d * 256 + x) → k.link.preTx.get (d * 256 + x) < 4 →
       (k.laneReceive d x true (k.laneSend d x true bs).1).1 = bs) ∧
  (∀ (payload : List Byte) (seq ack : Nat), seq < 65536 → ack < 65536 →
    let f := sealFlit payload seq ack
    flitGood f = true ∧ f.take 240 = padTo 240 payload ∧ flitField f 246 2 = seq ∧ flitField f 248 2 = ack) ∧
  ∀ (f : List Byte) (x : Fin 240) (b : Fin 8), flitGood f = true →
    flitGood (f.set x ((f.getD x 0) ^^^ BitVec.twoPow 8 b)) = false

/-! ### Errors and repair -/

/-- Die-to-die links (R30, R66, R575 to R578, R587, R588): the flit that crosses next is delivered when it is good
and the one expected, which ends its retries and moves the expected sequence on; a bad one, or one past it, asks once for a retry
from the one expected; a retry is counted and the sender goes back to the flit named, and after RETRY_MAX in a row the direction is
retrained; a retrain that ends leaves its end up and the sender at the oldest flit it keeps, one that runs 20 µs is a fault of the port or fails it; a spare wire in use is refused with code 6, a
free one is put to use, and the end of a substitution shows its result and the event; a wire's measurement is reported and,
with a margin below the limit, raises the event. Where a flit's control bytes hold its fields is the model's choice (log 123). -/
def Obligations.DieToDieLinks : Prop :=
  ∀ (s : State) (m : Master) (mer ue : Bool) (p : Fin 64) (v : Word) (wire : Fin 340) (margin : Fin 65536)
    (good below : Bool) (flit : List Byte), s.core.live = true →
    let k := s.core
    let i := shnDir mer p
    let w := (shnAt mer p).1
    let x := (shnAt mer p).2
    (∀ f k0, k.crossingFlit i = some (f, k0) → p.val < k.xPorts → k.portFailed p = false → k.fenced (p / 8) = false →
      k.xbar.retrain.get i = 0 →
      let k1 := k0.onLink fun x => { x with flitOut := x.flitOut.set i ((f.seq + 1) % 65536) }
      let want := k.link.flitWant.get i
      let ask := if k.link.retryAsked.get i ≠ 0 then k1 else
        k1.onLink fun x => { x with retryAsked := x.retryAsked.set i (want + 1) }
      let taken := k1.flitTaken { f with seq := want, ack := flitField flit 248 2 }
      Completes (.flitReceive mer p false []) s ask ∧
      (flit ≠ [] → flitGood flit = false → Completes (.flitReceive mer p good flit) s ask) ∧
      (flit ≠ [] → flitField flit 246 2 < 65536 → (want + 65536 - flitField flit 246 2) % 65536 ≥ 32768 →
        Completes (.flitReceive mer p good flit) s ask) ∧
      (f.bad = false → f.seq = want → Completes (.flitReceive mer p true []) s (k1.flitTaken f)) ∧
      (flit ≠ [] → flitGood flit = true → flitField flit 246 2 = want →
        Completes (.flitReceive mer p good flit) s taken ∧
          taken.link.flitWant.get i = (want + 1) % 65536 ∧ taken.link.flitAck.get i = flitField flit 248 2 ∧
          taken.link.retries.get i = 0 ∧ taken.link.retryAsked.get i = 0 ∧ taken.xbar = k.xbar ∧
          taken.io = (if mer = false ∧ k.link.retries.get i ≠ 0 then k.ceFound (dw (p / 8)) 0xC0 0 15 else k).io)) ∧
    (k.link.retryAsked.get i = 0 → Completes (.flitRetryRequest mer p ue) s k) ∧
    (k.link.retryAsked.get i ≠ 0 →
      (k.shnRd mer p R.M_SHN_CFG_RETRY_MAX R.SHN_CFG_RETRY_MAX ≤ k.link.retries.get i →
        Completes (.flitRetryRequest mer p ue) s (k.retrainStart p (b2n mer))) ∧
      (k.link.retries.get i < k.shnRd mer p R.M_SHN_CFG_RETRY_MAX R.SHN_CFG_RETRY_MAX →
        let named := k.link.retryAsked.get i - 1
        let again := k.flitsAgain i named
        let resend (k : Core) : Core := ((k.onLink fun x => { x with
            flitOut := x.flitOut.set i named
            retries := x.retries.set i (x.retries.get i + 1)
            retryAsked := x.retryAsked.set i 0 }).bump (if mer then R.M_SHN_RETRY_CNT else R.SHN_RETRY_CNT) w x 0
          again).xcount 5 p again
        (ue = false ∨ mer = true → Completes (.flitRetryRequest mer p ue) s (resend k)) ∧
        (mer = false → Completes (.flitRetryRequest mer p true) s
          (resend ((k.ueFound 0 2).onLink fun x => { x with
            flits := x.flits.map fun f => if f.dir = i ∧ f.seq = named then { f with bad := true } else f }))))) ∧
    (k.xbar.retrain.get i ≠ 0 →
      (p.val ∉ k.xbar.faulty →
        Completes (.retrainComplete mer p) s
          (((k.onX fun x => { x with retrain := x.retrain.set i 0 }).flitsAnew i).shnWr mer p R.M_SHN_STATUS_STATE R.SHN_STATUS_STATE 2)) ∧
      (k.xbar.retrain.get i + 20000 ≤ k.time.now + 1 →
        (k.fenced (p / 8) = true → Completes (.retrainTimeout mer p) s k) ∧
        (k.fenced (p / 8) = false → p.val ∈ k.xbar.faulty → Completes (.retrainTimeout mer p) s (k.portFail p)) ∧
        (k.fenced (p / 8) = false → p.val ∉ k.xbar.faulty → Completes (.retrainTimeout mer p) s (k.portFault p)))) ∧
    (Serves s m w (shnPage mer p) 0x110 true → mer = false → k.link.wireSubs = [] →
      let k1 := ((k.putFld m R.SHN_SPARE_CMD_BUNDLE w x 0 v.toNat 0 4).putFld m R.SHN_SPARE_CMD_WIRE w x 0 v.toNat 0 63).putFld m
        R.SHN_SPARE_CMD_SPARE w x 0 v.toNat 0 3
      bit (k1.rd R.SHN_SPARE_STAT_FREE w x 0) (4 * k1.rd R.SHN_SPARE_CMD_BUNDLE w x 0 + k1.rd R.SHN_SPARE_CMD_SPARE w x 0) = 1 →
        Completes (.shnSpareGo m mer p v) s
          (((k1.wr R.SHN_SPARE_STAT_STATE w x 0 2).wr R.SHN_SPARE_STAT_CODE w x 0 6).shnRaise mer p 1)) ∧
    (Serves s m w (shnPage mer p) 0x110 true → mer = false → k.link.wireSubs = [] → k.xbar.retrain.get i = 0 →
      k.portFailed p = false →
      let k1 := ((k.putFld m R.SHN_SPARE_CMD_BUNDLE w x 0 v.toNat 0 4).putFld m R.SHN_SPARE_CMD_WIRE w x 0 v.toNat 0 63).putFld m
        R.SHN_SPARE_CMD_SPARE w x 0 v.toNat 0 3
      let used := k1.rd R.SHN_SPARE_STAT_FREE w x 0
      let place := 4 * k1.rd R.SHN_SPARE_CMD_BUNDLE w x 0 + k1.rd R.SHN_SPARE_CMD_SPARE w x 0
      bit used place = 0 →
        Completes (.shnSpareGo m mer p v) s
          ((((k1.wr R.SHN_SPARE_STAT_STATE w x 0 1).wr R.SHN_SPARE_STAT_CODE w x 0 0).wr R.SHN_SPARE_STAT_FREE w x 0
            (used + 2 ^ place)).onLink fun y => { y with wireSubs := [⟨mer, p, k1.rd R.SHN_SPARE_CMD_BUNDLE w x 0,
              k1.rd R.SHN_SPARE_CMD_WIRE w x 0, k1.rd R.SHN_SPARE_CMD_SPARE w x 0⟩] })) ∧
    (∀ y, k.link.wireSubs.find? (fun y => y.meridian == mer && y.port == p.val) = some y →
      ∃ k' : Core, Completes (.shnSpareComplete mer p true) s (k'.shnRaise mer p 1) ∧ k'.link.wireSubs = k.link.wireSubs.erase y ∧
        k'.buf = k.buf ∧ k'.xbar = k.xbar) ∧
    (p.val < k.xPorts →
      let shown := (k.tw (if mer then T.M_SHN_WIRE_MARGIN else T.SHN_WIRE_MARGIN) w x wire margin).tw
        (if mer then T.M_SHN_WIRE_ERRORS else T.SHN_WIRE_ERRORS) w x wire v.toNat
      Completes (.wireMarginBelowLimit mer p wire margin v below) s (if below then shown.shnRaise mer p 2 else shown))

/-- Scrubbing, repair, self-test and the fence (R66, R570, R590 to R601): a pass that may not start is refused with its reason
and changes nothing besides; one that starts stands at its first unit; a good unit is counted and the pass moves on, and the
last one ends it with the event; an aborted pass ends at its next unit; a lost slot or word whose peer cannot help is counted
as not repaired; a self-test in progress refuses another; a die is fenced once. -/
def Obligations.ScrubRepairAndFence : Prop :=
  ∀ (s : State) (m : Master) (w : Fin 9) (d : Fin 8) (v : Word) (key : Bool) (own : Option (Fin 512)) (a b c e : Fin 65536),
    s.core.live = true →
    let k := s.core
    let cls := k.ras' w R.M_RAS_SCRUB_CFG_CLASS R.RAS_SCRUB_CFG_CLASS
    let inst := k.ras' w R.M_RAS_SCRUB_CFG_INST R.RAS_SCRUB_CFG_INST
    let start := k.ras' w R.M_RAS_SCRUB_START R.RAS_SCRUB_START
    let last := k.ras' w R.M_RAS_SCRUB_END R.RAS_SCRUB_END
    (Serves s m w 0xC1 0x10C true →
      (∀ r, k.scrubReason w cls inst start last = r → r ≠ 0 →
        Completes (.scrubGo m w) s
          ((k.rasWr w R.M_RAS_SCRUB_STAT_STATE R.RAS_SCRUB_STAT_STATE 3).rasWr w R.M_RAS_SCRUB_STAT_REASON
            R.RAS_SCRUB_STAT_REASON r)) ∧
      (k.scrubReason w cls inst start last = 0 →
        ∃ k', Completes (.scrubGo m w) s k' ∧
          k'.ras.scrubs = k.ras.scrubs ++ [⟨w, cls, inst, k.rd R.RAS_SCRUB_CFG_MODE w 0 0, start, last, false⟩] ∧
          k'.io.ents = k.io.ents ∧ k'.tables = k.tables) ∧
      Completes (.scrubAbort m w) s
        (k.onRas fun x => { x with scrubs := x.scrubs.map fun y => if y.w = w.val then { y with abort := true } else y })) ∧
    (∀ p, k.ras.scrubs.find? (·.w == w.val) = some p → w.val = 0 ∨ k.fenced (w - 1) = false →
      (p.abort = true →
        Completes (.scrubUnit w .good key own a b) s
          (((k.onRas fun x => { x with scrubs := x.scrubs.filter (·.w != w.val) }).wr R.RAS_SCRUB_STAT_STATE w 0 0 3).wr
            R.RAS_SCRUB_STAT_REASON w 0 0 0)) ∧
      (p.abort = false → p.cursor < p.last →
        Completes (.scrubUnit w .good key own a b) s
          (((k.bump R.RAS_SCRUB_READ w 0 0 1).wr R.RAS_SCRUB_STAT_CURSOR w 0 0 (p.cursor + 1)).onRas fun x => { x with
            scrubs := x.scrubs.map fun y => if y.w = w.val then { y with cursor := p.cursor + 1 } else y })) ∧
      (p.abort = false → p.last ≤ p.cursor →
        Completes (.scrubUnit w .good key own a b) s
          (((((k.bump R.RAS_SCRUB_READ w 0 0 1).wr R.RAS_SCRUB_STAT_CURSOR w 0 0 (p.cursor + 1)).onRas fun x => { x with
            scrubs := x.scrubs.filter (·.w != w.val) }).wr R.RAS_SCRUB_STAT_STATE w 0 0 2).raise w 0xC0 0))) ∧
    (∀ r, k.tables.repairs.find? (·.die == d.val) = some r →
      let k1 := { k with tables := { k.tables with repairs := k.tables.repairs.erase r } }
      Completes (.catalogueRepair d true) s (k1.unrepaired d) ∧
      ∀ peer, k.peerOf d = some peer →
        Completes (.catalogueRepair d false) s
          (((k.peerSends d peer r.idx r.key).foldl (fun k e => k.repairInsert d e) k1).repaired d r.pass)) ∧
    (∀ r, k.tables.prefixAsks.find? (·.die == d.val) = some r →
      Completes (.prefixRepair d true) s
        ({ k with tables := { k.tables with prefixAsks := k.tables.prefixAsks.erase r } }.unrepaired d) ∧
      ∀ peer, k.peerOf d = some peer →
        (∀ x ∈ k.tables.lpm, x.die = peer → x.ue = false) →
        ∃ k' : Core, Completes (.prefixRepair d false) s (k'.repaired d r.pass) ∧
          ∀ x ∈ k'.tables.lpm, x.die = d.val → x.v6 = r.v6 → x.vrf = r.vrf → x.addr = r.addr → x.len = r.len → x.ue = false) ∧
    (Serves s m w 0xC2 0x100 true →
      let k1 := (k.rasWr w R.M_RAS_BIST_CMD_CLASS R.RAS_BIST_CMD_CLASS (v.toNat / 2 ^ 24 % 16)).rasWr w R.M_RAS_BIST_CMD_INST
        R.RAS_BIST_CMD_INST (v.toNat / 2 ^ 16 % 32)
      (∀ r, k.bistCode w = r → r ≠ 0 →
        let k2 := k1.rasWr w R.M_RAS_BIST_STAT_CODE R.RAS_BIST_STAT_CODE r
        Completes (.bistGo m w v) s
          (if k.ras.bists.any (·.w == w.val) then k2
            else k2.rasWr w R.M_RAS_BIST_STAT_STATE R.RAS_BIST_STAT_STATE 2)) ∧
      (k.bistCode w = 0 →
        Completes (.bistGo m w v) s
          (((k1.rasWr w R.M_RAS_BIST_STAT_CODE R.RAS_BIST_STAT_CODE 0).rasWr w R.M_RAS_BIST_STAT_STATE R.RAS_BIST_STAT_STATE
            1).onRas fun x => { x with bists := x.bists ++ [⟨w, v.toNat / 2 ^ 24 % 16, v.toNat / 2 ^ 16 % 32⟩] }))) ∧
    (∀ y, k.ras.bists.find? (·.w == w.val) = some y → w.val ≠ 0 →
      ∃ k' : Core, Completes (.bistComplete w a b c e) s (k'.raise w 0xC0 4) ∧
        k'.ras.bists = k.ras.bists.filter (·.w != w.val) ∧
        k'.tables = ((k.onRas fun x => { x with bists := x.bists.filter (·.w != w.val) }).zeroMemory (w - 1) y.cls y.inst).tables) ∧
    (k.fenced d = true → Completes (.dieFatalError d) s k) ∧
    (k.populated d = true → k.fenced d = false → Completes (.dieFatalError d) s (k.fenceDie d))

/-! ### The memory tier -/

/-- Regions and devices (R609 to R616): EN = 1 of a region that fits starts its commit, and one that does not fit is discarded
with CFG_ERR; the end of the commit makes the region active; EN = 0 returns its state to 0; a refill puts each budget in force
and lets the queues that spill and the deep commands that waited for it go on; a request unanswered for CPL_TMO_US is counted and ends
in error, and LOSS_TMO of them in a row lose the device; the loss of a port is shown, counted and raised; a restart with an enabled region is refused. A write of
region 0 by a master other than the MP is an access error (R624). -/
def Obligations.MemoryTier : Prop :=
  ∀ (s : State) (m : Master) (r : Fin 4) (p : Fin 2) (d : Fin 9) (v : Word) (units : Fin 4097) (fast wide : Bool),
    s.core.live = true →
    let k := s.core
    let port := v.toNat / 2 ^ 16 % 2
    let budget := if r.val = 0 then 50 else v.toNat % 2 ^ 11
    let off := 0x100 + 32 * r.val
    (Serves s m 0 0x93 off true → r.val = 0 → m ≠ .mp →
      Completes (.cxlRegionEnable m r v) s (k.accErr 0 0x93 m off) ∧
      Completes (.cxlRegionDisable m r v) s (k.accErr 0 0x93 m off)) ∧
    (Serves s m 0 0x93 off true → r.val ≠ 0 ∨ m = .mp → k.reg R.CXL_REG_EN r = 0 →
      (k.regionFits r port budget = true →
        Completes (.cxlRegionEnable m r v) s
          ((((k.wr R.CXL_REG_EN 0 0 r 1).wr R.CXL_REG_PORT 0 0 r port).wr R.CXL_REG_BUDGET_GBPS 0 0 r budget).onCxl fun x =>
            { x with
              committing := x.committing ++ [r.val]
              deepStuck := (x.deepStuck ++ if r.val = 1 then k.dieList.filter fun d =>
                k.rd R.CAT_DEEP_CFG_EN (dw d) 0 0 == 1 && !k.deepFits d else []).eraseDups })) ∧
      (k.regionFits r port budget = false → Completes (.cxlRegionEnable m r v) s (k.cfgErr 0 0x93 m off))) ∧
    (Serves s m 0 0x93 off true → r.val ≠ 0 ∨ m = .mp → k.reg R.CXL_REG_EN r = 1 → port = k.reg R.CXL_REG_PORT r →
      (r.val = 2 → (∃ x ∈ k.dieList, k.spillCellsOf x ≠ 0) →
        Completes (.cxlRegionDisable m r v) s (k.cfgErr 0 0x93 m off)) ∧
      (r.val ≠ 2 ∨ (∀ x ∈ k.dieList, k.spillCellsOf x = 0) →
        let k1 := k.wr R.CXL_REG_PORT 0 0 r port
        let k2 := if r.val = 0 ∨ v.toNat % 2 ^ 11 = k.regBudget r then k1
          else if k.regionFits r port (v.toNat % 2 ^ 11) then k1.wr R.CXL_REG_BUDGET_GBPS 0 0 r (v.toNat % 2 ^ 11)
          else k1.cfgErr 0 0x93 m off
        Completes (.cxlRegionDisable m r v) s
          ((((k2.wr R.CXL_REG_EN 0 0 r 0).wr R.CXL_REG_COMMITTED 0 0 r 0).wr R.CXL_REG_STATE 0 0 r 0).onCxl fun x => { x with
            committing := x.committing.filter (· != r.val) }))) ∧
    (r.val ∈ k.cxl.committing →
      Completes (.regionCommitComplete r) s
        (((k.wr R.CXL_REG_COMMITTED 0 0 r 1).wr R.CXL_REG_STATE 0 0 r 1).onCxl fun x => { x with
          committing := x.committing.filter (· != r.val) })) ∧
    ((∀ x ∈ k.dieList, k.listed T.BUF_Q_SPILLING (dw x) = []) → k.tables.cmds = [] →
      ∃ k', Completes .cxlBudgetRefill s k' ∧ k'.io = k.io ∧ k'.buf = k.buf ∧ k'.tables = k.tables ∧
        k'.cxl.lines = k.cxl.lines ∧ ∀ x : Fin 4,
          k'.cxl.taken.get x = k.cxl.taken.get x - 2 * k.regBudget x ∧ k'.cxl.budget.get x = k.regBudget x) ∧
    (k.requestSince r d = none → Completes (.cxlRequestTimeout r d) s k) ∧
    (∀ t, k.requestSince r d = some t →
      k.time.now < t + k.rd R.CXL_PORT_CFG_CPL_TMO_US 0 (k.regionPort r) 0 * 1000 → Completes (.cxlRequestTimeout r d) s k) ∧
    (∀ t, k.requestSince r d = some t → t + k.rd R.CXL_PORT_CFG_CPL_TMO_US 0 (k.regionPort r) 0 * 1000 ≤ k.time.now →
      k.reg R.CXL_REG_EN r = 1 → k.cxlUp (k.regionPort r) = true →
      let q := k.regionPort r
      let n := k.cxl.timeouts.get q + 1
      let k1 := ((k.bump R.CXL_PORT_CPL_TMO_CNT 0 q 0 1).requestError r d).onCxl fun x => { x with timeouts := x.timeouts.set q n }
      (n < k.rd R.CXL_PORT_CFG_LOSS_TMO 0 q 0 → Completes (.cxlRequestTimeout r d) s k1) ∧
      (k.rd R.CXL_PORT_CFG_LOSS_TMO 0 q 0 ≤ n → Completes (.cxlRequestTimeout r d) s (k1.deviceLost q))) ∧
    (k.rd R.CXL_PORT_STATUS_STATE 0 p 0 = 3 → (∀ x : Fin 4, k.reg R.CXL_REG_EN x = 0) →
      ∃ k', Completes (.cxlDeviceLost p) s k' ∧ k'.cxl.timeouts = k.cxl.timeouts.set p 0 ∧ k'.buf = k.buf) ∧
    (Serves s m 0 (0x91 + p) 0x10C true →
      ((∃ x : Fin 4, k.reg R.CXL_REG_EN x = 1 ∧ k.reg R.CXL_REG_PORT x = p.val) →
        Completes (.cxlPortRestart m p) s (k.cfgErr 0 (0x91 + p) m 0x10C)) ∧
      ((∀ x : Fin 4, k.reg R.CXL_REG_EN x = 0) →
        Completes (.cxlPortRestart m p) s
          ((k.wr R.CXL_PORT_STATUS_STATE 0 p 0 1).onCxl fun x => { x with
            lines := x.lines.filter fun e => e.1 / 2 ^ 36 != p.val
            poison := x.poison.filter fun e => e / 2 ^ 36 != p.val
            restarting := x.restarting.filter (· != p.val) ++ [p.val]
            timeouts := x.timeouts.set p 0 }))) ∧
    (p.val ∈ k.cxl.restarting → Completes (.cxlRestartComplete p units fast wide) s (k.enumerated p units fast wide))

/-! ### Power and ageing -/

/-- Power (R626, R627, R631, R640 to R643, R674, R679): the external throttle pin is shown, and from step 3 of the start its
event follows its level; a
droop stretches a die's clock once and its end clears the mark; a voltage moves at most 10 mV toward its setpoint; a regulator
that misses its third read in a row raises the fault; an epoch begins at a whole microsecond of time of day and leaves the buffers
and the tables as they were, and a sensor at 120 °C trips the part at it; a gain becomes the quotient of the two currents, and
stays where no regulator sets the rail. That the command brings the clock to that microsecond is the model's choice (log 131). -/
def Obligations.PowerCommands : Prop :=
  ∀ (s : State) (rs : List Reading) (d : Fin 8) (w : Fin 9) (n : Nat), s.core.live = true →
    let k := s.core
    let pin (on : Bool) : Core := { k with pack := { k.pack with ext := on } }.wr R.PAG_PINS_EXT_THROT 0 0 0 (b2n on)
    let volt := pick w R.M_PMU_VOLT_CORE_MV R.PMU_VOLT_CORE_MV
    let mine := k.pmu.board.zipIdx.filter fun x => brdWin x.1 == w.val
    let tripped := k.units.any fun x => decide (1200 ≤ hottest (rs.getD x noReading))
    (tripped = false →
      ∃ k', Completes (.pmuEpoch rs) s k' ∧ k'.buf = k.buf ∧ k'.tables = k.tables ∧ k'.foc = k.foc ∧
        k'.time = (k.pass k.epochAhead).time ∧ k'.time.tod % 65536000 = 0) ∧
    (tripped = true →
      ∃ t, exec (.pmuEpoch rs) s = .next t ∧ t.fuse = { s.fuse with trip := true } ∧ t.core.pack.tripped = true ∧
        t.core.live = false ∧ t.core.rd R.PAG_PINS_TRIP 0 0 0 = 1) ∧
    (k.rd R.PAG_BOOT_PROG_STEP 0 0 0 < 3 → Completes .extThrotAssert s (pin true) ∧ Completes .extThrotDeassert s (pin false)) ∧
    (3 ≤ k.rd R.PAG_BOOT_PROG_STEP 0 0 0 →
      Completes .extThrotAssert s
        (({ pin true with pmu := { k.pmu with ext := true } }.wr R.PMU_GOV_STATUS_EXT 0 0 0 1).onIo
          (·.raiseLevel k.stamp 0 0x80 2)) ∧
      Completes .extThrotDeassert s
        (({ pin false with pmu := { k.pmu with ext := false } }.wr R.PMU_GOV_STATUS_EXT 0 0 0 0).onIo (·.lowerLevel 0 0x80 2))) ∧
    (k.populated d = true → (k.unit (dw d)).stretch = 0 →
      Completes (.droopDetect d) s
        (((k.noteStalls d).putUnit { k.unit (dw d) with stretch := k.time.now + 1, drooped := true }).wr
          R.PMU_STATUS_REASONS (dw d) 0 0
          (k.rd R.PMU_STATUS_REASONS (dw d) 0 0 ||| 16))) ∧
    ((k.unit (dw d)).stretch ≠ 0 → Completes (.droopDetect d) s k) ∧
    (∃ k' : Core, Completes (.droopStretchEnd d) s k' ∧ (k'.unit (dw d)).stretch = 0 ∧
      bit (k'.rd R.PMU_STATUS_REASONS (dw d) 0 0) 4 = 0) ∧
    ((k.unit w).trimmed = true → k.rd volt w 0 0 < k.railTarget w →
      Completes (.voltageStep w) s (k.wr volt w 0 0 (min (k.railTarget w) (k.rd volt w 0 0 + 10)))) ∧
    ((k.unit w).trimmed = true → k.railTarget w ≤ k.rd volt w 0 0 →
      Completes (.voltageStep w) s (k.wr volt w 0 0 (max (k.railTarget w) (k.rd volt w 0 0 - 10)))) ∧
    ((k.unit w).trimmed = false → Completes (.voltageStep w) s k) ∧
    (∀ e, k.pmu.board = [e] → k.pmu.missed.get 0 = 2 →
      Completes (.pmbusPoll [none]) s
        ((({ k with pmu := { k.pmu with missed := k.pmu.missed.set 0 3 } }.raise 0 0x80 3)).railsSeen)) ∧
    (mine = [] ∨ (k.unit w).trimmed = false → Completes (.senseGainCorrect w n) s k) ∧
    (mine ≠ [] → (k.unit w).trimmed = true → 0 < n →
      Completes (.senseGainCorrect w n) s (k.putUnit { k.unit w with
        gain := mine.foldl (fun a x => a + (k.pmu.rails.get x.2 - 1) % 65536) 0 * 1000 / n }))

/-- Ageing (R649, R652, R656, R659): a measurement that is due is made and one that is not changes nothing; a command asks for
one; the measurement a reset interrupted is repeated after its hour; every 24 hours the life accounting goes to the record; and
what a step measures, it writes to the flash alone besides the core. -/
def Obligations.AgeingCommands : Prop :=
  ∀ (s : State) (m : Master) (w : Fin 9) (as : List AgeReading),
    let k := s.core
    let page := if w.val = 0 then 0x82 else 0xC9
    let cmd := pick w R.M_PMU_AGE_CMD R.PMU_AGE_CMD
    (Serves s m w page 0x108 true → Completes (.ageMeasureCmd m w) s (k.wr cmd w 0 0 1)) ∧
    (k.firmware = true → w.val ∈ k.units → k.rd cmd w 0 0 = 1 → k.pmu.retryAt = 0 →
      exec (.ageingMeasure as) s = .next (s.measureAge as)) ∧
    (k.firmware = false → Completes (.ageingMeasure as) s k ∧ Completes (.ageMeasureRetry as) s k ∧
      Completes .lifeRecordWrite s k) ∧
    (k.firmware = true → k.pmu.retryAt ≠ 0 → k.pmu.retryAt ≤ k.time.now + 1 →
      exec (.ageMeasureRetry as) s = .next (s.measureAge as)) ∧
    ((s.measureAge as).fuse = s.fuse ∧ (s.measureAge as).sec = s.sec ∧ (s.measureAge as).pending = s.pending ∧
      (s.measureAge as).core.pmu.retryAt = 0) ∧
    (∀ es, k.firmware = true → k.pmu.lifeAt + 86400000000000 ≤ k.time.now → readAge s.flash = some es →
      exec .lifeRecordWrite s = .next { s with
        flash := writeAge s.flash (k.lifeEntries es)
        core := { k with pmu := { k.pmu with lifeAt := k.time.now } } })

/-! ### Resets and start-up -/

/-- Power, resets and start (R671, R679, R683, R685, R686, R688, R693 to R695): PWR_GOOD starts the part unless SYS_RST_N is
low; each reset of the part leaves fuses and flash, zeroes the measurements and records its cause; the watchdog drives FATAL_N
while it resets the MP; a step of the start that the Meridian die fails stops it there; PAG_RESET is PF0's and the MP's with
the key; a trip is recorded and stops the clocks. -/
def Obligations.ResetsAndStart : Prop :=
  ∀ (s : State) (m : Master) (key : BitVec 16) (perst mpBit : Bool) (x : StartFacts) (why : MpCause) (cause : Nat),
    let k := s.core
    let up := s.onPack fun p => { p with power := true, perst }
    let up1 := { up with core := up.core.wr R.PAG_PINS_PERST 0 0 0 (b2n perst) }
    (k.pack.power = false → k.pack.sysRst = false →
      exec (.powerUp perst x) s = .next ((up1.coldRelease x).start x)) ∧
    (k.pack.power = false → k.pack.sysRst = true → exec (.powerUp perst x) s = .next up1) ∧
    (k.pack.power = true → exec (.powerUp perst x) s = .next s) ∧
    (x.meridianFails = 2 → s.start x = { s with
      core := (k.wr R.SEC_STATUS_DEBUG_ACTIVE 0 0 0 (b2n k.pack.debugOn)).stopAt 2 4 }) ∧
    (k.pack.power = true →
      exec .pwrGoodLoss s = .next ((s.partReset 1).onPack fun p => { p with power := false, debugOn := false })) ∧
    (k.pack.power = true → k.pack.sysRst = false →
      exec .sysRstAssert s = .next ((s.partReset 2).onPack fun p => { p with sysRst := true, debugOn := false })) ∧
    (k.pack.power = true → k.pack.sysRst = true →
      exec (.sysRstRelease x) s = .next (((s.onPack fun p => { p with sysRst := false }).coldRelease x).start x)) ∧
    (Serves s m 0 0 0x200 true →
      (m = .mp ∨ m = .pf 0 → key = 0xA5C3 →
        exec (.warmReset (some (m, key, mpBit)) x) s = .next (s.warm 3 x) ∧
        exec (.mpReset (some (m, key)) why) s = .next ({ s with core := k.mpReset 0 }.mpRestart)) ∧
      (m = .mp ∨ m = .pf 0 → key ≠ 0xA5C3 →
        Completes (.warmReset (some (m, key, mpBit)) x) s (k.cfgErr 0 0 m 0x200) ∧
        Completes (.mpReset (some (m, key)) why) s (k.cfgErr 0 0 m 0x200)) ∧
      (m ≠ .mp → m ≠ .pf 0 → Completes (.warmReset (some (m, key, mpBit)) x) s (k.accErr 0 0 m 0x200) ∧
        Completes (.mpReset (some (m, key)) why) s (k.accErr 0 0 m 0x200))) ∧
    (k.live = true →
      exec (.warmReset none x) s = .next (s.warm 4 x) ∧
      exec (.mpReset none .sram) s = .next ({ s with core := (k.ueFound 0 0).mpReset 2 }.mpRestart) ∧
      exec (.mpReset none .watchdog) s = .next ({ s with core := k.watchdogHold.mpReset 1 }.mpRestart) ∧
      (k.regionOn 0 = true → k.tokens 0 ≠ 0 →
        exec (.mpReset none .poison) s = .next ({ s with core := (k.firmwareRead true).mpReset 3 }.mpRestart)) ∧
      k.watchdogHold.rd R.PAG_PINS_FATAL 0 0 0 = 1 ∧
      exec .thermalTrip s = .next { s with
        fuse := { s.fuse with trip := true }
        core := { ((k.wr R.PAG_PINS_TRIP 0 0 0 1).emit (.pin "THERM_TRIP_N" true)) with
          pack := { k.pack with tripped := true, hostUp := false } } }) ∧
    ((s.partReset cause).sec = .zero ∧ (s.partReset cause).fuse = s.fuse ∧ (s.partReset cause).flash = s.flash ∧
      (s.partReset cause).pending = s.pending ∧ (cause < 8 → (s.partReset cause).core.rd R.PAG_RESET_CAUSE_CAUSE 0 0 0 = cause))

/-- The host port (R686, R735, R746): a function-level reset disables the function's vectors and queues, drops its waiting
copies and ends its locks and pages; a reset of the port does so for the four functions, and PERST# holds the link down;
after its end the link trains once the start is past step 3. -/
def Obligations.HostPort : Prop :=
  ∀ (s : State) (f : Fin 4), s.core.live = true →
    let k := s.core
    let down := { (k.wr R.PAG_PINS_PERST 0 0 0 1) with pack := { k.pack with perst := true, hostUp := false } }
    let rel := { (k.wr R.PAG_PINS_PERST 0 0 0 0) with pack := { k.pack with perst := false } }
    (∃ k', Completes (.functionLevelReset f) s k' ∧ k'.hostq.rx = k.hostq.rx.filter (fun c => c.pf != f.val) ∧
      (∀ q : Fin 20, k'.rd R.HQ_CFG_EN 0 f q = 0) ∧ k'.io.pba = k.io.pba.filter (fun x => x.1 != f.val) ∧ k'.buf = k.buf ∧ k'.pack = k.pack) ∧
    Completes (.hostPortReset false) s ([0, 1, 2, 3].foldl (fun k f => k.flr f) k) ∧
    Completes (.hostPortReset true) s ([0, 1, 2, 3].foldl (fun k f => k.flr f) down) ∧
    (k.rd R.PAG_BOOT_PROG_STEP 0 0 0 < 3 → Completes .perstDeassert s rel) ∧
    (3 ≤ k.rd R.PAG_BOOT_PROG_STEP 0 0 0 → Completes .perstDeassert s rel.hostLink ∧ rel.hostLink.pack.hostUp = true)

/-! ### Measurements and counters -/

/-- MEAS_EXTEND by the MP appends the 128 bytes of SEC_MEAS_EXT to the log while it has room and extends the accumulator; from
another master it is an access error (R722, R729). A counter that is not enabled does not count; BAR2 writes do nothing; a read
of a counter its function may not read gives zero; CNT_PSTAT_CLR with GO zeroes the port's statistics (R753, R758, R759,
R762). -/
def Obligations.MeasurementsAndCounters : Prop :=
  ∀ (s : State) (m : Master) (w : Fin 9) (c : Fin 64) (n : Fin 17) (f : Fin 4) (a : BitVec 16) (v : Word) (d : Fin 8),
    s.core.live = true →
    let k := s.core
    let e := (List.range 32).flatMap fun j => leOf (k.rd R.SEC_MEAS_EXT 0 0 j) 4
    (Serves s .mp 0 0xA0 0x200 true →
      (s.sec.log.length < 2048 →
        exec (.measExtend .mp) s = .next { s with
          sec := { acc := shake64 (s.sec.acc ++ e), log := s.sec.log ++ [e] }
          core := k.wr R.SEC_LOG_COUNT 0 0 0 (k.rd R.SEC_LOG_COUNT 0 0 0 + 1) }) ∧
      (2048 ≤ s.sec.log.length →
        ∃ t, exec (.measExtend .mp) s = .next t ∧ t.sec.log = s.sec.log ∧ t.sec.acc = shake64 (s.sec.acc ++ e))) ∧
    (Serves s m 0 0xA0 0x200 true → m ≠ .mp → Completes (.measExtend m) s (k.accErr 0 0xA0 m 0x200)) ∧
    (k.cntOn w c = true → Completes (.counterWrap w c n) s (k.onIo (·.countInto k.stamp w c n))) ∧
    (k.cntOn w c = false → Completes (.counterWrap w c n) s k) ∧
    Completes (.userPageWrite f a v) s k ∧
    (k.pack.hostUp = true → s.fuse.userOff = true →
      Completes (.userPageRead f a) s (k.emit (.readData f (2 ^ 28 + a.toNat) 0))) ∧
    (k.pack.hostUp = true → a.toNat % 4096 = 0x200 + 4 * c.val → k.userMayRead s.fuse.userOff f (a.toNat / 4096) c = true →
      Completes (.userPageRead f a) s (k.emit (.readData f (2 ^ 28 + a.toNat) (k.cntCfg (a.toNat / 4096) c)))) ∧
    (Serves s m (dw d) 0xCD 0x100 true → bit v.toNat 31 = 1 →
      Completes (.pstatClear m d v) s
        ((k.wr R.CNT_PSTAT_CLR_PORT (dw d) 0 0 (bits v.toNat 7 0)).clearPstat d (bits v.toNat 7 0))) ∧
    (∀ (l i : Nat), i < 64 → (k.clearPstat d l).td T.CNT_PSTAT_VALUE (dw d) 0 (l * 64 + i) = 0)

/-! ### The whole machine -/

/-- One step takes the command at the front of the queue and is its meaning on the state with the rest of the queue; on an
empty queue a running part lets one nanosecond of its reference clock pass, corrected by the frequency in force and any slew,
and a part that does not run stays as it is (the second and third are the model's choice, log 2). -/
def Obligations.StepRunsFront : Prop :=
  (∀ (c : Instr) (rest : List Instr) (s : State), s.pending = c :: rest → step s = exec c { s with pending := rest }) ∧
  (∀ s : State, s.pending = [] → s.core.live = true → step s = .next { s with core := s.core.nanosecond }) ∧
  (∀ s : State, s.pending = [] → s.core.live = false → step s = .next s) ∧
  ∀ k : Core, (k.tables.lpmCmds = [] → k.nanosecond.io = k.io ∧ k.nanosecond.tables = k.tables) ∧ k.nanosecond.buf = k.buf ∧ k.time.now ≤ k.nanosecond.time.now ∧
    (k.freqAdj = 0 → k.time.todRem = 0 → k.time.todSrc.slew = 0 → 0 ≤ k.time.todSrc.slewRem →
      k.nanosecond.time.now = k.time.now + 1 ∧ k.nanosecond.time.tod = k.time.tod + 65536)

/-- Every command completes in every state, and none touches the queue: exec answers a next state, with the same commands
waiting. -/
def Obligations.EveryCommandCompletes : Prop :=
  ∀ (c : Instr) (s : State), ∃ t, exec c s = .next t ∧ t.pending = s.pending

/-- A part that does not run (without power, in cold reset, or with its clocks stopped by a thermal trip) is changed by no
command but those of its power, reset, host-port and throttle pins (R671, R679, R683, R692, R695). -/
def Obligations.StoppedPartStands : Prop :=
  ∀ (c : Instr) (s : State), s.core.live = false →
    (∃ perst x, c = .powerUp perst x) ∨ c = .pwrGoodLoss ∨ c = .sysRstAssert ∨ (∃ x, c = .sysRstRelease x) ∨
      c = .extThrotAssert ∨ c = .extThrotDeassert ∨ (∃ perst, c = .hostPortReset perst) ∨ c = .perstDeassert ∨ exec c s = .next s

/-- One-time programmable state only grows (R709 to R713): whatever step the block takes, the factory's fuses stay, no key slot
loses its VALID or REVOKED bit, no rollback counter falls, DEBUG_OFF and MATRIX_LOCK stay set, and a locked matrix stands. -/
def Obligations.FusesOnlyGrow : Prop :=
  ∀ s t : State, step s = .next t → Fuses.Grows s.fuse t.fuse

/-- The records of the block keep their form over every step (R696, R721, R722): the flash stays in canonical form, the
accumulator keeps 64 bytes, and the log at most 2,048 entries; and except in a step that resets the part (a write of
PAG_RESET among them), the log is extended at its end alone. -/
def Obligations.RecordsKeepTheirForm : Prop :=
  (∀ s t : State, step s = .next t →
    s.flash.wf = true → s.sec.acc.length = 64 → s.sec.log.length ≤ 2048 →
      t.flash.wf = true ∧ t.sec.acc.length = 64 ∧ t.sec.log.length ≤ 2048) ∧
  ∀ s t : State, step s = .next t →
    (∃ es, t.sec.log = s.sec.log ++ es) ∨ s.pending.head? = some .pwrGoodLoss ∨ s.pending.head? = some .sysRstAssert ∨
      (∃ by' x, s.pending.head? = some (.warmReset by' x)) ∨
      ∃ m a v more x, s.pending.head? = some (.registerWrite m a v more x) ∧ (m = .mp ∨ m = .pf 0) ∧
        (splitAddr a.toNat).1 = 0 ∧ (splitAddr a.toNat).2.1 = 0

/-- The state after reset (R683, R688, R709, R721): no command waits, the part has no power and is not running, the flash is
erased and in canonical form, the accumulator is 64 bytes of zeros and the log empty, no program step is done, no port die is
released, and time of day, phase and cycle number are 0. That the flash is erased and no fuse but the part's is blown is the
model's choice (log 1, 7). -/
def Obligations.ResetState : Prop :=
  State.reset.pending = [] ∧ State.reset.core.live = false ∧ State.reset.core.pack.power = false ∧
    State.reset.flash = [] ∧ State.reset.flash.wf = true ∧ State.reset.sec.acc = List.replicate 64 0 ∧
    State.reset.sec.log = [] ∧ State.reset.core.rd R.PAG_BOOT_PROG_STEP 0 0 0 = 0 ∧
    (∀ d : Fin 8, State.reset.core.released d = false) ∧ State.reset.core.time.tod = 0 ∧ State.reset.core.time.phase = 0 ∧
    State.reset.core.time.cycle = 0 ∧ State.reset.core.rd R.STB_CYC_LEN_LEN_NS 0 0 0 = 20000000 ∧
    State.reset.core.rd R.MER_CFG_REPLAY_MAX 0 0 0 = 4 ∧ (∀ d : Fin 8, State.reset.core.rd R.BUF_WDOG_CFG_MS (dw d) 0 0 = 100)
end

