-- ==== Sys2Proof/Laws/State.lean ====
section
/-!
SUPPORT. The frame laws of the state: what each shared update leaves as it was, one lemma a field, each true by the
definition of the update.
-/
namespace Sys2Proof.Machine

/-! ### Updates of the whole state -/

/-- On a part that runs, a core meaning changes the core as it says. -/
theorem State.onCore_live {s : State} (f : Core → Core) (h : s.core.live = true) :
    s.onCore f = { s with core := f s.core } := by simp [State.onCore, h]

/-- A part that does not run does nothing. -/
theorem State.onCore_dead {s : State} (f : Core → Core) (h : s.core.live = false) : s.onCore f = s := by
  simp [State.onCore, h]

/-- A core meaning leaves the pending field. -/
@[simp] theorem State.onCore_pending (s : State) (f : Core → Core) : (s.onCore f).pending = s.pending := by
  unfold State.onCore; split <;> rfl

/-- A register write leaves the pending field. -/
@[simp] theorem State.write_pending (s : State) (m : Master) (w page off : Nat) (f : Core → Core) :
    (s.write m w page off f).pending = s.pending := State.onCore_pending _ _

/-- A register read leaves the pending field. -/
@[simp] theorem State.read_pending (s : State) (m : Master) (w page off : Nat) (f : Core → Core) :
    (s.read m w page off f).pending = s.pending := State.onCore_pending _ _

/-- A core meaning leaves the fuse field. -/
@[simp] theorem State.onCore_fuse (s : State) (f : Core → Core) : (s.onCore f).fuse = s.fuse := by
  unfold State.onCore; split <;> rfl

/-- A register write leaves the fuse field. -/
@[simp] theorem State.write_fuse (s : State) (m : Master) (w page off : Nat) (f : Core → Core) :
    (s.write m w page off f).fuse = s.fuse := State.onCore_fuse _ _

/-- A register read leaves the fuse field. -/
@[simp] theorem State.read_fuse (s : State) (m : Master) (w page off : Nat) (f : Core → Core) :
    (s.read m w page off f).fuse = s.fuse := State.onCore_fuse _ _

/-- A core meaning leaves the sec field. -/
@[simp] theorem State.onCore_sec (s : State) (f : Core → Core) : (s.onCore f).sec = s.sec := by
  unfold State.onCore; split <;> rfl

/-- A register write leaves the sec field. -/
@[simp] theorem State.write_sec (s : State) (m : Master) (w page off : Nat) (f : Core → Core) :
    (s.write m w page off f).sec = s.sec := State.onCore_sec _ _

/-- A register read leaves the sec field. -/
@[simp] theorem State.read_sec (s : State) (m : Master) (w page off : Nat) (f : Core → Core) :
    (s.read m w page off f).sec = s.sec := State.onCore_sec _ _

/-- A core meaning leaves the flash field. -/
@[simp] theorem State.onCore_flash (s : State) (f : Core → Core) : (s.onCore f).flash = s.flash := by
  unfold State.onCore; split <;> rfl

/-- A register write leaves the flash field. -/
@[simp] theorem State.write_flash (s : State) (m : Master) (w page off : Nat) (f : Core → Core) :
    (s.write m w page off f).flash = s.flash := State.onCore_flash _ _

/-- A register read leaves the flash field. -/
@[simp] theorem State.read_flash (s : State) (m : Master) (w page off : Nat) (f : Core → Core) :
    (s.read m w page off f).flash = s.flash := State.onCore_flash _ _

/-- A served register write changes the core as it says. -/
theorem State.write_ok {s : State} {m : Master} {w page off : Nat} (f : Core → Core) (h : s.core.live = true)
    (hv : s.core.verdict m w page off true = .ok) : s.write m w page off f = { s with core := f s.core } := by
  simp [State.write, State.onCore, h, Core.writeAt, hv]

/-- A served register read changes the core as it says. -/
theorem State.read_ok {s : State} {m : Master} {w page off : Nat} (f : Core → Core) (h : s.core.live = true)
    (hv : s.core.verdict m w page off false = .ok) : s.read m w page off f = { s with core := f s.core } := by
  simp [State.read, State.onCore, h, Core.readAt, hv]

/-! ### Updates of the core -/

/-- A change of the register space leaves `part`. -/
@[simp] theorem Core.onIo_part (k : Core) (f : Io → Io) : (k.onIo f).part = k.part := rfl
/-- A change of the register space leaves `pack`. -/
@[simp] theorem Core.onIo_pack (k : Core) (f : Io → Io) : (k.onIo f).pack = k.pack := rfl
/-- A change of the register space leaves `time`. -/
@[simp] theorem Core.onIo_time (k : Core) (f : Io → Io) : (k.onIo f).time = k.time := rfl
/-- A change of the register space leaves `pipes`. -/
@[simp] theorem Core.onIo_pipes (k : Core) (f : Io → Io) : (k.onIo f).pipes = k.pipes := rfl
/-- A change of the register space leaves `tables`. -/
@[simp] theorem Core.onIo_tables (k : Core) (f : Io → Io) : (k.onIo f).tables = k.tables := rfl
/-- A change of the register space leaves `buf`. -/
@[simp] theorem Core.onIo_buf (k : Core) (f : Io → Io) : (k.onIo f).buf = k.buf := rfl
/-- A change of the register space leaves `xbar`. -/
@[simp] theorem Core.onIo_xbar (k : Core) (f : Io → Io) : (k.onIo f).xbar = k.xbar := rfl
/-- A change of the register space leaves `egr`. -/
@[simp] theorem Core.onIo_egr (k : Core) (f : Io → Io) : (k.onIo f).egr = k.egr := rfl
/-- A change of the register space leaves `foc`. -/
@[simp] theorem Core.onIo_foc (k : Core) (f : Io → Io) : (k.onIo f).foc = k.foc := rfl
/-- A change of the register space leaves `tele`. -/
@[simp] theorem Core.onIo_tele (k : Core) (f : Io → Io) : (k.onIo f).tele = k.tele := rfl
/-- A change of the register space leaves `hostq`. -/
@[simp] theorem Core.onIo_hostq (k : Core) (f : Io → Io) : (k.onIo f).hostq = k.hostq := rfl
/-- A change of the register space leaves `link`. -/
@[simp] theorem Core.onIo_link (k : Core) (f : Io → Io) : (k.onIo f).link = k.link := rfl
/-- A change of the register space leaves `ras`. -/
@[simp] theorem Core.onIo_ras (k : Core) (f : Io → Io) : (k.onIo f).ras = k.ras := rfl
/-- A change of the register space leaves `cxl`. -/
@[simp] theorem Core.onIo_cxl (k : Core) (f : Io → Io) : (k.onIo f).cxl = k.cxl := rfl
/-- A change of the register space leaves `pmu`. -/
@[simp] theorem Core.onIo_pmu (k : Core) (f : Io → Io) : (k.onIo f).pmu = k.pmu := rfl
/-- A change of the register space leaves `boot`. -/
@[simp] theorem Core.onIo_boot (k : Core) (f : Io → Io) : (k.onIo f).boot = k.boot := rfl
/-- A change of the register space leaves `mbx`. -/
@[simp] theorem Core.onIo_mbx (k : Core) (f : Io → Io) : (k.onIo f).mbx = k.mbx := rfl
/-- A change of the register space leaves `out`. -/
@[simp] theorem Core.onIo_out (k : Core) (f : Io → Io) : (k.onIo f).out = k.out := rfl
/-- A write of a register field leaves `part`. -/
@[simp] theorem Core.wr_part (k : Core) (f : Fld) (w p i v : Nat) : (k.wr f w p i v).part = k.part := rfl
/-- A write of a register field leaves `pack`. -/
@[simp] theorem Core.wr_pack (k : Core) (f : Fld) (w p i v : Nat) : (k.wr f w p i v).pack = k.pack := rfl
/-- A write of a register field leaves `time`. -/
@[simp] theorem Core.wr_time (k : Core) (f : Fld) (w p i v : Nat) : (k.wr f w p i v).time = k.time := rfl
/-- A write of a register field leaves `pipes`. -/
@[simp] theorem Core.wr_pipes (k : Core) (f : Fld) (w p i v : Nat) : (k.wr f w p i v).pipes = k.pipes := rfl
/-- A write of a register field leaves `tables`. -/
@[simp] theorem Core.wr_tables (k : Core) (f : Fld) (w p i v : Nat) : (k.wr f w p i v).tables = k.tables := rfl
/-- A write of a register field leaves `buf`. -/
@[simp] theorem Core.wr_buf (k : Core) (f : Fld) (w p i v : Nat) : (k.wr f w p i v).buf = k.buf := rfl
/-- A write of a register field leaves `xbar`. -/
@[simp] theorem Core.wr_xbar (k : Core) (f : Fld) (w p i v : Nat) : (k.wr f w p i v).xbar = k.xbar := rfl
/-- A write of a register field leaves `egr`. -/
@[simp] theorem Core.wr_egr (k : Core) (f : Fld) (w p i v : Nat) : (k.wr f w p i v).egr = k.egr := rfl
/-- A write of a register field leaves `foc`. -/
@[simp] theorem Core.wr_foc (k : Core) (f : Fld) (w p i v : Nat) : (k.wr f w p i v).foc = k.foc := rfl
/-- A write of a register field leaves `tele`. -/
@[simp] theorem Core.wr_tele (k : Core) (f : Fld) (w p i v : Nat) : (k.wr f w p i v).tele = k.tele := rfl
/-- A write of a register field leaves `hostq`. -/
@[simp] theorem Core.wr_hostq (k : Core) (f : Fld) (w p i v : Nat) : (k.wr f w p i v).hostq = k.hostq := rfl
/-- A write of a register field leaves `link`. -/
@[simp] theorem Core.wr_link (k : Core) (f : Fld) (w p i v : Nat) : (k.wr f w p i v).link = k.link := rfl
/-- A write of a register field leaves `ras`. -/
@[simp] theorem Core.wr_ras (k : Core) (f : Fld) (w p i v : Nat) : (k.wr f w p i v).ras = k.ras := rfl
/-- A write of a register field leaves `cxl`. -/
@[simp] theorem Core.wr_cxl (k : Core) (f : Fld) (w p i v : Nat) : (k.wr f w p i v).cxl = k.cxl := rfl
/-- A write of a register field leaves `pmu`. -/
@[simp] theorem Core.wr_pmu (k : Core) (f : Fld) (w p i v : Nat) : (k.wr f w p i v).pmu = k.pmu := rfl
/-- A write of a register field leaves `boot`. -/
@[simp] theorem Core.wr_boot (k : Core) (f : Fld) (w p i v : Nat) : (k.wr f w p i v).boot = k.boot := rfl
/-- A write of a register field leaves `mbx`. -/
@[simp] theorem Core.wr_mbx (k : Core) (f : Fld) (w p i v : Nat) : (k.wr f w p i v).mbx = k.mbx := rfl
/-- A write of a register field leaves `out`. -/
@[simp] theorem Core.wr_out (k : Core) (f : Fld) (w p i v : Nat) : (k.wr f w p i v).out = k.out := rfl
/-- A write of an entry field leaves `part`. -/
@[simp] theorem Core.tw_part (k : Core) (f : TFld) (w p i v : Nat) : (k.tw f w p i v).part = k.part := rfl
/-- A write of an entry field leaves `pack`. -/
@[simp] theorem Core.tw_pack (k : Core) (f : TFld) (w p i v : Nat) : (k.tw f w p i v).pack = k.pack := rfl
/-- A write of an entry field leaves `time`. -/
@[simp] theorem Core.tw_time (k : Core) (f : TFld) (w p i v : Nat) : (k.tw f w p i v).time = k.time := rfl
/-- A write of an entry field leaves `pipes`. -/
@[simp] theorem Core.tw_pipes (k : Core) (f : TFld) (w p i v : Nat) : (k.tw f w p i v).pipes = k.pipes := rfl
/-- A write of an entry field leaves `tables`. -/
@[simp] theorem Core.tw_tables (k : Core) (f : TFld) (w p i v : Nat) : (k.tw f w p i v).tables = k.tables := rfl
/-- A write of an entry field leaves `buf`. -/
@[simp] theorem Core.tw_buf (k : Core) (f : TFld) (w p i v : Nat) : (k.tw f w p i v).buf = k.buf := rfl
/-- A write of an entry field leaves `xbar`. -/
@[simp] theorem Core.tw_xbar (k : Core) (f : TFld) (w p i v : Nat) : (k.tw f w p i v).xbar = k.xbar := rfl
/-- A write of an entry field leaves `egr`. -/
@[simp] theorem Core.tw_egr (k : Core) (f : TFld) (w p i v : Nat) : (k.tw f w p i v).egr = k.egr := rfl
/-- A write of an entry field leaves `foc`. -/
@[simp] theorem Core.tw_foc (k : Core) (f : TFld) (w p i v : Nat) : (k.tw f w p i v).foc = k.foc := rfl
/-- A write of an entry field leaves `tele`. -/
@[simp] theorem Core.tw_tele (k : Core) (f : TFld) (w p i v : Nat) : (k.tw f w p i v).tele = k.tele := rfl
/-- A write of an entry field leaves `hostq`. -/
@[simp] theorem Core.tw_hostq (k : Core) (f : TFld) (w p i v : Nat) : (k.tw f w p i v).hostq = k.hostq := rfl
/-- A write of an entry field leaves `link`. -/
@[simp] theorem Core.tw_link (k : Core) (f : TFld) (w p i v : Nat) : (k.tw f w p i v).link = k.link := rfl
/-- A write of an entry field leaves `ras`. -/
@[simp] theorem Core.tw_ras (k : Core) (f : TFld) (w p i v : Nat) : (k.tw f w p i v).ras = k.ras := rfl
/-- A write of an entry field leaves `cxl`. -/
@[simp] theorem Core.tw_cxl (k : Core) (f : TFld) (w p i v : Nat) : (k.tw f w p i v).cxl = k.cxl := rfl
/-- A write of an entry field leaves `pmu`. -/
@[simp] theorem Core.tw_pmu (k : Core) (f : TFld) (w p i v : Nat) : (k.tw f w p i v).pmu = k.pmu := rfl
/-- A write of an entry field leaves `boot`. -/
@[simp] theorem Core.tw_boot (k : Core) (f : TFld) (w p i v : Nat) : (k.tw f w p i v).boot = k.boot := rfl
/-- A write of an entry field leaves `mbx`. -/
@[simp] theorem Core.tw_mbx (k : Core) (f : TFld) (w p i v : Nat) : (k.tw f w p i v).mbx = k.mbx := rfl
/-- A write of an entry field leaves `out`. -/
@[simp] theorem Core.tw_out (k : Core) (f : TFld) (w p i v : Nat) : (k.tw f w p i v).out = k.out := rfl
/-- A saturating count leaves `part`. -/
@[simp] theorem Core.bump_part (k : Core) (f : Fld) (w p i n : Nat) : (k.bump f w p i n).part = k.part := rfl
/-- A saturating count leaves `pack`. -/
@[simp] theorem Core.bump_pack (k : Core) (f : Fld) (w p i n : Nat) : (k.bump f w p i n).pack = k.pack := rfl
/-- A saturating count leaves `time`. -/
@[simp] theorem Core.bump_time (k : Core) (f : Fld) (w p i n : Nat) : (k.bump f w p i n).time = k.time := rfl
/-- A saturating count leaves `pipes`. -/
@[simp] theorem Core.bump_pipes (k : Core) (f : Fld) (w p i n : Nat) : (k.bump f w p i n).pipes = k.pipes := rfl
/-- A saturating count leaves `tables`. -/
@[simp] theorem Core.bump_tables (k : Core) (f : Fld) (w p i n : Nat) : (k.bump f w p i n).tables = k.tables := rfl
/-- A saturating count leaves `buf`. -/
@[simp] theorem Core.bump_buf (k : Core) (f : Fld) (w p i n : Nat) : (k.bump f w p i n).buf = k.buf := rfl
/-- A saturating count leaves `xbar`. -/
@[simp] theorem Core.bump_xbar (k : Core) (f : Fld) (w p i n : Nat) : (k.bump f w p i n).xbar = k.xbar := rfl
/-- A saturating count leaves `egr`. -/
@[simp] theorem Core.bump_egr (k : Core) (f : Fld) (w p i n : Nat) : (k.bump f w p i n).egr = k.egr := rfl
/-- A saturating count leaves `foc`. -/
@[simp] theorem Core.bump_foc (k : Core) (f : Fld) (w p i n : Nat) : (k.bump f w p i n).foc = k.foc := rfl
/-- A saturating count leaves `tele`. -/
@[simp] theorem Core.bump_tele (k : Core) (f : Fld) (w p i n : Nat) : (k.bump f w p i n).tele = k.tele := rfl
/-- A saturating count leaves `hostq`. -/
@[simp] theorem Core.bump_hostq (k : Core) (f : Fld) (w p i n : Nat) : (k.bump f w p i n).hostq = k.hostq := rfl
/-- A saturating count leaves `link`. -/
@[simp] theorem Core.bump_link (k : Core) (f : Fld) (w p i n : Nat) : (k.bump f w p i n).link = k.link := rfl
/-- A saturating count leaves `ras`. -/
@[simp] theorem Core.bump_ras (k : Core) (f : Fld) (w p i n : Nat) : (k.bump f w p i n).ras = k.ras := rfl
/-- A saturating count leaves `cxl`. -/
@[simp] theorem Core.bump_cxl (k : Core) (f : Fld) (w p i n : Nat) : (k.bump f w p i n).cxl = k.cxl := rfl
/-- A saturating count leaves `pmu`. -/
@[simp] theorem Core.bump_pmu (k : Core) (f : Fld) (w p i n : Nat) : (k.bump f w p i n).pmu = k.pmu := rfl
/-- A saturating count leaves `boot`. -/
@[simp] theorem Core.bump_boot (k : Core) (f : Fld) (w p i n : Nat) : (k.bump f w p i n).boot = k.boot := rfl
/-- A saturating count leaves `mbx`. -/
@[simp] theorem Core.bump_mbx (k : Core) (f : Fld) (w p i n : Nat) : (k.bump f w p i n).mbx = k.mbx := rfl
/-- A saturating count leaves `out`. -/
@[simp] theorem Core.bump_out (k : Core) (f : Fld) (w p i n : Nat) : (k.bump f w p i n).out = k.out := rfl
/-- Raising an event leaves `part`. -/
@[simp] theorem Core.raise_part (k : Core) (w page b : Nat) : (k.raise w page b).part = k.part := rfl
/-- Raising an event leaves `pack`. -/
@[simp] theorem Core.raise_pack (k : Core) (w page b : Nat) : (k.raise w page b).pack = k.pack := rfl
/-- Raising an event leaves `time`. -/
@[simp] theorem Core.raise_time (k : Core) (w page b : Nat) : (k.raise w page b).time = k.time := rfl
/-- Raising an event leaves `pipes`. -/
@[simp] theorem Core.raise_pipes (k : Core) (w page b : Nat) : (k.raise w page b).pipes = k.pipes := rfl
/-- Raising an event leaves `tables`. -/
@[simp] theorem Core.raise_tables (k : Core) (w page b : Nat) : (k.raise w page b).tables = k.tables := rfl
/-- Raising an event leaves `buf`. -/
@[simp] theorem Core.raise_buf (k : Core) (w page b : Nat) : (k.raise w page b).buf = k.buf := rfl
/-- Raising an event leaves `xbar`. -/
@[simp] theorem Core.raise_xbar (k : Core) (w page b : Nat) : (k.raise w page b).xbar = k.xbar := rfl
/-- Raising an event leaves `egr`. -/
@[simp] theorem Core.raise_egr (k : Core) (w page b : Nat) : (k.raise w page b).egr = k.egr := rfl
/-- Raising an event leaves `foc`. -/
@[simp] theorem Core.raise_foc (k : Core) (w page b : Nat) : (k.raise w page b).foc = k.foc := rfl
/-- Raising an event leaves `tele`. -/
@[simp] theorem Core.raise_tele (k : Core) (w page b : Nat) : (k.raise w page b).tele = k.tele := rfl
/-- Raising an event leaves `hostq`. -/
@[simp] theorem Core.raise_hostq (k : Core) (w page b : Nat) : (k.raise w page b).hostq = k.hostq := rfl
/-- Raising an event leaves `link`. -/
@[simp] theorem Core.raise_link (k : Core) (w page b : Nat) : (k.raise w page b).link = k.link := rfl
/-- Raising an event leaves `ras`. -/
@[simp] theorem Core.raise_ras (k : Core) (w page b : Nat) : (k.raise w page b).ras = k.ras := rfl
/-- Raising an event leaves `cxl`. -/
@[simp] theorem Core.raise_cxl (k : Core) (w page b : Nat) : (k.raise w page b).cxl = k.cxl := rfl
/-- Raising an event leaves `pmu`. -/
@[simp] theorem Core.raise_pmu (k : Core) (w page b : Nat) : (k.raise w page b).pmu = k.pmu := rfl
/-- Raising an event leaves `boot`. -/
@[simp] theorem Core.raise_boot (k : Core) (w page b : Nat) : (k.raise w page b).boot = k.boot := rfl
/-- Raising an event leaves `mbx`. -/
@[simp] theorem Core.raise_mbx (k : Core) (w page b : Nat) : (k.raise w page b).mbx = k.mbx := rfl
/-- Raising an event leaves `out`. -/
@[simp] theorem Core.raise_out (k : Core) (w page b : Nat) : (k.raise w page b).out = k.out := rfl
/-- A counted event leaves `part`. -/
@[simp] theorem Core.count_part (k : Core) (w c e i n : Nat) : (k.count w c e i n).part = k.part := rfl
/-- A counted event leaves `pack`. -/
@[simp] theorem Core.count_pack (k : Core) (w c e i n : Nat) : (k.count w c e i n).pack = k.pack := rfl
/-- A counted event leaves `time`. -/
@[simp] theorem Core.count_time (k : Core) (w c e i n : Nat) : (k.count w c e i n).time = k.time := rfl
/-- A counted event leaves `pipes`. -/
@[simp] theorem Core.count_pipes (k : Core) (w c e i n : Nat) : (k.count w c e i n).pipes = k.pipes := rfl
/-- A counted event leaves `tables`. -/
@[simp] theorem Core.count_tables (k : Core) (w c e i n : Nat) : (k.count w c e i n).tables = k.tables := rfl
/-- A counted event leaves `buf`. -/
@[simp] theorem Core.count_buf (k : Core) (w c e i n : Nat) : (k.count w c e i n).buf = k.buf := rfl
/-- A counted event leaves `xbar`. -/
@[simp] theorem Core.count_xbar (k : Core) (w c e i n : Nat) : (k.count w c e i n).xbar = k.xbar := rfl
/-- A counted event leaves `egr`. -/
@[simp] theorem Core.count_egr (k : Core) (w c e i n : Nat) : (k.count w c e i n).egr = k.egr := rfl
/-- A counted event leaves `foc`. -/
@[simp] theorem Core.count_foc (k : Core) (w c e i n : Nat) : (k.count w c e i n).foc = k.foc := rfl
/-- A counted event leaves `tele`. -/
@[simp] theorem Core.count_tele (k : Core) (w c e i n : Nat) : (k.count w c e i n).tele = k.tele := rfl
/-- A counted event leaves `hostq`. -/
@[simp] theorem Core.count_hostq (k : Core) (w c e i n : Nat) : (k.count w c e i n).hostq = k.hostq := rfl
/-- A counted event leaves `link`. -/
@[simp] theorem Core.count_link (k : Core) (w c e i n : Nat) : (k.count w c e i n).link = k.link := rfl
/-- A counted event leaves `ras`. -/
@[simp] theorem Core.count_ras (k : Core) (w c e i n : Nat) : (k.count w c e i n).ras = k.ras := rfl
/-- A counted event leaves `cxl`. -/
@[simp] theorem Core.count_cxl (k : Core) (w c e i n : Nat) : (k.count w c e i n).cxl = k.cxl := rfl
/-- A counted event leaves `pmu`. -/
@[simp] theorem Core.count_pmu (k : Core) (w c e i n : Nat) : (k.count w c e i n).pmu = k.pmu := rfl
/-- A counted event leaves `boot`. -/
@[simp] theorem Core.count_boot (k : Core) (w c e i n : Nat) : (k.count w c e i n).boot = k.boot := rfl
/-- A counted event leaves `mbx`. -/
@[simp] theorem Core.count_mbx (k : Core) (w c e i n : Nat) : (k.count w c e i n).mbx = k.mbx := rfl
/-- A counted event leaves `out`. -/
@[simp] theorem Core.count_out (k : Core) (w c e i n : Nat) : (k.count w c e i n).out = k.out := rfl
/-- An access error leaves `part`. -/
@[simp] theorem Core.accErr_part (k : Core) (w page : Nat) (m : Master) (off : Nat) : (k.accErr w page m off).part = k.part := rfl
/-- An access error leaves `pack`. -/
@[simp] theorem Core.accErr_pack (k : Core) (w page : Nat) (m : Master) (off : Nat) : (k.accErr w page m off).pack = k.pack := rfl
/-- An access error leaves `time`. -/
@[simp] theorem Core.accErr_time (k : Core) (w page : Nat) (m : Master) (off : Nat) : (k.accErr w page m off).time = k.time := rfl
/-- An access error leaves `pipes`. -/
@[simp] theorem Core.accErr_pipes (k : Core) (w page : Nat) (m : Master) (off : Nat) : (k.accErr w page m off).pipes = k.pipes := rfl
/-- An access error leaves `tables`. -/
@[simp] theorem Core.accErr_tables (k : Core) (w page : Nat) (m : Master) (off : Nat) : (k.accErr w page m off).tables = k.tables := rfl
/-- An access error leaves `buf`. -/
@[simp] theorem Core.accErr_buf (k : Core) (w page : Nat) (m : Master) (off : Nat) : (k.accErr w page m off).buf = k.buf := rfl
/-- An access error leaves `xbar`. -/
@[simp] theorem Core.accErr_xbar (k : Core) (w page : Nat) (m : Master) (off : Nat) : (k.accErr w page m off).xbar = k.xbar := rfl
/-- An access error leaves `egr`. -/
@[simp] theorem Core.accErr_egr (k : Core) (w page : Nat) (m : Master) (off : Nat) : (k.accErr w page m off).egr = k.egr := rfl
/-- An access error leaves `foc`. -/
@[simp] theorem Core.accErr_foc (k : Core) (w page : Nat) (m : Master) (off : Nat) : (k.accErr w page m off).foc = k.foc := rfl
/-- An access error leaves `tele`. -/
@[simp] theorem Core.accErr_tele (k : Core) (w page : Nat) (m : Master) (off : Nat) : (k.accErr w page m off).tele = k.tele := rfl
/-- An access error leaves `hostq`. -/
@[simp] theorem Core.accErr_hostq (k : Core) (w page : Nat) (m : Master) (off : Nat) : (k.accErr w page m off).hostq = k.hostq := rfl
/-- An access error leaves `link`. -/
@[simp] theorem Core.accErr_link (k : Core) (w page : Nat) (m : Master) (off : Nat) : (k.accErr w page m off).link = k.link := rfl
/-- An access error leaves `ras`. -/
@[simp] theorem Core.accErr_ras (k : Core) (w page : Nat) (m : Master) (off : Nat) : (k.accErr w page m off).ras = k.ras := rfl
/-- An access error leaves `cxl`. -/
@[simp] theorem Core.accErr_cxl (k : Core) (w page : Nat) (m : Master) (off : Nat) : (k.accErr w page m off).cxl = k.cxl := rfl
/-- An access error leaves `pmu`. -/
@[simp] theorem Core.accErr_pmu (k : Core) (w page : Nat) (m : Master) (off : Nat) : (k.accErr w page m off).pmu = k.pmu := rfl
/-- An access error leaves `boot`. -/
@[simp] theorem Core.accErr_boot (k : Core) (w page : Nat) (m : Master) (off : Nat) : (k.accErr w page m off).boot = k.boot := rfl
/-- An access error leaves `mbx`. -/
@[simp] theorem Core.accErr_mbx (k : Core) (w page : Nat) (m : Master) (off : Nat) : (k.accErr w page m off).mbx = k.mbx := rfl
/-- An access error leaves `out`. -/
@[simp] theorem Core.accErr_out (k : Core) (w page : Nat) (m : Master) (off : Nat) : (k.accErr w page m off).out = k.out := rfl
/-- A configuration error leaves `part`. -/
@[simp] theorem Core.cfgErr_part (k : Core) (w page : Nat) (m : Master) (off : Nat) : (k.cfgErr w page m off).part = k.part := rfl
/-- A configuration error leaves `pack`. -/
@[simp] theorem Core.cfgErr_pack (k : Core) (w page : Nat) (m : Master) (off : Nat) : (k.cfgErr w page m off).pack = k.pack := rfl
/-- A configuration error leaves `time`. -/
@[simp] theorem Core.cfgErr_time (k : Core) (w page : Nat) (m : Master) (off : Nat) : (k.cfgErr w page m off).time = k.time := rfl
/-- A configuration error leaves `pipes`. -/
@[simp] theorem Core.cfgErr_pipes (k : Core) (w page : Nat) (m : Master) (off : Nat) : (k.cfgErr w page m off).pipes = k.pipes := rfl
/-- A configuration error leaves `tables`. -/
@[simp] theorem Core.cfgErr_tables (k : Core) (w page : Nat) (m : Master) (off : Nat) : (k.cfgErr w page m off).tables = k.tables := rfl
/-- A configuration error leaves `buf`. -/
@[simp] theorem Core.cfgErr_buf (k : Core) (w page : Nat) (m : Master) (off : Nat) : (k.cfgErr w page m off).buf = k.buf := rfl
/-- A configuration error leaves `xbar`. -/
@[simp] theorem Core.cfgErr_xbar (k : Core) (w page : Nat) (m : Master) (off : Nat) : (k.cfgErr w page m off).xbar = k.xbar := rfl
/-- A configuration error leaves `egr`. -/
@[simp] theorem Core.cfgErr_egr (k : Core) (w page : Nat) (m : Master) (off : Nat) : (k.cfgErr w page m off).egr = k.egr := rfl
/-- A configuration error leaves `foc`. -/
@[simp] theorem Core.cfgErr_foc (k : Core) (w page : Nat) (m : Master) (off : Nat) : (k.cfgErr w page m off).foc = k.foc := rfl
/-- A configuration error leaves `tele`. -/
@[simp] theorem Core.cfgErr_tele (k : Core) (w page : Nat) (m : Master) (off : Nat) : (k.cfgErr w page m off).tele = k.tele := rfl
/-- A configuration error leaves `hostq`. -/
@[simp] theorem Core.cfgErr_hostq (k : Core) (w page : Nat) (m : Master) (off : Nat) : (k.cfgErr w page m off).hostq = k.hostq := rfl
/-- A configuration error leaves `link`. -/
@[simp] theorem Core.cfgErr_link (k : Core) (w page : Nat) (m : Master) (off : Nat) : (k.cfgErr w page m off).link = k.link := rfl
/-- A configuration error leaves `ras`. -/
@[simp] theorem Core.cfgErr_ras (k : Core) (w page : Nat) (m : Master) (off : Nat) : (k.cfgErr w page m off).ras = k.ras := rfl
/-- A configuration error leaves `cxl`. -/
@[simp] theorem Core.cfgErr_cxl (k : Core) (w page : Nat) (m : Master) (off : Nat) : (k.cfgErr w page m off).cxl = k.cxl := rfl
/-- A configuration error leaves `pmu`. -/
@[simp] theorem Core.cfgErr_pmu (k : Core) (w page : Nat) (m : Master) (off : Nat) : (k.cfgErr w page m off).pmu = k.pmu := rfl
/-- A configuration error leaves `boot`. -/
@[simp] theorem Core.cfgErr_boot (k : Core) (w page : Nat) (m : Master) (off : Nat) : (k.cfgErr w page m off).boot = k.boot := rfl
/-- A configuration error leaves `mbx`. -/
@[simp] theorem Core.cfgErr_mbx (k : Core) (w page : Nat) (m : Master) (off : Nat) : (k.cfgErr w page m off).mbx = k.mbx := rfl
/-- A configuration error leaves `out`. -/
@[simp] theorem Core.cfgErr_out (k : Core) (w page : Nat) (m : Master) (off : Nat) : (k.cfgErr w page m off).out = k.out := rfl
/-- An output leaves `part`. -/
@[simp] theorem Core.emit_part (k : Core) (o : Out) : (k.emit o).part = k.part := rfl
/-- An output leaves `pack`. -/
@[simp] theorem Core.emit_pack (k : Core) (o : Out) : (k.emit o).pack = k.pack := rfl
/-- An output leaves `io`. -/
@[simp] theorem Core.emit_io (k : Core) (o : Out) : (k.emit o).io = k.io := rfl
/-- An output leaves `time`. -/
@[simp] theorem Core.emit_time (k : Core) (o : Out) : (k.emit o).time = k.time := rfl
/-- An output leaves `pipes`. -/
@[simp] theorem Core.emit_pipes (k : Core) (o : Out) : (k.emit o).pipes = k.pipes := rfl
/-- An output leaves `tables`. -/
@[simp] theorem Core.emit_tables (k : Core) (o : Out) : (k.emit o).tables = k.tables := rfl
/-- An output leaves `buf`. -/
@[simp] theorem Core.emit_buf (k : Core) (o : Out) : (k.emit o).buf = k.buf := rfl
/-- An output leaves `xbar`. -/
@[simp] theorem Core.emit_xbar (k : Core) (o : Out) : (k.emit o).xbar = k.xbar := rfl
/-- An output leaves `egr`. -/
@[simp] theorem Core.emit_egr (k : Core) (o : Out) : (k.emit o).egr = k.egr := rfl
/-- An output leaves `foc`. -/
@[simp] theorem Core.emit_foc (k : Core) (o : Out) : (k.emit o).foc = k.foc := rfl
/-- An output leaves `tele`. -/
@[simp] theorem Core.emit_tele (k : Core) (o : Out) : (k.emit o).tele = k.tele := rfl
/-- An output leaves `hostq`. -/
@[simp] theorem Core.emit_hostq (k : Core) (o : Out) : (k.emit o).hostq = k.hostq := rfl
/-- An output leaves `link`. -/
@[simp] theorem Core.emit_link (k : Core) (o : Out) : (k.emit o).link = k.link := rfl
/-- An output leaves `ras`. -/
@[simp] theorem Core.emit_ras (k : Core) (o : Out) : (k.emit o).ras = k.ras := rfl
/-- An output leaves `cxl`. -/
@[simp] theorem Core.emit_cxl (k : Core) (o : Out) : (k.emit o).cxl = k.cxl := rfl
/-- An output leaves `pmu`. -/
@[simp] theorem Core.emit_pmu (k : Core) (o : Out) : (k.emit o).pmu = k.pmu := rfl
/-- An output leaves `boot`. -/
@[simp] theorem Core.emit_boot (k : Core) (o : Out) : (k.emit o).boot = k.boot := rfl
/-- An output leaves `mbx`. -/
@[simp] theorem Core.emit_mbx (k : Core) (o : Out) : (k.emit o).mbx = k.mbx := rfl
/-- An output is the newest. -/
@[simp] theorem Core.emit_out (k : Core) (o : Out) : (k.emit o).out = o :: k.out := rfl

/-- Changing the register space changes it as said. -/
@[simp] theorem Core.onIo_io (k : Core) (f : Io → Io) : (k.onIo f).io = f k.io := rfl

end Sys2Proof.Machine
end

