-- ==== Sys2Proof/Laws/Engines.lean ====
section
/-!
SUPPORT. The frame laws of the updates of one engine's state: each changes its own part of the core as said and leaves the
others, one lemma a field, each true by the definition of the update.
-/
namespace Sys2Proof.Machine

/-! ### The crossbar -/

/-- The update changes `xbar` as said. -/
@[simp] theorem Core.onX_xbar (k : Core) (f : Xbar → Xbar) : (k.onX f).xbar = f k.xbar := rfl
/-- It leaves `part`. -/
@[simp] theorem Core.onX_part (k : Core) (f : Xbar → Xbar) : (k.onX f).part = k.part := rfl
/-- It leaves `pack`. -/
@[simp] theorem Core.onX_pack (k : Core) (f : Xbar → Xbar) : (k.onX f).pack = k.pack := rfl
/-- It leaves `io`. -/
@[simp] theorem Core.onX_io (k : Core) (f : Xbar → Xbar) : (k.onX f).io = k.io := rfl
/-- It leaves `time`. -/
@[simp] theorem Core.onX_time (k : Core) (f : Xbar → Xbar) : (k.onX f).time = k.time := rfl
/-- It leaves `pipes`. -/
@[simp] theorem Core.onX_pipes (k : Core) (f : Xbar → Xbar) : (k.onX f).pipes = k.pipes := rfl
/-- It leaves `tables`. -/
@[simp] theorem Core.onX_tables (k : Core) (f : Xbar → Xbar) : (k.onX f).tables = k.tables := rfl
/-- It leaves `buf`. -/
@[simp] theorem Core.onX_buf (k : Core) (f : Xbar → Xbar) : (k.onX f).buf = k.buf := rfl
/-- It leaves `egr`. -/
@[simp] theorem Core.onX_egr (k : Core) (f : Xbar → Xbar) : (k.onX f).egr = k.egr := rfl
/-- It leaves `foc`. -/
@[simp] theorem Core.onX_foc (k : Core) (f : Xbar → Xbar) : (k.onX f).foc = k.foc := rfl
/-- It leaves `tele`. -/
@[simp] theorem Core.onX_tele (k : Core) (f : Xbar → Xbar) : (k.onX f).tele = k.tele := rfl
/-- It leaves `hostq`. -/
@[simp] theorem Core.onX_hostq (k : Core) (f : Xbar → Xbar) : (k.onX f).hostq = k.hostq := rfl
/-- It leaves `link`. -/
@[simp] theorem Core.onX_link (k : Core) (f : Xbar → Xbar) : (k.onX f).link = k.link := rfl
/-- It leaves `ras`. -/
@[simp] theorem Core.onX_ras (k : Core) (f : Xbar → Xbar) : (k.onX f).ras = k.ras := rfl
/-- It leaves `cxl`. -/
@[simp] theorem Core.onX_cxl (k : Core) (f : Xbar → Xbar) : (k.onX f).cxl = k.cxl := rfl
/-- It leaves `pmu`. -/
@[simp] theorem Core.onX_pmu (k : Core) (f : Xbar → Xbar) : (k.onX f).pmu = k.pmu := rfl
/-- It leaves `boot`. -/
@[simp] theorem Core.onX_boot (k : Core) (f : Xbar → Xbar) : (k.onX f).boot = k.boot := rfl
/-- It leaves `mbx`. -/
@[simp] theorem Core.onX_mbx (k : Core) (f : Xbar → Xbar) : (k.onX f).mbx = k.mbx := rfl
/-- It leaves `out`. -/
@[simp] theorem Core.onX_out (k : Core) (f : Xbar → Xbar) : (k.onX f).out = k.out := rfl
/-- It leaves every register field. -/
@[simp] theorem Core.rd_onX (k : Core) (f : Xbar → Xbar) (g : Fld) (w p i : Nat) : (k.onX f).rd g w p i = k.rd g w p i := rfl
/-- It leaves every entry field. -/
@[simp] theorem Core.td_onX (k : Core) (f : Xbar → Xbar) (g : TFld) (w p i : Nat) : (k.onX f).td g w p i = k.td g w p i := rfl

/-! ### The memory tier -/

/-- The update changes `cxl` as said. -/
@[simp] theorem Core.onCxl_cxl (k : Core) (f : Cxl → Cxl) : (k.onCxl f).cxl = f k.cxl := rfl
/-- It leaves `part`. -/
@[simp] theorem Core.onCxl_part (k : Core) (f : Cxl → Cxl) : (k.onCxl f).part = k.part := rfl
/-- It leaves `pack`. -/
@[simp] theorem Core.onCxl_pack (k : Core) (f : Cxl → Cxl) : (k.onCxl f).pack = k.pack := rfl
/-- It leaves `io`. -/
@[simp] theorem Core.onCxl_io (k : Core) (f : Cxl → Cxl) : (k.onCxl f).io = k.io := rfl
/-- It leaves `time`. -/
@[simp] theorem Core.onCxl_time (k : Core) (f : Cxl → Cxl) : (k.onCxl f).time = k.time := rfl
/-- It leaves `pipes`. -/
@[simp] theorem Core.onCxl_pipes (k : Core) (f : Cxl → Cxl) : (k.onCxl f).pipes = k.pipes := rfl
/-- It leaves `tables`. -/
@[simp] theorem Core.onCxl_tables (k : Core) (f : Cxl → Cxl) : (k.onCxl f).tables = k.tables := rfl
/-- It leaves `buf`. -/
@[simp] theorem Core.onCxl_buf (k : Core) (f : Cxl → Cxl) : (k.onCxl f).buf = k.buf := rfl
/-- It leaves `xbar`. -/
@[simp] theorem Core.onCxl_xbar (k : Core) (f : Cxl → Cxl) : (k.onCxl f).xbar = k.xbar := rfl
/-- It leaves `egr`. -/
@[simp] theorem Core.onCxl_egr (k : Core) (f : Cxl → Cxl) : (k.onCxl f).egr = k.egr := rfl
/-- It leaves `foc`. -/
@[simp] theorem Core.onCxl_foc (k : Core) (f : Cxl → Cxl) : (k.onCxl f).foc = k.foc := rfl
/-- It leaves `tele`. -/
@[simp] theorem Core.onCxl_tele (k : Core) (f : Cxl → Cxl) : (k.onCxl f).tele = k.tele := rfl
/-- It leaves `hostq`. -/
@[simp] theorem Core.onCxl_hostq (k : Core) (f : Cxl → Cxl) : (k.onCxl f).hostq = k.hostq := rfl
/-- It leaves `link`. -/
@[simp] theorem Core.onCxl_link (k : Core) (f : Cxl → Cxl) : (k.onCxl f).link = k.link := rfl
/-- It leaves `ras`. -/
@[simp] theorem Core.onCxl_ras (k : Core) (f : Cxl → Cxl) : (k.onCxl f).ras = k.ras := rfl
/-- It leaves `pmu`. -/
@[simp] theorem Core.onCxl_pmu (k : Core) (f : Cxl → Cxl) : (k.onCxl f).pmu = k.pmu := rfl
/-- It leaves `boot`. -/
@[simp] theorem Core.onCxl_boot (k : Core) (f : Cxl → Cxl) : (k.onCxl f).boot = k.boot := rfl
/-- It leaves `mbx`. -/
@[simp] theorem Core.onCxl_mbx (k : Core) (f : Cxl → Cxl) : (k.onCxl f).mbx = k.mbx := rfl
/-- It leaves `out`. -/
@[simp] theorem Core.onCxl_out (k : Core) (f : Cxl → Cxl) : (k.onCxl f).out = k.out := rfl
/-- It leaves every register field. -/
@[simp] theorem Core.rd_onCxl (k : Core) (f : Cxl → Cxl) (g : Fld) (w p i : Nat) : (k.onCxl f).rd g w p i = k.rd g w p i := rfl
/-- It leaves every entry field. -/
@[simp] theorem Core.td_onCxl (k : Core) (f : Cxl → Cxl) (g : TFld) (w p i : Nat) : (k.onCxl f).td g w p i = k.td g w p i := rfl

/-! ### The Focus engine -/

/-- The update changes `foc` as said. -/
@[simp] theorem Core.onFoc_foc (k : Core) (f : Foc → Foc) : (k.onFoc f).foc = f k.foc := rfl
/-- It leaves `part`. -/
@[simp] theorem Core.onFoc_part (k : Core) (f : Foc → Foc) : (k.onFoc f).part = k.part := rfl
/-- It leaves `pack`. -/
@[simp] theorem Core.onFoc_pack (k : Core) (f : Foc → Foc) : (k.onFoc f).pack = k.pack := rfl
/-- It leaves `io`. -/
@[simp] theorem Core.onFoc_io (k : Core) (f : Foc → Foc) : (k.onFoc f).io = k.io := rfl
/-- It leaves `time`. -/
@[simp] theorem Core.onFoc_time (k : Core) (f : Foc → Foc) : (k.onFoc f).time = k.time := rfl
/-- It leaves `pipes`. -/
@[simp] theorem Core.onFoc_pipes (k : Core) (f : Foc → Foc) : (k.onFoc f).pipes = k.pipes := rfl
/-- It leaves `tables`. -/
@[simp] theorem Core.onFoc_tables (k : Core) (f : Foc → Foc) : (k.onFoc f).tables = k.tables := rfl
/-- It leaves `buf`. -/
@[simp] theorem Core.onFoc_buf (k : Core) (f : Foc → Foc) : (k.onFoc f).buf = k.buf := rfl
/-- It leaves `xbar`. -/
@[simp] theorem Core.onFoc_xbar (k : Core) (f : Foc → Foc) : (k.onFoc f).xbar = k.xbar := rfl
/-- It leaves `egr`. -/
@[simp] theorem Core.onFoc_egr (k : Core) (f : Foc → Foc) : (k.onFoc f).egr = k.egr := rfl
/-- It leaves `tele`. -/
@[simp] theorem Core.onFoc_tele (k : Core) (f : Foc → Foc) : (k.onFoc f).tele = k.tele := rfl
/-- It leaves `hostq`. -/
@[simp] theorem Core.onFoc_hostq (k : Core) (f : Foc → Foc) : (k.onFoc f).hostq = k.hostq := rfl
/-- It leaves `link`. -/
@[simp] theorem Core.onFoc_link (k : Core) (f : Foc → Foc) : (k.onFoc f).link = k.link := rfl
/-- It leaves `ras`. -/
@[simp] theorem Core.onFoc_ras (k : Core) (f : Foc → Foc) : (k.onFoc f).ras = k.ras := rfl
/-- It leaves `cxl`. -/
@[simp] theorem Core.onFoc_cxl (k : Core) (f : Foc → Foc) : (k.onFoc f).cxl = k.cxl := rfl
/-- It leaves `pmu`. -/
@[simp] theorem Core.onFoc_pmu (k : Core) (f : Foc → Foc) : (k.onFoc f).pmu = k.pmu := rfl
/-- It leaves `boot`. -/
@[simp] theorem Core.onFoc_boot (k : Core) (f : Foc → Foc) : (k.onFoc f).boot = k.boot := rfl
/-- It leaves `mbx`. -/
@[simp] theorem Core.onFoc_mbx (k : Core) (f : Foc → Foc) : (k.onFoc f).mbx = k.mbx := rfl
/-- It leaves `out`. -/
@[simp] theorem Core.onFoc_out (k : Core) (f : Foc → Foc) : (k.onFoc f).out = k.out := rfl
/-- It leaves every register field. -/
@[simp] theorem Core.rd_onFoc (k : Core) (f : Foc → Foc) (g : Fld) (w p i : Nat) : (k.onFoc f).rd g w p i = k.rd g w p i := rfl
/-- It leaves every entry field. -/
@[simp] theorem Core.td_onFoc (k : Core) (f : Foc → Foc) (g : TFld) (w p i : Nat) : (k.onFoc f).td g w p i = k.td g w p i := rfl

/-! ### The links -/

/-- The update changes `link` as said. -/
@[simp] theorem Core.onLink_link (k : Core) (f : Link → Link) : (k.onLink f).link = f k.link := rfl
/-- It leaves `part`. -/
@[simp] theorem Core.onLink_part (k : Core) (f : Link → Link) : (k.onLink f).part = k.part := rfl
/-- It leaves `pack`. -/
@[simp] theorem Core.onLink_pack (k : Core) (f : Link → Link) : (k.onLink f).pack = k.pack := rfl
/-- It leaves `io`. -/
@[simp] theorem Core.onLink_io (k : Core) (f : Link → Link) : (k.onLink f).io = k.io := rfl
/-- It leaves `time`. -/
@[simp] theorem Core.onLink_time (k : Core) (f : Link → Link) : (k.onLink f).time = k.time := rfl
/-- It leaves `pipes`. -/
@[simp] theorem Core.onLink_pipes (k : Core) (f : Link → Link) : (k.onLink f).pipes = k.pipes := rfl
/-- It leaves `tables`. -/
@[simp] theorem Core.onLink_tables (k : Core) (f : Link → Link) : (k.onLink f).tables = k.tables := rfl
/-- It leaves `buf`. -/
@[simp] theorem Core.onLink_buf (k : Core) (f : Link → Link) : (k.onLink f).buf = k.buf := rfl
/-- It leaves `xbar`. -/
@[simp] theorem Core.onLink_xbar (k : Core) (f : Link → Link) : (k.onLink f).xbar = k.xbar := rfl
/-- It leaves `egr`. -/
@[simp] theorem Core.onLink_egr (k : Core) (f : Link → Link) : (k.onLink f).egr = k.egr := rfl
/-- It leaves `foc`. -/
@[simp] theorem Core.onLink_foc (k : Core) (f : Link → Link) : (k.onLink f).foc = k.foc := rfl
/-- It leaves `tele`. -/
@[simp] theorem Core.onLink_tele (k : Core) (f : Link → Link) : (k.onLink f).tele = k.tele := rfl
/-- It leaves `hostq`. -/
@[simp] theorem Core.onLink_hostq (k : Core) (f : Link → Link) : (k.onLink f).hostq = k.hostq := rfl
/-- It leaves `ras`. -/
@[simp] theorem Core.onLink_ras (k : Core) (f : Link → Link) : (k.onLink f).ras = k.ras := rfl
/-- It leaves `cxl`. -/
@[simp] theorem Core.onLink_cxl (k : Core) (f : Link → Link) : (k.onLink f).cxl = k.cxl := rfl
/-- It leaves `pmu`. -/
@[simp] theorem Core.onLink_pmu (k : Core) (f : Link → Link) : (k.onLink f).pmu = k.pmu := rfl
/-- It leaves `boot`. -/
@[simp] theorem Core.onLink_boot (k : Core) (f : Link → Link) : (k.onLink f).boot = k.boot := rfl
/-- It leaves `mbx`. -/
@[simp] theorem Core.onLink_mbx (k : Core) (f : Link → Link) : (k.onLink f).mbx = k.mbx := rfl
/-- It leaves `out`. -/
@[simp] theorem Core.onLink_out (k : Core) (f : Link → Link) : (k.onLink f).out = k.out := rfl
/-- It leaves every register field. -/
@[simp] theorem Core.rd_onLink (k : Core) (f : Link → Link) (g : Fld) (w p i : Nat) : (k.onLink f).rd g w p i = k.rd g w p i := rfl
/-- It leaves every entry field. -/
@[simp] theorem Core.td_onLink (k : Core) (f : Link → Link) (g : TFld) (w p i : Nat) : (k.onLink f).td g w p i = k.td g w p i := rfl

/-! ### The repair engines -/

/-- The update changes `ras` as said. -/
@[simp] theorem Core.onRas_ras (k : Core) (f : Ras → Ras) : (k.onRas f).ras = f k.ras := rfl
/-- It leaves `part`. -/
@[simp] theorem Core.onRas_part (k : Core) (f : Ras → Ras) : (k.onRas f).part = k.part := rfl
/-- It leaves `pack`. -/
@[simp] theorem Core.onRas_pack (k : Core) (f : Ras → Ras) : (k.onRas f).pack = k.pack := rfl
/-- It leaves `io`. -/
@[simp] theorem Core.onRas_io (k : Core) (f : Ras → Ras) : (k.onRas f).io = k.io := rfl
/-- It leaves `time`. -/
@[simp] theorem Core.onRas_time (k : Core) (f : Ras → Ras) : (k.onRas f).time = k.time := rfl
/-- It leaves `pipes`. -/
@[simp] theorem Core.onRas_pipes (k : Core) (f : Ras → Ras) : (k.onRas f).pipes = k.pipes := rfl
/-- It leaves `tables`. -/
@[simp] theorem Core.onRas_tables (k : Core) (f : Ras → Ras) : (k.onRas f).tables = k.tables := rfl
/-- It leaves `buf`. -/
@[simp] theorem Core.onRas_buf (k : Core) (f : Ras → Ras) : (k.onRas f).buf = k.buf := rfl
/-- It leaves `xbar`. -/
@[simp] theorem Core.onRas_xbar (k : Core) (f : Ras → Ras) : (k.onRas f).xbar = k.xbar := rfl
/-- It leaves `egr`. -/
@[simp] theorem Core.onRas_egr (k : Core) (f : Ras → Ras) : (k.onRas f).egr = k.egr := rfl
/-- It leaves `foc`. -/
@[simp] theorem Core.onRas_foc (k : Core) (f : Ras → Ras) : (k.onRas f).foc = k.foc := rfl
/-- It leaves `tele`. -/
@[simp] theorem Core.onRas_tele (k : Core) (f : Ras → Ras) : (k.onRas f).tele = k.tele := rfl
/-- It leaves `hostq`. -/
@[simp] theorem Core.onRas_hostq (k : Core) (f : Ras → Ras) : (k.onRas f).hostq = k.hostq := rfl
/-- It leaves `link`. -/
@[simp] theorem Core.onRas_link (k : Core) (f : Ras → Ras) : (k.onRas f).link = k.link := rfl
/-- It leaves `cxl`. -/
@[simp] theorem Core.onRas_cxl (k : Core) (f : Ras → Ras) : (k.onRas f).cxl = k.cxl := rfl
/-- It leaves `pmu`. -/
@[simp] theorem Core.onRas_pmu (k : Core) (f : Ras → Ras) : (k.onRas f).pmu = k.pmu := rfl
/-- It leaves `boot`. -/
@[simp] theorem Core.onRas_boot (k : Core) (f : Ras → Ras) : (k.onRas f).boot = k.boot := rfl
/-- It leaves `mbx`. -/
@[simp] theorem Core.onRas_mbx (k : Core) (f : Ras → Ras) : (k.onRas f).mbx = k.mbx := rfl
/-- It leaves `out`. -/
@[simp] theorem Core.onRas_out (k : Core) (f : Ras → Ras) : (k.onRas f).out = k.out := rfl
/-- It leaves every register field. -/
@[simp] theorem Core.rd_onRas (k : Core) (f : Ras → Ras) (g : Fld) (w p i : Nat) : (k.onRas f).rd g w p i = k.rd g w p i := rfl
/-- It leaves every entry field. -/
@[simp] theorem Core.td_onRas (k : Core) (f : Ras → Ras) (g : TFld) (w p i : Nat) : (k.onRas f).td g w p i = k.td g w p i := rfl

/-! ### The start -/

/-- The update changes `boot` as said. -/
@[simp] theorem Core.onBoot_boot (k : Core) (f : Boot → Boot) : (k.onBoot f).boot = f k.boot := rfl
/-- It leaves `part`. -/
@[simp] theorem Core.onBoot_part (k : Core) (f : Boot → Boot) : (k.onBoot f).part = k.part := rfl
/-- It leaves `pack`. -/
@[simp] theorem Core.onBoot_pack (k : Core) (f : Boot → Boot) : (k.onBoot f).pack = k.pack := rfl
/-- It leaves `io`. -/
@[simp] theorem Core.onBoot_io (k : Core) (f : Boot → Boot) : (k.onBoot f).io = k.io := rfl
/-- It leaves `time`. -/
@[simp] theorem Core.onBoot_time (k : Core) (f : Boot → Boot) : (k.onBoot f).time = k.time := rfl
/-- It leaves `pipes`. -/
@[simp] theorem Core.onBoot_pipes (k : Core) (f : Boot → Boot) : (k.onBoot f).pipes = k.pipes := rfl
/-- It leaves `tables`. -/
@[simp] theorem Core.onBoot_tables (k : Core) (f : Boot → Boot) : (k.onBoot f).tables = k.tables := rfl
/-- It leaves `buf`. -/
@[simp] theorem Core.onBoot_buf (k : Core) (f : Boot → Boot) : (k.onBoot f).buf = k.buf := rfl
/-- It leaves `xbar`. -/
@[simp] theorem Core.onBoot_xbar (k : Core) (f : Boot → Boot) : (k.onBoot f).xbar = k.xbar := rfl
/-- It leaves `egr`. -/
@[simp] theorem Core.onBoot_egr (k : Core) (f : Boot → Boot) : (k.onBoot f).egr = k.egr := rfl
/-- It leaves `foc`. -/
@[simp] theorem Core.onBoot_foc (k : Core) (f : Boot → Boot) : (k.onBoot f).foc = k.foc := rfl
/-- It leaves `tele`. -/
@[simp] theorem Core.onBoot_tele (k : Core) (f : Boot → Boot) : (k.onBoot f).tele = k.tele := rfl
/-- It leaves `hostq`. -/
@[simp] theorem Core.onBoot_hostq (k : Core) (f : Boot → Boot) : (k.onBoot f).hostq = k.hostq := rfl
/-- It leaves `link`. -/
@[simp] theorem Core.onBoot_link (k : Core) (f : Boot → Boot) : (k.onBoot f).link = k.link := rfl
/-- It leaves `ras`. -/
@[simp] theorem Core.onBoot_ras (k : Core) (f : Boot → Boot) : (k.onBoot f).ras = k.ras := rfl
/-- It leaves `cxl`. -/
@[simp] theorem Core.onBoot_cxl (k : Core) (f : Boot → Boot) : (k.onBoot f).cxl = k.cxl := rfl
/-- It leaves `pmu`. -/
@[simp] theorem Core.onBoot_pmu (k : Core) (f : Boot → Boot) : (k.onBoot f).pmu = k.pmu := rfl
/-- It leaves `mbx`. -/
@[simp] theorem Core.onBoot_mbx (k : Core) (f : Boot → Boot) : (k.onBoot f).mbx = k.mbx := rfl
/-- It leaves `out`. -/
@[simp] theorem Core.onBoot_out (k : Core) (f : Boot → Boot) : (k.onBoot f).out = k.out := rfl
/-- It leaves every register field. -/
@[simp] theorem Core.rd_onBoot (k : Core) (f : Boot → Boot) (g : Fld) (w p i : Nat) : (k.onBoot f).rd g w p i = k.rd g w p i := rfl
/-- It leaves every entry field. -/
@[simp] theorem Core.td_onBoot (k : Core) (f : Boot → Boot) (g : TFld) (w p i : Nat) : (k.onBoot f).td g w p i = k.td g w p i := rfl

/-! ### Time -/

/-- The update changes `time` as said. -/
@[simp] theorem Core.onTime_time (k : Core) (f : Time → Time) : (k.onTime f).time = f k.time := rfl
/-- It leaves `part`. -/
@[simp] theorem Core.onTime_part (k : Core) (f : Time → Time) : (k.onTime f).part = k.part := rfl
/-- It leaves `pack`. -/
@[simp] theorem Core.onTime_pack (k : Core) (f : Time → Time) : (k.onTime f).pack = k.pack := rfl
/-- It leaves `io`. -/
@[simp] theorem Core.onTime_io (k : Core) (f : Time → Time) : (k.onTime f).io = k.io := rfl
/-- It leaves `pipes`. -/
@[simp] theorem Core.onTime_pipes (k : Core) (f : Time → Time) : (k.onTime f).pipes = k.pipes := rfl
/-- It leaves `tables`. -/
@[simp] theorem Core.onTime_tables (k : Core) (f : Time → Time) : (k.onTime f).tables = k.tables := rfl
/-- It leaves `buf`. -/
@[simp] theorem Core.onTime_buf (k : Core) (f : Time → Time) : (k.onTime f).buf = k.buf := rfl
/-- It leaves `xbar`. -/
@[simp] theorem Core.onTime_xbar (k : Core) (f : Time → Time) : (k.onTime f).xbar = k.xbar := rfl
/-- It leaves `egr`. -/
@[simp] theorem Core.onTime_egr (k : Core) (f : Time → Time) : (k.onTime f).egr = k.egr := rfl
/-- It leaves `foc`. -/
@[simp] theorem Core.onTime_foc (k : Core) (f : Time → Time) : (k.onTime f).foc = k.foc := rfl
/-- It leaves `tele`. -/
@[simp] theorem Core.onTime_tele (k : Core) (f : Time → Time) : (k.onTime f).tele = k.tele := rfl
/-- It leaves `hostq`. -/
@[simp] theorem Core.onTime_hostq (k : Core) (f : Time → Time) : (k.onTime f).hostq = k.hostq := rfl
/-- It leaves `link`. -/
@[simp] theorem Core.onTime_link (k : Core) (f : Time → Time) : (k.onTime f).link = k.link := rfl
/-- It leaves `ras`. -/
@[simp] theorem Core.onTime_ras (k : Core) (f : Time → Time) : (k.onTime f).ras = k.ras := rfl
/-- It leaves `cxl`. -/
@[simp] theorem Core.onTime_cxl (k : Core) (f : Time → Time) : (k.onTime f).cxl = k.cxl := rfl
/-- It leaves `pmu`. -/
@[simp] theorem Core.onTime_pmu (k : Core) (f : Time → Time) : (k.onTime f).pmu = k.pmu := rfl
/-- It leaves `boot`. -/
@[simp] theorem Core.onTime_boot (k : Core) (f : Time → Time) : (k.onTime f).boot = k.boot := rfl
/-- It leaves `mbx`. -/
@[simp] theorem Core.onTime_mbx (k : Core) (f : Time → Time) : (k.onTime f).mbx = k.mbx := rfl
/-- It leaves `out`. -/
@[simp] theorem Core.onTime_out (k : Core) (f : Time → Time) : (k.onTime f).out = k.out := rfl
/-- It leaves every register field. -/
@[simp] theorem Core.rd_onTime (k : Core) (f : Time → Time) (g : Fld) (w p i : Nat) : (k.onTime f).rd g w p i = k.rd g w p i := rfl
/-- It leaves every entry field. -/
@[simp] theorem Core.td_onTime (k : Core) (f : Time → Time) (g : TFld) (w p i : Nat) : (k.onTime f).td g w p i = k.td g w p i := rfl

/-! ### Time that passes -/

/-- Time that passes changes the clock alone. -/
theorem Core.pass_eq (k : Core) (n : Nat) : k.pass n = { k with time := (k.pass n).time } := rfl
/-- It leaves `part`. -/
@[simp] theorem Core.pass_part (k : Core) (n : Nat) : (k.pass n).part = k.part := rfl
/-- It leaves `pack`. -/
@[simp] theorem Core.pass_pack (k : Core) (n : Nat) : (k.pass n).pack = k.pack := rfl
/-- It leaves `io`. -/
@[simp] theorem Core.pass_io (k : Core) (n : Nat) : (k.pass n).io = k.io := rfl
/-- It leaves `pipes`. -/
@[simp] theorem Core.pass_pipes (k : Core) (n : Nat) : (k.pass n).pipes = k.pipes := rfl
/-- It leaves `tables`. -/
@[simp] theorem Core.pass_tables (k : Core) (n : Nat) : (k.pass n).tables = k.tables := rfl
/-- It leaves `buf`. -/
@[simp] theorem Core.pass_buf (k : Core) (n : Nat) : (k.pass n).buf = k.buf := rfl
/-- It leaves `xbar`. -/
@[simp] theorem Core.pass_xbar (k : Core) (n : Nat) : (k.pass n).xbar = k.xbar := rfl
/-- It leaves `egr`. -/
@[simp] theorem Core.pass_egr (k : Core) (n : Nat) : (k.pass n).egr = k.egr := rfl
/-- It leaves `foc`. -/
@[simp] theorem Core.pass_foc (k : Core) (n : Nat) : (k.pass n).foc = k.foc := rfl
/-- It leaves `tele`. -/
@[simp] theorem Core.pass_tele (k : Core) (n : Nat) : (k.pass n).tele = k.tele := rfl
/-- It leaves `hostq`. -/
@[simp] theorem Core.pass_hostq (k : Core) (n : Nat) : (k.pass n).hostq = k.hostq := rfl
/-- It leaves `link`. -/
@[simp] theorem Core.pass_link (k : Core) (n : Nat) : (k.pass n).link = k.link := rfl
/-- It leaves `ras`. -/
@[simp] theorem Core.pass_ras (k : Core) (n : Nat) : (k.pass n).ras = k.ras := rfl
/-- It leaves `cxl`. -/
@[simp] theorem Core.pass_cxl (k : Core) (n : Nat) : (k.pass n).cxl = k.cxl := rfl
/-- It leaves `pmu`. -/
@[simp] theorem Core.pass_pmu (k : Core) (n : Nat) : (k.pass n).pmu = k.pmu := rfl
/-- It leaves `boot`. -/
@[simp] theorem Core.pass_boot (k : Core) (n : Nat) : (k.pass n).boot = k.boot := rfl
/-- It leaves `mbx`. -/
@[simp] theorem Core.pass_mbx (k : Core) (n : Nat) : (k.pass n).mbx = k.mbx := rfl
/-- It leaves `out`. -/
@[simp] theorem Core.pass_out (k : Core) (n : Nat) : (k.pass n).out = k.out := rfl

end Sys2Proof.Machine
end

