-- ==== Sys2Proof/Laws/Store.lean ====
section
/-!
SUPPORT. The laws of the sparse store: what a read gives after a write, and that a write keeps the canonical form.
-/
namespace Sys2Proof

/-- The keys of a canonical map above a bound: a key at or below the bound is not listed. -/
theorem SMap.get_of_le_bound {m : SMap} {b k : Nat} (h : SMap.wfFrom (some b) m = true) (hk : k ≤ b) : m.get k = 0 := by
  induction m generalizing b with
  | nil => rfl
  | cons e t ih =>
    obtain ⟨a, v⟩ := e
    simp only [SMap.wfFrom, Bool.and_eq_true, decide_eq_true_eq, bne_iff_ne] at h
    simp only [SMap.get]
    rw [if_neg (by omega)]
    exact ih h.2 (by omega)

/-- A canonical map above a bound is canonical above any lower bound. -/
theorem SMap.wfFrom_mono {m : SMap} {b c : Nat} (h : SMap.wfFrom (some b) m = true) (hc : c ≤ b) :
    SMap.wfFrom (some c) m = true := by
  cases m with
  | nil => rfl
  | cons e t =>
    obtain ⟨a, v⟩ := e
    simp only [SMap.wfFrom, Bool.and_eq_true, decide_eq_true_eq, bne_iff_ne] at h ⊢
    exact ⟨⟨by omega, h.1.2⟩, h.2⟩

/-- A canonical map above a bound is canonical. -/
theorem SMap.wf_of_bound {m : SMap} {b : Nat} (h : SMap.wfFrom (some b) m = true) : SMap.wfFrom none m = true := by
  cases m with
  | nil => rfl
  | cons e t =>
    obtain ⟨a, v⟩ := e
    simp only [SMap.wfFrom, Bool.and_eq_true, decide_eq_true_eq, bne_iff_ne] at h ⊢
    exact ⟨h.1.2, h.2⟩

/-- Putting a value reads back at its key. -/
theorem SMap.get_put_same (m : SMap) (k v : Nat) : (m.put k v).get k = v := by
  induction m with
  | nil => simp [SMap.put, SMap.get]
  | cons e t ih =>
    obtain ⟨a, w⟩ := e
    simp only [SMap.put]
    split
    · simp [SMap.get]
    · split
      · simp [SMap.get]
      · rename_i h1 h2
        simp only [SMap.get]
        rw [if_neg (by omega)]
        exact ih

/-- Putting a value leaves every other key. -/
theorem SMap.get_put_ne (m : SMap) {k j : Nat} (v : Nat) (h : j ≠ k) : (m.put k v).get j = m.get j := by
  induction m with
  | nil => simp [SMap.put, SMap.get]; omega
  | cons e t ih =>
    obtain ⟨a, w⟩ := e
    simp only [SMap.put]
    split
    · simp only [SMap.get]; rw [if_neg (by omega)]
    · split
      · rename_i h2
        simp only [SMap.get]; rw [if_neg (by omega), if_neg (by omega)]
      · simp only [SMap.get]; rw [ih]

/-- Removing a key leaves every other key. -/
theorem SMap.get_erase_ne (m : SMap) {k j : Nat} (h : j ≠ k) : (m.erase k).get j = m.get j := by
  induction m with
  | nil => rfl
  | cons e t ih =>
    obtain ⟨a, w⟩ := e
    simp only [SMap.erase]
    split
    · simp only [SMap.get]; rw [if_neg (by omega)]; exact ih
    · simp only [SMap.get]; rw [ih]

/-- A removed key reads 0. -/
theorem SMap.get_erase_same (m : SMap) (k : Nat) : (m.erase k).get k = 0 := by
  induction m with
  | nil => rfl
  | cons e t ih =>
    obtain ⟨a, w⟩ := e
    simp only [SMap.erase]
    split
    · exact ih
    · rename_i h1
      simp only [SMap.get]
      rw [if_neg h1]
      exact ih

/-- Putting a non-zero value keeps the canonical form above a bound below the key. -/
theorem SMap.wfFrom_put {m : SMap} {b k v : Nat} (h : SMap.wfFrom (some b) m = true) (hb : b < k) (hv : v ≠ 0) :
    SMap.wfFrom (some b) (m.put k v) = true := by
  induction m generalizing b with
  | nil => simp [SMap.put, SMap.wfFrom, hb, hv]
  | cons e t ih =>
    obtain ⟨a, w⟩ := e
    simp only [SMap.wfFrom, Bool.and_eq_true, decide_eq_true_eq, bne_iff_ne] at h
    simp only [SMap.put]
    split
    · rename_i h1
      simp only [SMap.wfFrom, Bool.and_eq_true, decide_eq_true_eq, bne_iff_ne]
      exact ⟨⟨hb, hv⟩, ⟨h1, h.1.2⟩, h.2⟩
    · split
      · rename_i h1 h2
        subst h2
        simp only [SMap.wfFrom, Bool.and_eq_true, decide_eq_true_eq, bne_iff_ne]
        exact ⟨⟨hb, hv⟩, h.2⟩
      · rename_i h1 h2
        simp only [SMap.wfFrom, Bool.and_eq_true, decide_eq_true_eq, bne_iff_ne]
        exact ⟨h.1, ih h.2 (by omega)⟩

/-- Removing a key keeps the canonical form above a bound. -/
theorem SMap.wfFrom_erase {m : SMap} {b : Nat} (k : Nat) (h : SMap.wfFrom (some b) m = true) :
    SMap.wfFrom (some b) (m.erase k) = true := by
  induction m generalizing b with
  | nil => rfl
  | cons e t ih =>
    obtain ⟨a, w⟩ := e
    simp only [SMap.wfFrom, Bool.and_eq_true, decide_eq_true_eq, bne_iff_ne] at h
    simp only [SMap.erase]
    split
    · exact SMap.wfFrom_mono (ih h.2) (by omega)
    · simp only [SMap.wfFrom, Bool.and_eq_true, decide_eq_true_eq, bne_iff_ne]
      exact ⟨h.1, ih h.2⟩

/-- A write keeps the canonical form. -/
theorem SMap.wf_set {m : SMap} (k v : Nat) (h : m.wf = true) : (m.set k v).wf = true := by
  simp only [SMap.wf, SMap.set] at *
  cases m with
  | nil =>
    split
    · rfl
    · rename_i hv; simp [SMap.put, SMap.wfFrom, hv]
  | cons e t =>
    obtain ⟨a, w⟩ := e
    simp only [SMap.wfFrom, Bool.and_eq_true, bne_iff_ne] at h
    split
    · simp only [SMap.erase]
      split
      · exact SMap.wf_of_bound (SMap.wfFrom_erase k h.2)
      · simp only [SMap.wfFrom, Bool.and_eq_true, bne_iff_ne]
        exact ⟨h.1, SMap.wfFrom_erase k h.2⟩
    · rename_i hv
      simp only [SMap.put]
      split
      · rename_i h1
        simp only [SMap.wfFrom, Bool.and_eq_true, decide_eq_true_eq, bne_iff_ne]
        exact ⟨hv, ⟨h1, h.1⟩, h.2⟩
      · split
        · rename_i h1 h2
          subst h2
          simp only [SMap.wfFrom, Bool.and_eq_true, bne_iff_ne]
          exact ⟨hv, h.2⟩
        · simp only [SMap.wfFrom, Bool.and_eq_true, bne_iff_ne]
          exact ⟨h.1, SMap.wfFrom_put h.2 (by omega) hv⟩

/-- A read at the written key gives the written value. -/
theorem SMap.get_set_same (m : SMap) (k v : Nat) : (m.set k v).get k = v := by
  simp only [SMap.set]
  split
  · rename_i hv; rw [SMap.get_erase_same, hv]
  · exact SMap.get_put_same m k v

/-- A write leaves every other key. -/
theorem SMap.get_set_ne (m : SMap) {k j : Nat} (v : Nat) (h : j ≠ k) : (m.set k v).get j = m.get j := by
  simp only [SMap.set]
  split
  · exact SMap.get_erase_ne m h
  · exact SMap.get_put_ne m v h

/-- A field reads back the value written, modulo its width. -/
theorem SMap.field_setField_same (m : SMap) (k w r v : Nat) :
    (m.setField k w r v).field k r = v % 2 ^ w := by
  simp only [SMap.field, SMap.setField, SMap.get_set_same, Nat.xor_assoc, Nat.xor_self, Nat.xor_zero]

/-- A write of a field leaves every other key's field. -/
theorem SMap.field_setField_ne (m : SMap) {k j : Nat} (w r v r' : Nat) (h : j ≠ k) :
    (m.setField k w r v).field j r' = m.field j r' := by
  simp only [SMap.field, SMap.setField, SMap.get_set_ne m _ h]

end Sys2Proof
end

