-- ==== Sys2Proof/Laws/Ops.lean ====
section
/-!
SUPPORT. The laws of the named operations: a field reads what was written to it, a write leaves every other field, the
register stores keep their canonical form, and what the verdict on an access lets through.
-/
namespace Sys2Proof.Machine

/-! ### Register fields -/

/-- A field reads back what was written, modulo its width. -/
theorem Core.rd_wr_same (k : Core) (f : Fld) (w p i v : Nat) :
    (k.wr f w p i v).rd f w p i = v % 2 ^ f.width := SMap.field_setField_same _ _ _ _ _

/-- A write of one field leaves every field at another key. -/
theorem Core.rd_wr_ne (k : Core) {f g : Fld} {w p i w' p' i' : Nat} (v : Nat) (h : g.key w' p' i' ≠ f.key w p i) :
    (k.wr f w p i v).rd g w' p' i' = k.rd g w' p' i' := SMap.field_setField_ne _ _ _ _ _ h

/-- An entry field reads back what was written, modulo its width. -/
theorem Core.td_tw_same (k : Core) (f : TFld) (w p i v : Nat) :
    (k.tw f w p i v).td f w p i = v % 2 ^ f.width := SMap.field_setField_same _ _ _ _ _

/-- A write of one entry field leaves every entry field at another key. -/
theorem Core.td_tw_ne (k : Core) {f g : TFld} {w p i w' p' i' : Nat} (v : Nat) (h : g.key w' p' i' ≠ f.key w p i) :
    (k.tw f w p i v).td g w' p' i' = k.td g w' p' i' := SMap.field_setField_ne _ _ _ _ _ h

/-- A register write leaves every entry field. -/
@[simp] theorem Core.td_wr (k : Core) (f : Fld) (g : TFld) (w p i v w' p' i' : Nat) :
    (k.wr f w p i v).td g w' p' i' = k.td g w' p' i' := rfl

/-- An entry write leaves every register field. -/
@[simp] theorem Core.rd_tw (k : Core) (f : TFld) (g : Fld) (w p i v w' p' i' : Nat) :
    (k.tw f w p i v).rd g w' p' i' = k.rd g w' p' i' := rfl

/-- An output leaves every register field. -/
@[simp] theorem Core.rd_emit (k : Core) (o : Out) (g : Fld) (w p i : Nat) : (k.emit o).rd g w p i = k.rd g w p i := rfl

/-- An output leaves every entry field. -/
@[simp] theorem Core.td_emit (k : Core) (o : Out) (g : TFld) (w p i : Nat) : (k.emit o).td g w p i = k.td g w p i := rfl

/-- A register write keeps the canonical form of the registers. -/
theorem Core.wr_wf {k : Core} (f : Fld) (w p i v : Nat) (h : k.io.regs.wf = true) :
    (k.wr f w p i v).io.regs.wf = true := SMap.wf_set _ _ h

/-- An entry write keeps the canonical form of the entries. -/
theorem Core.tw_wf {k : Core} (f : TFld) (w p i v : Nat) (h : k.io.ents.wf = true) :
    (k.tw f w p i v).io.ents.wf = true := SMap.wf_set _ _ h

/-! ### Accesses -/

/-- What an access of a register write can do: its effect, nothing, or an error on a page. -/
theorem Core.writeAt_cases (k : Core) (m : Master) (w page off : Nat) (f : Core → Core) :
    k.writeAt m w page off f = f k ∧ k.verdict m w page off true = .ok ∨
    k.writeAt m w page off f = k ∧ k.verdict m w page off true = .silent ∨
    ∃ ew ep, k.writeAt m w page off f = k.accErr ew ep m off ∧ k.verdict m w page off true = .error ew ep := by
  unfold Core.writeAt
  split
  · exact .inl ⟨rfl, by assumption⟩
  · exact .inr (.inl ⟨rfl, by assumption⟩)
  · exact .inr (.inr ⟨_, _, rfl, by assumption⟩)

/-- What a command over the core can do: it acts on a part that runs, and does nothing to one that does not. -/
theorem State.onCore_cases (s : State) (f : Core → Core) :
    s.core.live = true ∧ s.onCore f = { s with core := f s.core } ∨ s.core.live = false ∧ s.onCore f = s := by
  unfold State.onCore
  cases h : s.core.live
  · exact .inr ⟨rfl, by simp⟩
  · exact .inl ⟨rfl, by simp⟩

end Sys2Proof.Machine
end

