-- ==== Sys2Proof/Machine/Guarantee.lean ====
section
/-!
DEFINITION. The assumptions of the promise as one part's own registers show them, and the bounds that follow (R504, R505,
R508 to R511, R513, R514, R519, R520, R523). What a fabric, its links and its software add comes as arguments.
-/
namespace Sys2Proof.Machine

/-- `a / b`, rounded up. -/
def ceilDiv (a b : Nat) : Nat := (a + b - 1) / max 1 b

/-! ### Ladder levels (R505) -/

/-- Where the PCP map of a port's profile puts a priority: its PG and its TC (R505 item 1). -/
def Core.pcpTo (k : Core) (d l p : Nat) : Nat × Nat :=
  let map := k.td T.BUF_CLS_PCP (dw d) 0 (k.td T.BUF_PORT_PROFILE (dw d) 0 l)
  (map / 2 ^ (6 * p + 3) % 8, map / 2 ^ (6 * p) % 8)

/-- The queue a port's pipeline maps a priority's TC to (R505 item 3). -/
def Core.levelQueue (k : Core) (d l p : Nat) : Nat := k.qmap d (l / 32) (k.pcpTo d l p).2

/-- A port carries the ladder whose level `i` is the PCP `ps[i]`, as far as its registers say (R505 items 1 to 5): `dscps` are
the DSCPs that classify frames to each level. -/
def Core.carriesLadder (k : Core) (d l : Nat) (ps : List Nat) (dscps : List (List Nat)) : Bool :=
  let dmap := k.td T.BUF_CLS_DSCP (dw d) 0 (k.td T.BUF_PORT_PROFILE (dw d) 0 l)
  let pgs := ps.map fun p => (k.pcpTo d l p).1
  let tcs := ps.map fun p => (k.pcpTo d l p).2
  let qs := ps.map (k.levelQueue d l)
  let apart (x : List Nat) : Bool := x.eraseDups.length == x.length
  (pgs.all (k.losslessPg d l)) && apart pgs && apart tcs && apart qs &&
    ((ps.zip dscps).all fun x => x.2.all fun c =>
      (dmap / 2 ^ (6 * c + 3) % 8, dmap / 2 ^ (6 * c) % 8) == k.pcpTo d l x.1) &&
    (qs.all fun q => !k.marking d l q) &&
    (ps.all fun p => qs.all fun q => bit (k.qmask d l p) q == b2n (q == k.levelQueue d l p)) &&
    k.td T.BUF_PORT_PFC_TX_EN (dw d) 0 l == 1 && k.td T.BUF_PORT_PFC_RX_EN (dw d) 0 l == 1

/-! ### Headroom and minimums (R508 to R510) -/

/-- A link as the headroom formula sees it: its one-way delay and the partner's PFC response time in ns, the larger MTU of its
ends, and the shortest frame of the PG's priorities in bytes. -/
structure LinkTerms where
  delay : Nat
  response : Nat
  mtu : Nat
  shortest : Nat
  deriving DecidableEq, Repr

/-- H of R508 in bits, at `r` Gb/s. -/
def headroomBits (r : Nat) (x : LinkTerms) : Nat :=
  2 * x.delay * r + (110 + 130 + x.response) * r + 16 * (x.mtu + 20) + 84 * 8

/-- The cells of headroom R508 asks of a lossless PG. -/
def headroomCells (r : Nat) (x : LinkTerms) : Nat :=
  ceilDiv (headroomBits r x) (256 * 8) + ceilDiv (headroomBits r x) ((x.shortest + 20) * 8)

/-- A PG of a port has the headroom of R508. -/
def Core.headroomOk (k : Core) (d l g : Nat) (x : LinkTerms) : Bool :=
  decide (headroomCells (k.portGbps d l) x ≤ k.td T.BUF_PG_HDRM (dw d) 0 (l * 8 + g))

/-- The headroom of the die's lossless PGs fits its pool (R509). -/
def Core.headroomFits (k : Core) (d : Nat) : Bool :=
  decide (k.losslessHeadroom d ≤ k.rd R.BUF_POOL_HDRM_CELLS (dw d) 0 0)

/-- A minimum is nonzero and holds one MTU (R510). -/
def Core.minOk (k : Core) (d l n : Nat) : Bool := n != 0 && decide (ceilDiv (k.mtu d l) 256 ≤ n)

/-- The minimums of a port's lossless PGs and of the queues that carry its ladder levels (R510). -/
def Core.minimumsOk (k : Core) (d l : Nat) (ps : List Nat) : Bool :=
  ((List.range 8).all fun g => !k.losslessPg d l g || k.minOk d l (k.td T.BUF_PG_MIN (dw d) 0 (l * 8 + g))) &&
    ps.all fun p => k.minOk d l (k.td T.BUF_Q_MIN (dw d) 0 (l * 16 + k.levelQueue d l p))

/-! ### Parking (R511 to R514, R523) -/

/-- The bound T of a WAITSEL condition in ns (R513): `flag` is the time within which software sets its flag, `wake` the bound of
R512 with the retries it counts, `flush` says that software may issue FLUSH_BY_PORT on the die. -/
def Core.parkBound (k : Core) (d p sel flag wake : Nat) (flush : Bool) : Nat :=
  let tmo := k.rd R.SEQ_PARK_TMO_MICROSEC (dw d) p 0 * 1000
  if sel = 1 then tmo
  else if sel = 2 then wake
  else if sel = 3 then min tmo (if flush then 100200 else 3200)
  else min tmo flag

/-- The bound of R512 in ns, with `retries` flit retries on the control-channel path. -/
def admitBound (retries : Nat) : Nat := 2000 + 100 * retries

/-- A port whose frames a program may park: its largest T in ns and its shortest frame (R514). -/
structure ParkPort where
  lane : Nat
  bound : Nat
  shortest : Nat
  deriving DecidableEq, Repr

/-- R_p × D_p in bits times `cclkRate`: D_p is T and 200 cclk as cclk runs (R16, R514). -/
def Core.parkBits (k : Core) (d : Nat) (x : ParkPort) : Nat :=
  k.portGbps d x.lane * (x.bound * k.cclkRate d + 200 * 12288000)

/-- n_p of R514. -/
def Core.parkFrames (k : Core) (d : Nat) (x : ParkPort) : Nat :=
  ceilDiv (k.parkBits d x) (8 * (x.shortest + 20) * k.cclkRate d) + 1

/-- The valid members bound to ports of a pipeline, with the window and the largest payload of their contexts (R514). -/
def Core.parkMembers (k : Core) (d p : Nat) : List (Nat × Nat) :=
  (List.range 512).flatMap fun s =>
    if k.ctxActive d s then
      ((k.members d s).filter fun m => m.2 / 32 == d * 8 + p).map fun _ =>
        (k.ctxW d s, (k.ctx T.FOC_CTX_MAXE_M1 d s + 1) * elemSize (k.ctx T.FOC_CTX_TYPE d s))
    else []

/-- Parking fits the pool of a pipeline (R514). -/
def Core.parkingFits (k : Core) (d p : Nat) (ports : List ParkPort) : Bool :=
  let ms := k.parkMembers d p
  let sum (x : List Nat) : Nat := x.foldl (· + ·) 0
  decide (sum (ports.map (k.parkFrames d)) + sum (ms.map (·.1)) ≤ k.rd R.SEQ_PARK_CFG_ENTRIES (dw d) p 0) &&
    decide (sum (ports.map fun x => k.parkFrames d x + ceilDiv (k.parkBits d x) (2048 * k.cclkRate d)) +
      sum (ms.map fun m => m.1 * ceilDiv (82 + m.2) 256) ≤ k.rd R.SEQ_PARK_POOL_CELLS (dw d) p 0)

/-- The park timeout of a pipeline covers the bound of R512 (R511 item 5). -/
def Core.timeoutCovers (k : Core) (d p retries : Nat) : Bool :=
  decide (admitBound retries ≤ k.rd R.SEQ_PARK_TMO_MICROSEC (dw d) p 0 * 1000)

/-- After a park stall the promise applies again to a pipeline's traffic once its pool has room (R523). -/
def Core.parkingFree (k : Core) (d p : Nat) : Bool :=
  decide (k.rd R.SEQ_PARK_STAT_USED (dw d) p 0 < k.rd R.SEQ_PARK_CFG_ENTRIES (dw d) p 0) &&
    decide (k.rd R.SEQ_PARK_CELLS_USED (dw d) p 0 < k.rd R.SEQ_PARK_POOL_CELLS (dw d) p 0)

/-! ### Service (R519, R520) -/

/-- The strict queues of a port, and the queues of its round-robin group (R421). -/
def Core.strictQueues (k : Core) (d l : Nat) : List Nat :=
  (List.range (k.td T.SCH_PORT_NSTRICT (dw d) (l / 32) (l % 32))).map (15 - ·)

/-- The rate a port can serve at, in kb/s: the port's, or its shaper's where that is enabled and smaller (R519). -/
def Core.serveRate (k : Core) (d l : Nat) : Nat :=
  let port := k.portGbps d l * 1000000
  if k.td T.SHP_PORT_EN.eff (dw d) (l / 32) (l % 32) = 1 then min port (k.td T.SHP_PORT_RATE.eff (dw d) (l / 32) (l % 32))
  else port

/-- W_q of R519 in ns for queue `q` of the round-robin group, rounded up, or none where the part gives no bound: every strict
queue needs its shaper with OVH of 20 or more, and their rates must stay below the port's. -/
def Core.waitBound (k : Core) (d l q : Nat) : Option Nat :=
  let w := dw d
  let f (t : TFld) (s : Nat) : Nat := k.td t.eff w (l / 32) (l % 32 * 16 + s)
  let ss := k.strictQueues d l
  let sum (x : List Nat) : Nat := x.foldl (· + ·) 0
  let rates := sum (ss.map (f T.SHP_Q_RATE))
  let others := ((List.range 16).filter fun o => o != q && !ss.contains o).map fun o => (k.quantum d l o + k.mtu d l) * 84
  if ss.all (fun s => f T.SHP_Q_EN s == 1 && decide (20 ≤ ovh8 (f T.SHP_Q_OVH s))) ∧ rates < k.serveRate d l then
    some (ceilDiv (8 * (64 * (sum (ss.map fun s => f T.SHP_Q_BURST s + k.mtu d l + 20) + k.mtu d l + 20) + sum others) *
      1000000) (64 * (k.serveRate d l - rates)))
  else none

/-- The stronger condition of R520 for a gated queue: its open interval per cycle, joined across the cycle's end, holds W_q and
one frame of the MTU. -/
def Core.gateServes (k : Core) (d l q : Nat) : Bool :=
  match k.ephAt d l 0, k.waitBound d l q with
  | some es, some w =>
    decide ((w * 65536 + k.frameUnits d l (k.mtu d l)) * 2 ^ 32 ≤ longestOpen es q * k.cycleUnits)
  | _, _ => false

end Sys2Proof.Machine
end

