-- ==== Sys2Proof/Machine/Package.lean ====
section
/-!
DEFINITION. The package as the rules give it: die positions (R662), cable contacts (R663), ball groups (R661, R665), rails and
their order (R667 to R670), input limits (R675, R677), cooling (R681, R682) and the bounds of a start (R689, R690). Values in
millivolts, milliwatts, microseconds and millidegrees.
-/
namespace Sys2Proof.Machine

/-! ### Positions and contacts -/

/-- A place of the 3 × 3 array: row from the north and column from the west, 0 to 2 (R662). -/
structure Spot where
  row : Nat
  col : Nat
  deriving DecidableEq, Repr

/-- The place of the Meridian die. -/
def meridianSpot : Spot := ⟨1, 1⟩

/-- The place of a port die (R662). -/
def spotOf (d : Fin 8) : Spot :=
  match d with
  | 0 => ⟨0, 1⟩
  | 1 => ⟨1, 2⟩
  | 2 => ⟨2, 1⟩
  | 3 => ⟨1, 0⟩
  | 4 => ⟨0, 2⟩
  | 5 => ⟨2, 2⟩
  | 6 => ⟨2, 0⟩
  | 7 => ⟨0, 0⟩

/-- A corner place. -/
def Spot.corner (x : Spot) : Bool := x.row != 1 && x.col != 1

/-- The connector of a lane above its die, which is its pipeline (R663). -/
def connectorOf (lane : Nat) : Nat := lane / 32

/-- The contact pair of a lane in its connector: the even one transmits, the odd one receives (R663). -/
def contactOf (lane : Nat) (rx : Bool) : Nat := 2 * (lane % 32) + (if rx then 1 else 0)

/-! ### Balls and rails -/

/-- Balls on a side of the array (R661). -/
def ballSide : Nat := 96

/-- The ball groups and their sizes (R665). -/
def ballGroups : List (String × Nat) :=
  [("VDD_CORE", 2560), ("VDD_CORE_M", 360), ("VDD_SRAM", 640), ("VDD_SERDES", 768), ("VDD_SERDES_HV", 128), ("VDD_SHN", 320),
   ("VDD_HOST", 96), ("VDD_IO", 48), ("VSS", 3996), ("PCIe host port", 34), ("CXL root ports", 130),
   ("reference and timing", 6), ("boot flash", 12), ("PMBus", 3), ("control", 6), ("debug", 6), ("rail sense", 50),
   ("reserved", 53)]

/-- A supply rail (R667): RAIL code of R673, nominal, the range it may be set in, tolerance in 0.1 %, power-up group. -/
structure Rail where
  code : Nat
  nominal : Nat
  lo : Nat
  hi : Nat
  tol : Nat
  group : Nat
  deriving DecidableEq, Repr

/-- The rails of R667. -/
def rails : List Rail :=
  [⟨8, 1800, 1800, 1800, 50, 1⟩, ⟨1, 720, 600, 850, 20, 2⟩, ⟨6, 720, 600, 850, 20, 2⟩, ⟨2, 750, 750, 750, 20, 3⟩,
   ⟨5, 650, 650, 650, 20, 3⟩, ⟨7, 800, 800, 800, 20, 3⟩, ⟨3, 750, 750, 750, 15, 4⟩, ⟨4, 1200, 1200, 1200, 30, 5⟩]

/-- What the board must deliver on a rail, in A: VDD_SHN by the number of port dies (R667). -/
def railAmps (dies code : Nat) : Nat :=
  match code with
  | 1 => 352
  | 2 => 99
  | 3 => 242
  | 4 => 25
  | 5 => 45 * dies + 120
  | 6 => 450
  | 7 => 30
  | _ => 3

/-- A rail stands within its tolerance of a setpoint (R667). -/
def Rail.within (r : Rail) (set mv : Nat) : Bool :=
  decide (r.lo ≤ set ∧ set ≤ r.hi ∧ 1000 * mv ≤ set * (1000 + r.tol) ∧ set * (1000 - r.tol) ≤ 1000 * mv)

/-- A rail's rise at power-up: when it begins, when it reaches 95 % of its nominal value, when it is within tolerance, in µs. -/
structure Rise where
  rail : Rail
  start : Nat
  most : Nat
  full : Nat

/-- The order of R669: each rise lasts 0.1 to 10 ms, no group begins before the one before it has reached 95 %, and PWR_GOOD
follows 1 ms after the last. -/
def powerUpOk (rs : List Rise) (pwrGood : Nat) : Bool :=
  rs.all fun r => decide (r.start ≤ r.most ∧ r.most ≤ r.full ∧ r.start + 100 ≤ r.full ∧ r.full ≤ r.start + 10000 ∧
      r.full + 1000 ≤ pwrGood) &&
    rs.all fun x => decide (x.rail.group + 1 ≠ r.rail.group ∨ x.most ≤ r.start)

/-- The order of R670: PWR_GOOD falls or SYS_RST_N is asserted at `warn`, 1 ms before any rail leaves its tolerance (`leave`);
then the groups go in reverse, or all within 10 ms with VDD_IO last. -/
def powerDownOk (warn : Nat) (leave : List (Rail × Nat)) : Bool :=
  leave.all (fun x => decide (warn + 1000 ≤ x.2)) &&
    (leave.all (fun x => leave.all fun y => decide (x.1.group ≤ y.1.group ∨ x.2 ≤ y.2)) ||
      (leave.all (fun x => leave.all fun y => decide (x.2 ≤ y.2 + 10000)) &&
        leave.all fun x => leave.all fun y => decide (x.1.code ≠ 8 ∨ y.2 ≤ x.2)))

/-! ### Inputs (R675, R677) -/

/-- What a 1.8 V input recognises at a level in mV; in between nothing is stated (R677). -/
def inputLevel (mv : Nat) : Option Bool := if mv ≤ 630 then some false else if 1170 ≤ mv then some true else none

/-- The filter of EXT_THROT_N: an assertion shorter than 100 ns is ignored (R677). -/
def extSeen (ns : Nat) : Bool := decide (100 ≤ ns)

/-- REFCLK lies within 156.25 MHz ± 50 ppm, in Hz (R675). -/
def refclkOk (hz : Nat) : Bool := decide (156250000 * 999950 ≤ hz * 1000000 ∧ hz * 1000000 ≤ 156250000 * 1000050)

/-- PCIE_REFCLK and CXL_REFCLK lie within 100 MHz ± 300 ppm (R675). -/
def hostClkOk (hz : Nat) : Bool := decide (100000000 * 999700 ≤ hz * 1000000 ∧ hz * 1000000 ≤ 100000000 * 1000300)

/-- A pulse of PPS_IN, in ns (R675). -/
def ppsPulseOk (width rise : Nat) : Bool := decide (100 ≤ width ∧ width ≤ 900000000 ∧ rise ≤ 10)

/-- A period of MAINS_REF and its high time, in ns (R675). -/
def mainsPulseOk (period high : Nat) : Bool :=
  decide (1000000000 ≤ period * 65 ∧ period * 45 ≤ 1000000000 ∧ period * 30 ≤ high * 100 ∧ high * 100 ≤ period * 70)

/-! ### Cooling and the bounds of a start -/

/-- The most a junction stands above the lid top at a dissipation in mW, in millidegrees: 0.045 °C/W on a port die, 0.050 °C/W
on the Meridian die (R682). -/
def junctionRise (meridian : Bool) (mw : Nat) : Nat := mw * (if meridian then 50 else 45) / 1000

/-- The junction limits of R681: mean 95 °C and peak 105 °C, in millidegrees. -/
def junctionOk (mean peak : Nat) : Bool := decide (mean ≤ 95000 ∧ peak ≤ 105000)

/-- The bound on traffic-ready in µs from PWR_GOOD: R689 with what R690 adds for boot images that failed and CXL retries. -/
def readyBound (dies badImages cxlRetries : Nat) : Nat :=
  (if dies = 2 then 1600000 else if dies = 4 then 1900000 else 2500000) + 200000 * badImages + 100000 * cxlRetries

end Sys2Proof.Machine
end

