-- ==== Sys2Proof/WellFormed.lean ====
section
/-!
DEFINITION. Which commands are well formed: their operands lie where the spec puts the command (an address in its window, an
aligned register, a window of the table named, lists no longer than the lanes or dies they speak of). The meanings are
total; this says which terms a sender can build.
-/
namespace Sys2Proof

/-- A BAR0 address in a port-die window (R70). -/
def inPortWindow (addr : BitVec 28) : Bool := decide (1 ≤ addr.toNat / 2 ^ 24 ∧ addr.toNat / 2 ^ 24 ≤ 8)

/-- A BAR0 address outside the pages of R75: in the reserved range, or on a page that no block of its window (the broadcast
window shows port dies) has, or on the mailbox page of a die controller, which is reserved where the die is absent (R733). -/
def reservedAddress (addr : BitVec 28) : Bool :=
  let w := addr.toNat / 2 ^ 24
  let page := addr.toNat / 4096 % 4096
  decide (9 ≤ w ∧ w ≤ 14) || (Machine.blockOf w page).isNone || (w == 0 && decide (0xB4 ≤ page ∧ page ≤ 0xBB))

/-- An access that R91 does not allow: not whole aligned words, or past its page (R92). -/
def badAccess (addr : BitVec 28) (len : Nat) : Bool :=
  addr.toNat % 4 != 0 || len % 4 != 0 || len == 0 || decide (4096 < addr.toNat % 4096 + len)

/-- An aligned register address of a die window. -/
def wordAddress (addr : BitVec 28) : Bool := decide (addr.toNat % 4 = 0) && decide (addr.toNat / 2 ^ 24 ≤ 8)

/-- A run of `more + 1` registers from an aligned address of a die window: at most 64 bytes, within one page (R91). -/
def wordRun (addr : BitVec 28) (more : Nat) : Bool :=
  wordAddress addr && decide (more < 16 ∧ addr.toNat % 4096 + 4 * more < 4096)

/-- The table has a window on this die window at this repeated page. -/
def windowStands (w tab p : Nat) : Bool :=
  indWins.any fun x => x.tab == tab && (x.port == (w != 0)) && decide (p < x.pages)

/-- The command is well formed. -/
def Instr.wf (i : Instr) : Bool :=
  match i with
  | .registerWrite _ addr _ more _ => wordRun addr more.length
  | .unpopulatedWindowAccess _ addr _ => inPortWindow addr
  | .reservedRangeAccess _ addr _ => reservedAddress addr
  | .badWidthAccess _ addr len _ => badAccess addr len
  | .broadcastWrite _ off _ more => decide (off.toNat % 4 = 0 ∧ more.length < 16 ∧ off.toNat % 4096 + 4 * more.length < 4096)
  | .broadcastRead _ off => decide (off.toNat % 4 = 0)
  | .rcReadClear _ addr more => wordRun addr more
  | .lowHalfReadLatch _ addr _ => wordAddress addr
  | .lowHalfWriteHold _ addr _ => wordAddress addr
  | .highHalfWrite _ addr _ => wordAddress addr
  | .rwdHoldRelease _ _ _ => true
  | .pageOwnerWrite _ _ _ _ => true
  | .indRead _ w tab p _ => windowStands w tab p
  | .indWrite _ w tab p _ => windowStands w tab p
  | .indOpComplete w tab p _ _ => windowStands w tab p
  | .ceBucketLeak _ _ _ => true
  | .evtForce _ _ _ _ => true
  | .evtPendingClear _ _ _ _ => true
  | .evtSrcPendingUpdate _ _ => true
  | .evtVecArm _ _ _ => true
  | .msixMessageSend _ _ => true
  | .lockAcquireRead _ _ => true
  | .lockRelease _ _ _ => true
  | .lockBreakWrite _ _ _ => true
  | .lockHoldLimitWrite _ _ => true
  | .lockHoldExpire _ => true
  | .frameReceive _ _ frame _ _ line => decide (0 < frame.length) || !line.isEmpty
  | .xoffEval _ _ _ => true
  | .ingressParse _ _ _ _ => true
  | .stageExecute _ _ => true
  | .deepLookupReturn _ _ _ => true
  | .parkStallRelease _ => true
  | .parkWake _ => true
  | .parkReentry _ _ => true
  | .parkTimeout _ => true
  | .orderHoldRelease _ _ => true
  | .storeWordRewrite _ _ _ _ _ => true
  | .hwLearn _ => true
  | .learnMessageForward => true
  | .learnMessageApply _ => true
  | .learnReject _ => true
  | .deleteMessageApply _ => true
  | .touchSend _ => true
  | .touchApply _ => true
  | .learnRecordExpire _ => true
  | .sweepPass _ _ => true
  | .catalogueRepair _ _ => true
  | .prefixRepair _ _ => true
  | .catInsert _ _ _ _ _ _ _ => true
  | .catDelete _ _ _ _ _ => true
  | .catSearch _ _ _ _ _ _ _ => true
  | .catNext _ _ _ _ _ _ => true
  | .catFlushByPort _ _ _ _ _ => true
  | .sweepPause _ _ _ _ => true
  | .sweepResume _ _ _ _ => true
  | .sweepStartNow _ _ _ _ _ => true
  | .catDeepInsert _ _ _ _ _ _ => true
  | .catDeepDelete _ _ _ _ _ => true
  | .catDeepSearch _ _ _ _ _ => true
  | .catCmdResponsePost _ => true
  | .catRspPop _ _ => true
  | .deepCfgWrite _ _ _ _ _ _ => true
  | .lpmInsert _ _ _ _ _ _ _ => true
  | .lpmDelete _ _ _ _ _ _ _ => true
  | .lpmSearch _ _ _ _ _ _ _ => true
  | .lpmLookupCmd _ _ _ _ _ _ _ => true
  | .lpmRspPop _ _ => true
  | .filterKeyCommit _ _ _ _ _ _ _ => true
  | .filterActionWrite _ _ _ _ _ _ _ => true
  | .filterBgCompare _ _ _ _ _ => true
  | .localTransfer _ _ _ _ _ => true
  | .stopMessageReceive _ _ _ _ => true
  | .crossbarMatch => true
  | .parcelLaunch _ _ _ _ _ => true
  | .parcelArrival _ _ _ _ _ => true
  | .parcelAckReceive _ _ => true
  | .parcelNackReceive _ _ => true
  | .parcelAckTimeout _ _ => true
  | .egressSelect _ _ _ => true
  | .plateRecordWrite _ => true
  | .collectorFrameInject _ _ _ => true
  | .transmitComplete _ _ _ => true
  | .etsPop _ _ => true
  | .pfcFrameSend _ _ => true
  | .pfcRepeat _ _ => true
  | .macControlReceive _ _ frame => decide (0 < frame.length)
  | .pfcPauseExpire _ _ _ => true
  | .watchdogDiscard _ _ _ => true
  | .watchdogExit _ _ _ => true
  | .downHoldExpire _ _ => true
  | .spillFetch _ _ _ => true
  | .spillFetchReturn _ _ => true
  | .shaperRefill _ => true
  | .rampStep _ _ => true
  | .rampIdleReset _ _ => true
  | .gateChange _ _ _ => true
  | .polClr _ _ _ => true
  | .polCtxWrite _ _ _ _ _ _ _ _ => true
  | .hqTailWrite _ _ _ _ => true
  | .hostFrameInject _ _ _ _ _ _ => true
  | .hostRxDeliver _ _ _ _ => true
  | .mbxGo _ _ => true
  | .mbxTake _ _ => true
  | .mbxDone _ _ => true
  | .mbxRelease _ _ => true
  | .startStatusGet _ => true
  | .sensorsRead _ => true
  | .sensorsLogCfg _ => true
  | .sensorLogPeriod => true
  | .programChangeLoad _ _ _ => true
  | .programChangeRestore _ => true
  | .epochFlipIn _ _ _ => true
  | .epochFlipEg _ _ _ => true
  | .epochFlipApply _ _ => true
  | .oldHalfIdle _ _ => true
  | .repairMapRead _ _ => true
  | .repairMapAdd _ _ => true
  | .repairMapRemove _ => true
  | .quote _ _ _ => true
  | .certificateGet _ _ => true
  | .ownerKeyAdd _ _ _ => true
  | .ownerKeyRevoke _ _ => true
  | .rollbackCommit _ _ => true
  | .fuseLockMatrix _ _ _ => true
  | .fuseLockDebugOff _ _ => true
  | .fuseLockBoth _ _ _ => true
  | .updateStage _ _ => true
  | .updateApply _ _ => true
  | .confirm _ => true
  | .boardDescriptionWrite _ _ => true
  | .recoveryStage _ _ => true
  | .recoveryWrite _ _ => true
  | .dieReport _ => true
  | .focusContribution _ _ _ => true
  | .openNoticeReceive _ => true
  | .partialCellArrival _ _ _ => true
  | .partialAckReceive _ => true
  | .partialNackReceive _ => true
  | .partialAckTimeout _ => true
  | .resultInject _ _ _ => true
  | .closeMessageReceive _ => true
  | .chunkTimerExpire _ _ => true
  | .memberBitmapReply _ => true
  | .errorInject _ _ => true
  | .focusCreate _ _ _ => true
  | .focusDestroy _ _ _ => true
  | .mainsEdge _ _ => true
  | .ppsEdge _ => true
  | .tenMhzLoss => true
  | .freqAdjWrite _ _ => true
  | .missingEdge _ => true
  | .sourceSelect _ _ _ => true
  | .stepGo _ => true
  | .cycleBoundary => true
  | .ephSwapGo _ _ _ _ => true
  | .ephSwapValidate _ _ => true
  | .ephEnableWrite _ _ _ _ _ => true
  | .followerSyncLoss _ => true
  | .portEnable _ _ _ => true
  | .portDisable _ _ _ _ => true
  | .laneStateRequest _ _ _ _ => true
  | .lanesReady _ _ => true
  | .autonegComplete _ _ _ => true
  | .trainingComplete _ _ coefficients _ _ => decide (coefficients.length ≤ 8)
  | .linkUp _ _ _ _ => true
  | .attemptTimeout _ _ _ _ => true
  | .backoffExpire _ _ => true
  | .linkDown _ _ _ _ => true
  | .rtcScanGo _ _ _ _ => true
  | .rtcScanAbort _ _ _ _ => true
  | .scanComplete _ _ _ => true
  | .backgroundScan _ _ _ => true
  | .calibrationGo _ _ _ _ => true
  | .calibrationComplete _ _ _ => true
  | .spareSubstituteGo _ _ _ _ => true
  | .substitutionComplete _ _ _ => true
  | .sliceDegraded _ _ => true
  | .octetConfigWrite _ _ _ _ => true
  | .flitReceive _ _ _ _ => true
  | .flitRetryRequest _ _ _ => true
  | .retrainComplete _ _ => true
  | .retrainTimeout _ _ => true
  | .scrubGo _ _ => true
  | .scrubAbort _ _ => true
  | .scrubUnit _ _ _ _ _ _ => true
  | .bistGo _ _ _ => true
  | .bistComplete _ _ _ _ _ => true
  | .shnSpareGo _ _ _ _ => true
  | .shnSpareComplete _ _ _ => true
  | .cxlRegionEnable _ _ _ => true
  | .regionCommitComplete _ => true
  | .cxlRegionDisable _ _ _ => true
  | .cxlBudgetRefill => true
  | .cxlRequestTimeout _ _ => true
  | .cxlDeviceLost _ => true
  | .cxlPortRestart _ _ => true
  | .cxlRestartComplete _ _ _ _ => true
  | .cxlRdRead _ => true
  | .pmuEpoch readings => decide (readings.length ≤ 9)
  | .extThrotAssert => true
  | .extThrotDeassert => true
  | .droopDetect _ => true
  | .droopStretchEnd _ => true
  | .voltageStep _ => true
  | .pmbusPoll _ => true
  | .senseGainCorrect _ _ => true
  | .ageingMeasure readings => decide (readings.length ≤ 9)
  | .ageMeasureCmd _ _ => true
  | .ageMeasureRetry readings => decide (readings.length ≤ 9)
  | .lifeRecordWrite => true
  | .powerUp _ _ => true
  | .pwrGoodLoss => true
  | .sysRstAssert => true
  | .warmReset _ _ => true
  | .mpReset _ _ => true
  | .hostPortReset _ => true
  | .perstDeassert => true
  | .functionLevelReset _ => true
  | .thermalTrip => true
  | .dieFatalError _ => true
  | .measExtend _ => true
  | .counterWrap _ _ _ => true
  | .userPageRead _ _ => true
  | .userPageWrite _ _ _ => true
  | .pstatClear _ _ _ => true
  | .sysRstRelease _ => true
  | .followerSyncRegain _ => true
  | .wireMarginBelowLimit _ _ _ _ _ _ => true

end Sys2Proof
end

