-- ==== Sys2Proof/Tests/Slice0.lean ====
section
/-!
SUPPORT. The model's own tests, none of them a statement for the provers: well-formed and ill-formed commands, reset, a few
results worked out from the spec by hand, and for every statement with hypotheses a concrete state and operands that meet
them, clause by clause (`witness_<Statement>`).
-/
namespace Sys2Proof.Tests
-- One proof after another: many evaluations at once ask for more threads than the memory limit gives stacks for.
set_option Elab.async false
open Sys2Proof Sys2Proof.Machine

/-- A part of 8 port dies at the end of its start: powered, host port up, all dies released, every pipeline ready. -/
def up : State :=
  { State.reset with core :=
    let k := (State.reset.core.wr R.PAG_BOOT_PROG_STEP 0 0 0 14).wr R.PAG_BOOT_PROG_RELEASED 0 0 0 0xFF
    { k with pack := { k.pack with power := true, hostUp := true, debugOn := true } } }

/-- The same part with its core changed. -/
def at' (f : Core → Core) : State := { up with core := f up.core }

/-- The same part with two port dies. -/
def small : State := at' fun k => { k with part := { k.part with dies := 2 } }

/-- The indirect window of a table. -/
def win (t : Nat) : IndWin := (winOf t).getD ⟨0, true, 0, 0, 0, 0, .rw⟩

/-- A frame of 64 bytes with a good frame check sequence and the given type. -/
def frameOf (type : Nat) : List Byte :=
  withFcs ([2, 0, 0, 0, 0, 1, 2, 0, 0, 0, 0, 2].map (BitVec.ofNat 8) ++ [BitVec.ofNat 8 (type / 256), BitVec.ofNat 8 type] ++
    List.replicate 46 0)

/-- A packet on the last pipeline of the last die, on its port of first lane 248. -/
def pkt0 : Pkt := freshPkt 1 7 7 248 0 false 2 (frameOf 0x0800) 0 0 0

/-- A part on which that packet stands somewhere. -/
def holding (p : Pkt) : Core → Core := fun k =>
  { k with
    pipes := { k.pipes with pkts := [p] }
    buf := { k.buf with groups := [freshGrp 2 7 1 248 0] } }

/-- A copy of its frame for queue 15 of a port of die 7. -/
def copy0 : Copy :=
  { id := 5, grp := 2, die := 7, pipe := 0, dp := 63, kind := .unicast, port := 7 * 256 + 248, queue := 15, group := 0,
    noIngress := false, tc := 0, inPort := 7 * 256, lossless := false, frame := frameOf 0x0800,
    carried := ⟨0, 0, 0, 0, 0, 0, 0⟩, entry := 0, replica := false, hostInjected := false, bad := false, cut := false,
    marked := false, short := false, aborted := false, sent := 0, tsTag := none, throttled := false, replayed := false,
    spilled := false, recirculated := false, timedOut := false, qdepth := 0, turn := 0, asked := 0 }

/-- Region `r`, of one unit on port 0, takes requests. -/
def region (r : Nat) : Core → Core := fun k =>
  ((((k.wr R.CXL_REG_EN 0 0 r 1).wr R.CXL_REG_COMMITTED 0 0 r 1).wr R.CXL_REG_STATE 0 0 r 1).wr R.CXL_REG_SIZE 0 0 r 1).wr
    R.CXL_PORT_STATUS_STATE 0 0 0 3

/-! ### Register space -/

theorem witness_RegisterAccess :
    splitAddr (0x80D0100#28).toNat = (dw 7, 0xD0, 0x100) ∧
    Serves up (.pf 0) (dw 7) 0xD0 0x100 true ∧
    (splitAddr (0x10D0110#28).toNat = (dw 0, 0xD0, 0x110) ∧ Serves up .mp (dw 0) 0xD0 0x110 true) ∧
    (splitAddr (0x1060140#28).toNat = (dw 0, 0x60, 0x140) ∧ Serves up .mp (dw 0) 0x60 0x140 true) ∧
    (splitAddr (0x1020104#28).toNat = (dw 0, 0x20, 0x104) ∧ Serves up .mp (dw 0) 0x20 0x104 true) ∧
    (splitAddr (0x802001C#28).toNat = (dw 7, 0x20, 0x01C) ∧ Serves up .mp (dw 7) 0x20 0x01C true) ∧
    (small.core.live = true ∧ splitAddr (0x3000000#28).toNat = (3, 0, 0) ∧ small.core.populated (3 - 1) = false ∧
      small.core.populated (8 - 1) = false) ∧
    (splitAddr (0x9000000#28).toNat = (9, 0, 0) ∧ splitAddr (0xEFFFFFC#28).toNat = (14, 0xFFF, 0xFFC) ∧
      up.core.serves (.pf 3) = true) ∧
    (splitAddr (0x0000102#28).toNat = (0, 0, 0x102) ∧ badWidth (0x0000102#28).toNat 4 = true ∧ up.core.pageExists 0 0 = true) ∧
    (splitAddr (0x8FFFFF8#28).toNat = (8, 0xFFF, 0xFF8) ∧ 0xFF8 % 4 = 0 ∧ 0xFF8 + 4 < 4096) := by
  decide +kernel

theorem witness_BroadcastWindow :
    small.core.live = true ∧ splitAddr (0x0D0100#24).toNat = (0, 0xD0, 0x100) ∧ small.core.part.dies = 2 ∧
    small.core.broadcastVerdict .mp 0xD0 0x100 true = .ok ∧ small.core.verdict .mp 2 0xD0 0x100 true = .ok ∧
    small.core.broadcastVerdict (.pf 0) 0xD0 0x100 false = .ok ∧ small.core.populated 0 = true := by decide +kernel

theorem witness_ReadEffectsAndHalves :
    (splitAddr (0x800F11C#28).toNat = (dw 7, 8 + 7, 0x11C) ∧ Serves up .mp (dw 7) (8 + 7) 0x11C false ∧ up.core.io.latch = []) ∧
    (splitAddr (0x10CC110#28).toNat = (dw 0, 0xCC, 0x110) ∧ Serves up .mp (dw 0) 0xCC 0x110 false) ∧
    (splitAddr (0x10CC5F8#28).toNat = (dw 0, 0xCC, 0x400 + 8 * 63) ∧ Serves up .mp (dw 0) 0xCC (0x400 + 8 * 63) true) ∧
    (splitAddr (0x10CC404#28).toNat = (dw 0, 0xCC, 0x404) ∧ Serves up .mp (dw 0) 0xCC 0x404 true) := by decide +kernel

theorem witness_PageControlWrites :
    Serves up .mp 8 0xD0 0x008 true ∧ Serves up (.pf 0) 0 0xB0 0x024 true ∧ Serves up .mp 8 0xD0 0x024 true ∧
    Serves up .debug 0 0x004 0x024 true ∧ (5#32).toNat % 16 ≠ 6 ∧ (5#32).toNat % 16 ≠ 7 := by decide +kernel


/-- An operation in progress. -/
def opOf (t w p : Nat) (write : Bool) : IndOp := ⟨t, w, (win t).page + p, (win t).base, write, false, 4, 0⟩

theorem witness_IndirectWindows :
    (winOf Tab.HVX_MCG = some (win Tab.HVX_MCG) ∧ indStands (win Tab.HVX_MCG) 8 7 = true ∧
      Serves up .mp 8 ((win Tab.HVX_MCG).page + 7) ((win Tab.HVX_MCG).base + 4) true ∧
      up.core.indBusy 8 ((win Tab.HVX_MCG).page + 7) = false ∧ (win Tab.HVX_MCG).kind ≠ .store) ∧
    (winOf Tab.SEQ_IND = some (win Tab.SEQ_IND) ∧ indStands (win Tab.SEQ_IND) 1 0 = true ∧ (win Tab.SEQ_IND).kind = .store ∧
      Serves up .mp 1 (win Tab.SEQ_IND).page ((win Tab.SEQ_IND).base + 4) true ∧
      Serves up (.pf 0) 1 (win Tab.SEQ_IND).page ((win Tab.SEQ_IND).base + 4) true ∧
      up.core.indBusy 1 (win Tab.SEQ_IND).page = false) ∧
    (let s := at' (·.onIo fun io => { io with ind := [opOf Tab.HVX_MCG 8 7 true] })
     Serves s .mp 8 ((win Tab.HVX_MCG).page + 7) ((win Tab.HVX_MCG).base + 4) true ∧
      s.core.indBusy 8 ((win Tab.HVX_MCG).page + 7) = true) ∧
    (∀ write : Bool,
     let s := at' fun k => (k.wr (indAddr (win Tab.HVX_MCG)) (dw 7) 7 0 16383).onIo fun io =>
       { io with ind := [opOf Tab.HVX_MCG 8 7 write] }
     s.core.live = true ∧ s.core.rd (indAddr (win Tab.HVX_MCG)) (dw 7) 7 0 = 16383 ∧
      s.core.underTest (win Tab.HVX_MCG) (dw 7) 7 = false ∧
      s.core.io.ind.find? (fun o => o.tab == Tab.HVX_MCG && o.win == dw 7 && o.page == (win Tab.HVX_MCG).page + 7) =
        some (opOf Tab.HVX_MCG 8 7 write)) ∧
    (let s := at' fun k => (region 0 (k.wr (indAddr (win Tab.CXL_RD)) 0 0 0 4194303)).onIo fun io =>
       { io with ind := [opOf Tab.CXL_RD 0 0 false] }
     s.core.live = true ∧ winOf Tab.CXL_RD = some (win Tab.CXL_RD) ∧
      s.core.io.ind.find? (fun o => o.tab == Tab.CXL_RD && o.win == 0 && o.page == (win Tab.CXL_RD).page) =
        some (opOf Tab.CXL_RD 0 0 false) ∧
      s.core.rd R.CXL_RD_SEL_REGION 0 0 0 = 0 ∧ s.core.rd (indAddr (win Tab.CXL_RD)) 0 0 0 = 4194303 ∧ 64 ≤ s.core.tokens 0 ∧
      s.core.regionOn 0 = true ∧ s.core.cxlUp (s.core.regionPort 0) = true ∧ 4194303 < s.core.regionLines 0 ∧
      (opOf Tab.CXL_RD 0 0 false).master = 4 ∧ (opOf Tab.CXL_RD 0 0 false).refused = false) := by decide +kernel

theorem witness_EventsAndVectors :
    (Serves up .mp 8 0xD0 0x01C true ∧ Serves up (.pf 0) 0 0xA0 0x018 true) ∧
    (up.core.live = true ∧ up.core.populated 7 = true ∧ (blockOf (dw 7) 0xD0).isSome = true) ∧
    (Serves up .mp 0 0x002 0x204 true ∧ Serves up .mp 0 0x002 0x200 true ∧ up.core.io.w1c = []) ∧
    (let s := at' fun k => ((((k.wr R.EVT_VEC_CFG_EN 0 0 0 1).wr R.EVT_VEC_ARM_LO 0 0 0 1).wr R.EVT_ENABLE 0 0x004 0 1).wr R.EVT_PENDING 0 0x004 0
       1).onIo (·.refreshSource 0 0x004)
     s.core.live = true ∧ s.core.rd R.EVT_VEC_CFG_EN 0 0 0 = 1 ∧ bit s.core.armed 0 = 1 ∧
      s.core.vecActive 0 = true ∧
      s.core.io.vecLast.get 0 = 0 ∧ s.core.io.pba = []) := by decide +kernel

/-- A lock held by a master since a time. -/
def locked (i m since : Nat) : Core → Core := fun k =>
  ((k.wr R.LCK_LOCK_HELD 0 0 i 1).wr R.LCK_LOCK_OWNER 0 0 i m).onIo fun io => { io with lockSince := io.lockSince.set i (since + 1) }

theorem witness_LockRegisters :
    (Serves up .mp 0 0x004 (0x100 + 4 * 63) false ∧ up.core.lockHeld 63 = false ∧
      Serves up .mp 0 0x004 (0x100 + 4 * 63) true) ∧
    (let s := at' (locked 0 4 0)
     Serves s .mp 0 0x004 0x100 false ∧ s.core.lockHeld 0 = true ∧ Serves s .mp 0 0x004 0x100 true ∧
      s.core.rd R.LCK_LOCK_OWNER 0 0 0 = Master.mp.id ∧ (4#32).toNat % 16 = Master.mp.id ∧
      s.core.rd R.LCK_LOCK_OWNER 0 0 0 ≠ (Master.pf 0).id ∧ Serves s (.pf 0) 0 0x004 0x100 true) ∧
    (let s := at' fun k => let k := locked 0 4 0 k
       { (k.wr R.LCK_CFG_HOLD_LIMIT 0 0 0 1) with time := { k.time with now := 1001 } }
     s.core.live = true ∧ s.core.lockHeld 0 = true ∧ 0 ∉ s.core.io.lockRaised ∧
      s.core.io.lockSince.get 0 - 1 + s.core.rd R.LCK_CFG_HOLD_LIMIT 0 0 0 * 1000 < s.core.time.now) ∧
    (let s := at' (locked 31 4 0)
     Serves s (.pf 0) 0 0x004 0x208 true ∧ (0x80000000#32).toNat = 2 ^ 31 ∧ s.core.lockHeld 31 = true) ∧
    Serves up .debug 0 0x004 0x208 true ∧ Serves up .mp 0 0x004 0x210 true ∧ (∀ i < 64, up.core.lockHeld i = false) := by
  decide +kernel

/-! ### Reception, pipelines, buffer -/

theorem witness_FrameReceive :
    up.core.receives 7 248 = false ∧
    (∀ ready ∈ [0, 1],
      let k := (at' fun k => (k.wr R.SEQ_STATUS_READY (dw 7) 7 0 ready).tw T.BUF_PORT_LINK_UP (dw 7) 0 248 1).core
      k.receives 7 248 = true ∧ (k.wordsSeen 7 248 (k.codedWords 7 248 []) false).macReady 7 248 = (ready == 1)) ∧
    ((frameOf 0x0800).take 63).length < 64 ∧
    let s := at' fun k => (k.wr R.SEQ_STATUS_READY (dw 7) 7 0 1).tw T.BUF_PORT_LINK_UP (dw 7) 0 248 1
    let frame := frameOf 0x0800
    let ws := s.core.codedWords 7 248 []
    let k0 := s.core.wordsSeen 7 248 ws false
    let k1 := (k0.pstat 7 248 10 frame.length).rxStats 7 248 frame false true
    s.core.live = true ∧ s.core.receives 7 248 = true ∧ ws.any (s.core.lineForm 7 248).spoilt = false ∧
    k0.macReady 7 248 = true ∧ 64 ≤ frame.length ∧ frame.length ≤ 256 ∧
    frame.length ≤ k0.mtu 7 248 ∧ fcsGood frame = true ∧ getBe frame 12 2 ≠ 0x8808 ∧
    k1.admitCell 7 248 (k1.classify 7 248 frame).1 true = .minimum := by decide +kernel

/-- A part with a lossless group 7 on a port, in or out of XOFF, using some headroom. -/
def lossless (xoff hdrm : Nat) : Core → Core := fun k =>
  ((k.tw T.BUF_PORT_LOSSLESS (dw 7) 0 248 0x80).tw T.BUF_PORT_XOFF_TX (dw 7) 0 248 xoff).tw T.BUF_PG_HDRM_USED (dw 7) 0
    (248 * 8 + 7) hdrm

theorem witness_XoffEvaluation :
    (let k := (at' (lossless 0 1)).core
     k.live = true ∧ k.portExists 7 248 = true ∧ k.losslessPg 7 248 7 = true ∧ k.inXoff 7 248 7 = false ∧ 0 < k.ingH 7 248 7) ∧
    (let k := (at' (lossless 0x80 0)).core
     k.inXoff 7 248 7 = true ∧ k.ingH 7 248 7 = 0 ∧
      underLimit (k.ingS 7 248 7) (k.td T.BUF_PG_ALPHA (dw 7) 0 (248 * 8 + 7)) (k.freeCells 7)
        (k.td T.BUF_PG_XON_OFS (dw 7) 0 (248 * 8 + 7)) = true) ∧
    (let k := (at' (lossless 0x80 1)).core
     k.inXoff 7 248 7 = true ∧ k.ingH 7 248 7 ≠ 0) ∧
    (let k := (at' (lossless 0 0)).core
     k.inXoff 7 248 7 = false ∧ k.losslessPg 7 248 7 = true ∧ k.ingH 7 248 7 = 0 ∧
      overLimit (k.ingS 7 248 7) (k.td T.BUF_PG_ALPHA (dw 7) 0 (248 * 8 + 7)) (k.freeCells 7) = false) := by decide +kernel

theorem witness_IngressParse :
    let s := at' fun k => holding pkt0 (k.wr R.SEQ_STATUS_READY (dw 7) 7 0 1)
    s.core.live = true ∧
    s.core.pipes.pkts.find? (fun x => x.die == 7 && x.pipe == 7 && x.place == .arrived) = some pkt0 ∧
    s.core.rd R.SEQ_STATUS_READY (dw 7) 7 0 ≠ 0 := by decide +kernel

/-- A word sends its packet on. -/
def goes : StageEnd → Bool
  | .go _ => true
  | .wait _ => false

theorem witness_StageExecute :
    let p := { pkt0 with place := .stage, stage := 10 }
    let key := storeKey 7 7 10 0
    let s := at' (holding p)
    let word (w : Nat) : State := at' fun k => let k := holding p k
      { k with pipes := { k.pipes with store := k.pipes.store.set key w } }
    (s.core.live = true ∧ s.core.pkt 1 = some p ∧ p.place = .stage ∧ s.core.firstInStage p = true ∧ p.copy = none ∧
      p.ended = false ∧ p.stage < 11 ∧ p.reentry = false ∧ p.flags < 256 ∧ key ∉ s.core.pipes.storeUe ∧
      s.core.pipes.store.get key = 0) ∧
    (∀ q ∈ [{ p with ended := true }, { p with ended := true, stage := 17, copy := some copy0 }],
      (at' (holding q)).core.pkt 1 = some q ∧ (at' (holding q)).core.firstInStage q = true ∧ q.ended = true ∧
        (at' (holding q)).core.egressBehind q copy0 = false) ∧
    (let lost := (at' fun k => { holding p k with pipes := { (holding p k).pipes with storeUe := [key] } }).core
     lost.pkt 1 = some p ∧ lost.firstInStage p = true ∧ key ∈ lost.pipes.storeUe) ∧
    (∀ w ∈ [7, 0x10000006, 2 ^ 59], (word w).core.pkt 1 = some p ∧ (word w).core.firstInStage p = true ∧
      (word w).core.pipes.store.get key = w ∧ wLookup w = (w == 2 ^ 59)) ∧
    goes ((word 7).core.execWord p 7 none).2 = true ∧
    goes ((word 0x10000006).core.execWord p 0x10000006 none).2 = false := by decide +kernel

theorem witness_AluOperations :
    ∀ j < 4, 0x1A ≤ (aluField (0x1A * 2 ^ (82 + 28 * j)) j).op ∧ wordBreaks (0x1A * 2 ^ (82 + 28 * j)) 0 = false := by
  decide +kernel

theorem witness_Parking :
    let at1 (p : Pkt) : Core := (at' fun k =>
      let k := holding p ((k.wr R.SEQ_PARK_CFG_ENTRIES (dw 7) 7 0 1).wr R.SEQ_PARK_POOL_CELLS (dw 7) 7 0 1)
      { k with time := { k.time with now := 3000 } }).core
    let flag (p : Pkt) : Core := { at1 p with pipes := { (at1 p).pipes with
      store := (at1 p).pipes.store.set (storeKey 7 7 10 0) 0x10000006 } }
    let stalled := { pkt0 with place := .stalled true }
    let parked := { pkt0 with place := .parked 0x10 0 3, stage := 10 }
    let woken := { pkt0 with place := .woken 0x10 5 }
    let early := { parked with id := 3, parkSeq := 1 }
    let late := { parked with parkSeq := 2 }
    let two : Core := { at1 late with pipes := { (at1 late).pipes with pkts := [late, early] } }
    let held := { pkt0 with place := .held }
    ((at1 stalled).live = true ∧ (at1 stalled).pkt 1 = some stalled ∧
      (at1 stalled).canPark 7 7 ((at1 stalled).grpCells 2) = true) ∧
    ((at1 parked).pkt 1 = some parked ∧ (at1 parked).waitHolds parked ((at1 parked).wordOf parked) = true ∧
      (at1 parked).pipes.pkts.any ((at1 parked).readyBefore · parked) = false) ∧
    (two.pkt 1 = some late ∧ two.waitHolds late (two.wordOf late) = true ∧ two.pipes.pkts.any (two.readyBefore · late) = true) ∧
    ((at1 woken).pkt 1 = some woken ∧ (at1 woken).pipes.pkts.any ((at1 woken).wokenBefore · woken 5) = false) ∧
    ((flag parked).pkt 1 = some parked ∧ 0 + 3 * 1000 ≤ (flag parked).time.now ∧
      (flag parked).waitHolds parked ((flag parked).wordOf parked) = false ∧
      (flag parked).pipes.pkts.any ((flag parked).readyBefore · parked) = false) ∧
    ((at1 held).pkt 1 = some held ∧ ∀ x ∈ (at1 held).pipes.pkts, ¬ x.id < held.id) := by decide +kernel

theorem witness_DeepReturnAndRewrite :
    let p := { pkt0 with deep := .issued [0, 0, 0, 0] 0 }
    let k := (at' fun k =>
      let k := region 0 (region 1 (holding p ((k.wr R.CAT_DEEP_CFG_EN (dw 7) 0 0 1).wr R.CAT_DEEP_CFG_SIZE_LOG2 (dw 7) 0 0 10)))
      { k with pipes := { k.pipes with storeUe := [storeKey 7 7 17 4095] } }).core
    k.live = true ∧ k.pkt 1 = some p ∧ p.deep = .issued [0, 0, 0, 0] 0 ∧ k.deepOn 7 = true ∧ 128 ≤ k.tokens 1 ∧
    storeKey 7 7 17 4095 ∈ k.pipes.storeUe ∧ k.regionOn 0 = true ∧ k.tokens 0 ≠ 0 ∧
    (let q := { pkt0 with deep := .queued [0, 0, 0, 0] }
     let x : Core := { k with pipes := { k.pipes with pkts := q :: (List.range 256).map fun i => { p with id := i + 2 } } }
     x.pkt 1 = some q ∧ x.deepOn 7 = true ∧ x.deepFree 7 = false) := by decide +kernel

theorem witness_FlowControl :
    (let k := (at' fun k =>
       let k := ((((k.wr R.SEQ_STATUS_READY (dw 7) 7 0 1).tw T.BUF_PORT_LINK_UP (dw 7) 0 248 1).tw T.BUF_PORT_XOFF_TX (dw 7) 0 248 0x80).tw
         T.BUF_PORT_PFC_TX_EN (dw 7) 0 248 1)
       { k with buf := { k.buf with
           pfcDue := [(7 * 256 + 248, 0x80)], pauseEnd := k.buf.pauseEnd.set ((7 * 256 + 248) * 8 + 7) 1 } }).core
     k.live = true ∧ k.buf.pfcDue.find? (·.1 == 7 * 256 + 248) = some (7 * 256 + 248, 0x80) ∧ k.linkUp 7 248 = true ∧
      k.sendingOn 7 248 = false ∧ k.td T.BUF_PORT_XOFF_TX (dw 7) 0 248 ≠ 0 ∧ k.td T.BUF_PORT_PFC_TX_EN (dw 7) 0 248 = 1 ∧ k.portExists 7 248 = true ∧
      k.macReady 7 248 = true ∧ k.receives 7 248 = true ∧ 64 ≤ (frameOf 0x8808).length ∧ fcsGood (frameOf 0x8808) = true ∧ getBe (frameOf 0x8808) 12 2 = 0x8808 ∧
      k.buf.pauseEnd.get ((7 * 256 + 248) * 8 + 7) ≠ 0 ∧
      k.buf.pauseEnd.get ((7 * 256 + 248) * 8 + 7) - 1 ≤ k.time.now) ∧
    (let k := (at' fun k =>
       let k := ((k.wr R.BUF_WDOG_CFG_EN (dw 7) 0 0 1).tw T.BUF_PORT_PAUSED_RX (dw 7) 0 248 0x80).tw T.BUF_PFCRX_QMASK7
         (dw 7) 0 248 0x8000
       { k with
         buf := { k.buf with
           eq := [copy0]
           stuckSince := k.buf.stuckSince.set ((7 * 256 + 248) * 16 + 15) 1
           pauseEnd := k.buf.pauseEnd.set ((7 * 256 + 248) * 8 + 7) 200000000 }
         time := { k.time with now := 100000000 } }).core
     k.live = true ∧ k.rd R.BUF_WDOG_CFG_EN (dw 7) 0 0 = 1 ∧ k.marking 7 248 15 = false ∧ k.wdogDiscard 7 248 15 = false ∧
      k.pauseRuns 7 248 15 = true ∧ k.queueHolds 7 248 15 = true ∧ k.buf.stuckSince.get ((7 * 256 + 248) * 16 + 15) ≠ 0 ∧
      k.buf.stuckSince.get ((7 * 256 + 248) * 16 + 15) - 1 + k.rd R.BUF_WDOG_CFG_MS (dw 7) 0 0 * 1000000 ≤ k.time.now) ∧
    (let k := (at' fun k =>
       let k := k.tw T.BUF_PORT_WDOG_DISCARD (dw 7) 0 248 0x8000
       { k with time := { k.time with now := 100000000 } }).core
     k.live = true ∧ k.wdogDiscard 7 248 15 = true ∧ k.paused 7 248 15 = false ∧
      k.buf.lastPaused.get ((7 * 256 + 248) * 16 + 15) - 1 + k.rd R.BUF_WDOG_CFG_MS (dw 7) 0 0 * 1000000 ≤
        k.time.now) := by decide +kernel

theorem witness_LocalTransferAndStops :
    let k := (at' fun k => { k with buf := { k.buf with groups := [freshGrp 2 7 1 248 0], voq := [copy0] } }).core
    let k0 := k.voqsRead 7 [] none
    k.live = true ∧
    ((List.range 8).map fun i => (k0.buf.localTurn.get (8 * 7 + 7) + i) % 8).findSome? (fun src =>
      (k0.localOrder (8 * 7 + 7) src).findSome? fun tc => k0.voqHead 7 src (8 * 7 + 7) tc) = some copy0 ∧
    k.populated 7 = true ∧ k.fenced 7 = false := by decide +kernel

theorem witness_Spilling :
    let k := (at' fun k => { region 2 (k.wr R.BUF_SPILL_RSV_FETCH_CELLS (dw 7) 0 0 64) with
      buf := { k.buf with spilled := [copy0] } }).core
    let k' := (at' fun k => { k with buf := { k.buf with fetching := [copy0] } }).core
    (k.live = true ∧ k.buf.spilled.find? (fun c => c.port == 7 * 256 + 248 && c.queue == 15) = some copy0 ∧
      k.queueCells 7 248 15 < 64 ∧ k.regionOn 2 = true ∧ 256 * cellsOf copy0.frame.length ≤ k.tokens 2 ∧
      k.reserveUsed 7 + cellsOf copy0.frame.length ≤ k.rd R.BUF_SPILL_RSV_FETCH_CELLS (dw 7) 0 0) ∧
    (k'.live = true ∧ k'.buf.fetching.find? (·.die == 7) = some copy0) ∧
    k'.buf.spilled.find? (fun c => c.port == 7 * 256 + 248 && c.queue == 15) = none := by decide +kernel

/-! ### Lookup tables -/

/-- An entry of die 7. -/
def entOf (idx : Nat) (wide : Bool) (key home : Nat) : CatEnt := ⟨7, idx, wide, key, 9, false, true, home, false, false⟩

/-- A die 7 with no place for the wide key 0: its two buckets hold entries that have no other bucket, and its stash is full. -/
def fullDie : Core → Core := fun k =>
  let b := k.catBuckets 7 true 0
  { k with tables := { k.tables with
      ents := (placesOf b.1 true ++ placesOf b.2 true).map (fun i => entOf i true 8977 7) ++
        (List.range 16).map fun i => entOf (262144 + 2 * i) true 1 7 } }

/-- A part with a message under way. -/
def told (m : CatMsg) : Core → Core := fun k => { k with tables := { k.tables with msgs := [m] } }

/-- A part with a waiting learn on die 7. -/
def learning (l : CatLearn) : Core → Core := fun k => { k with tables := { k.tables with learns := [l] } }

theorem witness_LearnMessages :
    (let l : CatLearn := ⟨7, true, 0, 9, 0⟩
     let e : CatEnt := ⟨7, 0, true, 0, 9, false, true, 7, true, false⟩
     let k := (at' (learning l)).core
     let k0 := up.core
     k.live = true ∧ k.tables.learns.find? (·.die == 7) = some l ∧ (k0.catFind 7 true 0).isSome = false ∧
      ((k0.catForget 7 true 0).catApply e false 0).2 = true ∧
      ((((k0.catForget 7 true 0).catApply e false 0).1.catFind 7 true 0).any fun x => x.home == 7 && x.data == 9) = true) ∧
    (let l : CatLearn := ⟨7, true, 0, 9, 0⟩
     let k := (at' fun k => learning l (fullDie k)).core
     k.tables.learns.find? (·.die == 7) = some l ∧
      ((at' fullDie).core.catApply ⟨7, 0, true, 0, 9, false, true, 7, true, false⟩ false 0).2 = false) ∧
    (let m : CatMsg := ⟨.learn, 7, true, 0, 9, false, false, 0, true, none⟩
     (at' (told m)).core.tables.msgs.find? (·.atSender) = some m ∧ m.dst = none) ∧
    (let m : CatMsg := ⟨.learn, 0, true, 0, 9, false, false, 0, false, some 7⟩
     (at' (told m)).core.catInbox 7 = some m ∧ m.kind = .learn ∧
      (((at' (told m)).core.catTake m).catApply ⟨7, 0, true, 0, 9, false, true, 0, false, false⟩ false 0).2 = true ∧
      (((at' fun k => told m (fullDie k)).core.catTake m).catApply ⟨7, 0, true, 0, 9, false, true, 0, false, false⟩ false
        0).2 = false) ∧
    (∀ software : Bool,
     let m : CatMsg := ⟨.reject, 0, true, 0, 9, false, software, 0, false, some 7⟩
     (at' (told m)).core.catInbox 7 = some m ∧ m.kind = .reject ∧ m.software = software) := by decide +kernel

theorem witness_DeletesTouchesSweeps :
    (let m : CatMsg := ⟨.delete, 0, true, 0, 0, false, true, 0, false, some 7⟩
     (at' (told m)).core.catInbox 7 = some m ∧ m.kind = .delete ∧ m.software = true) ∧
    (262175 ∈ [262175] ∧ 262175 ∉ ([] : List Nat)) ∧
    (let m : CatMsg := ⟨.delete, 0, true, 0, 0, false, false, 0, false, some 7⟩
     ∀ home ∈ [0, 7],
       let k := (at' fun k => { told m k with tables := { (told m k).tables with ents := [entOf 0 true 0 home] } }).core
       k.live = true ∧ k.catInbox 7 = some m ∧ m.kind = .delete ∧ m.software = false ∧
        (k.catTake m).catFind 7 m.wide m.key = some (entOf 0 true 0 home)) ∧
    (let k := (at' fun k => { k with tables := { k.tables with touches := [(7, 0, true, 0)] } }).core
     k.tables.touches.find? (·.1 == 7) = some (7, 0, true, 0) ∧ k.fenced 0 = false) ∧
    (let m : CatMsg := ⟨.touch, 0, true, 0, 0, false, false, 0, false, some 7⟩
     let k := (at' fun k => { told m k with tables := { (told m k).tables with ents := [entOf 0 true 0 7] } }).core
     k.catInbox 7 = some m ∧ m.kind = .touch ∧ k.catFind 7 m.wide m.key = some (entOf 0 true 0 7)) ∧
    (let k := (at' (·.wr R.CAT_SWEEP_CFG_EN (dw 7) 0 0 1)).core
     k.rd R.CAT_SWEEP_CFG_EN (dw 7) 0 0 = 1 ∧ k.rd R.CAT_STATUS_SWEEP_PAUSED (dw 7) 0 0 = 0) ∧
    (∀ static hit mark : Bool,
      let e := { entOf 0 true 0 7 with static, hit, mark }
      e.home = e.die ∧ up.core.fenced e.die = false) := by decide +kernel

/-- A Catalogue command of die 7 with the given code. -/
def cmdOf (op : Nat) (noReplace : Bool) : CatCmd :=
  ⟨7, op, 1, false, true, false, noReplace, false, 0, 0, 9, 0, 0, false, [], false, 0, false, [], 0, []⟩

theorem witness_CatalogueCommands :
    (Serves up .mp (dw 7) 0x21 0x154 true ∧ up.core.tables.cmds = [] ∧ up.core.tables.rsps = []) ∧
    up.core.broadcastVerdict .mp 0x21 0x154 true = .ok ∧
    (let k := (at' fun k => { k with tables := { k.tables with cmds := List.replicate 16 (cmdOf 1 false) } }).core
     k.live = true ∧ k.verdict .mp (dw 7) 0x21 0x154 true = .ok ∧ 16 ≤ k.tables.cmds.countP (·.die == 7)) ∧
    ((cmdOf 2 false).op = 2 ∧ (cmdOf 4 false).op = 4 ∧ (cmdOf 4 false).cursor ≤ 262175 ∧ (cmdOf 5 false).op = 5) ∧
    (∀ n ∈ [0, 1, 2], { cmdOf 6 false with data := n }.op = 6) ∧ 262175 < { cmdOf 4 false with cursor := 262176 }.cursor ∧
    ((match (up.core.catRunOne (up.core.catStage 7 1 1 false true false false false false)).2 with
      | .waits _ _ => true
      | .finished _ => false) = true) ∧
    ((match (up.core.catRunOne (up.core.catStage 7 3 1 false true false false false false)).2 with
      | .waits _ _ => true
      | .finished _ => false) = false) ∧
    (at' (·.wr R.PAG_DIEMAP_FENCED 0 0 0 0x80)).core.fenced 7 = true ∧ up.core.fenced 7 = false ∧
    (let k := (at' fun k => { k with tables := { k.tables with ents := [entOf 0 true 0 7] } }).core
     k.catFind 7 true 0 = some (entOf 0 true 0 7) ∧ up.core.catFind 7 true 0 = none) ∧
    (let n : CatEnt := ⟨7, 0, true, 0, 9, false, false, 7, false, false⟩
     (at' fullDie).core.catPlace n = none ∧ (up.core.catPlace n).isSome = true) ∧
    ((cmdOf 1 true).op = 1 ∧ (cmdOf 1 true).noReplace = true ∧ (cmdOf 3 false).ue = false) := by decide +kernel

theorem witness_PlacingAnEntry :
    let e := entOf 0 true 0 7
    let one : Core → Core := fun k =>
      let b := k.catBuckets 7 true 0
      { k with tables := { k.tables with
          ents := (placesOf b.1 true ++ placesOf b.2 true).map fun i => entOf i true 3 7 } }
    (up.core.catPlace e).isSome = true ∧ ((at' one).core.catPlace e).isSome = true ∧
      (at' one).core.catFind 7 true 0 = none ∧ (at' one).core.tables.ents ≠ [] ∧
      ((at' fun k => { k with tables := { k.tables with ents := [e] } }).core.catPlace e).isSome = true := by decide +kernel

theorem witness_DeepCommandsAndResponses :
    (Serves up .mp (dw 7) 0x21 0x154 true ∧ up.core.tables.cmds = [] ∧ up.core.tables.rsps = [] ∧
      up.core.deepOn 7 = false) ∧
    (let s := at' fun k => region 1 ((k.wr R.CAT_DEEP_CFG_EN (dw 7) 0 0 1).wr R.CAT_DEEP_CFG_SIZE_LOG2 (dw 7) 0 0 10)
     Serves s .mp (dw 7) 0x21 0x154 true ∧ s.core.deepOn 7 = true ∧ 128 ≤ s.core.tokens 1) ∧
    (let c := { cmdOf 1 false with started := true }
     let k := (at' fun k => { k with tables := { k.tables with cmds := [c] } }).core
     k.live = true ∧ k.tables.cmds = [c] ∧ c.die = 7 ∧ c.started = true ∧ k.catAnswered c = true) ∧
    (let r := (cmdOf 1 false).rsp 0
     let s := at' fun k => { k with tables := { k.tables with rsps := [r] } }
     Serves s .mp (dw 7) 0x21 0x15C true ∧ s.core.tables.cmds = [] ∧ s.core.tables.rsps.find? (·.die == 7) = some r) ∧
    (Serves up .mp (dw 7) 0x23 0x100 true ∧ up.core.rd R.CAT_DEEP_CFG_EN (dw 7) 0 0 = 0 ∧ up.core.rd R.CXL_REG_EN 0 0 1 = 0) := by decide +kernel

theorem witness_PrefixCommands :
    (up.core.tables.lpmCmds = [] ∧ Serves up .mp (dw 7) 0x24 0x120 true ∧ up.core.tables.lpmRsps = []) ∧
    (let s := at' fun k => { k with part := { k.part with dies := 1 } }
     s.core.broadcastVerdict .mp 0x24 0x120 true = .ok ∧ s.core.tables.lpmCmds = [] ∧ s.core.tables.lpmRsps = [] ∧
      s.core.dieList.filter (fun x => !s.core.fenced x) = [0]) ∧
    (let s := at' fun k => k.wr R.PAG_DIEMAP_FENCED 0 0 0 0xFE
     s.core.broadcastVerdict .mp 0x24 0x120 true = .ok ∧ s.core.dieList.filter (fun x => !s.core.fenced x) = [0]) ∧
    (let r : LpmRsp := ⟨7, 1, 0, 0, 0⟩
     let s := at' fun k => { k with tables := { k.tables with lpmRsps := [r] } }
     Serves s .mp (dw 7) 0x24 0x128 true ∧ s.core.tables.lpmRsps.find? (·.die == 7) = some r) ∧
    (let e : LpmEnt := ⟨7, false, 0, 0x0A000000, 8, 5, false⟩
     let k := (at' fun k => { k with tables := { k.tables with lpm := [e] } }).core
     up.core.lpmFind 7 false 0 0x0A000000 8 = none ∧ up.core.lpmUnits 7 + 1 ≤ 196608 ∧
      k.lpmFind 7 false 0 0x0A000000 8 = some e ∧ k.lpmBest 7 false 0 0x0A0000FF = some e ∧ e.ue = false) := by decide +kernel

/-- The last clause of PrefixCommands. -/
theorem witness_longestPrefix :
    let e : LpmEnt := ⟨7, false, 0, 0x0A000000, 8, 5, false⟩
    let x : LpmEnt := ⟨7, false, 0, 0, 0, 6, false⟩
    let k := (at' fun k => { k with tables := { k.tables with lpm := [x, e] } }).core
    k.lpmBest 7 false 0 0x0A0000FF = some e ∧ x ∈ k.tables.lpm ∧ prefixMatch 32 0x0A0000FF x.addr x.len = true := by
  decide +kernel

theorem witness_FilterCommands :
    (Serves up .mp (dw 7) 0x27 0x204 true ∧ up.core.live = true ∧ up.core.indBusy (dw 7) 0x27 = false ∧
      up.core.broadcastVerdict .mp 0x27 0x204 true = .ok) ∧
    (let s := at' (·.onIo fun io => { io with ind := [⟨Tab.FLT_IND, dw 7, 0x27, 0x200, true, false, 4, 0⟩] })
     Serves s .mp (dw 7) 0x27 0x204 true ∧ s.core.indBusy (dw 7) 0x27 = true) ∧
    (at' (·.wr R.FLT_BG_CFG_EN (dw 7) 0 0 1)).core.rd R.FLT_BG_CFG_EN (dw 7) 0 0 ≠ 0 ∧
    (1#320).toNat ≠ (up.core.fltGet 7 16383).value ∧ (0#320).toNat = (up.core.fltGet 7 16383).value ∧
    (0#320).toNat = (up.core.fltGet 7 16383).mask := by decide +kernel

/-! ### Crossbar, egress, scheduling, host queues, telemetry -/

theorem witness_CrossbarMatching :
    (at' id).core.live = true ∧ (at' id).core.slotSkipped = false ∧
    (at' (·.wr R.M_PMU_STATUS_S 0 0 0 1)).core.slotSkipped = true := by decide +kernel

theorem witness_ParcelCommands :
    (let c := { copy0 with die := 0, pipe := 0 }
     let k := (at' fun k => { k with
       buf := { k.buf with groups := [freshGrp 2 0 1 0 0], voq := [c] }, xbar := { k.xbar with matched := [(0, 63)] } }).core
     k.live = true ∧ k.xbar.matched.find? (·.1 == 0) = some (0, 63) ∧ k.voqsRead 0 [] none = k ∧ k.xLive 0 = true ∧ k.xLive 63 = true ∧
      k.xbar.replay.get (pairKey 0 63) = 0 ∧
      ((k.onX fun x => { x with matched := x.matched.filter (·.1 != 0) }).fillParcel 0 63 none false).2 ≠ []) ∧
    (let k := (at' (·.onX fun x => { x with matched := [(0, 63)] })).core
     k.xbar.matched.find? (·.1 == 0) = some (0, 63) ∧ k.xLive 0 = true ∧ k.xLive 63 = true ∧ k.xbar.replay.get (pairKey 0 63) = 0 ∧
      ((k.onX fun x => { x with matched := x.matched.filter (·.1 != 0) }).fillParcel 0 63 none false).2 = []) ∧
    (let k := (at' (·.onX fun x => { x with matched := [(0, 63)], replay := x.replay.set (pairKey 0 63) 1 })).core
     k.xbar.matched.find? (·.1 == 0) = some (0, 63) ∧ k.xLive 0 = true ∧ k.xLive 63 = true ∧
      k.xbar.replay.get (pairKey 0 63) ≠ 0) ∧
    (let p : Parcel := ⟨0, 63, 0, [⟨.copy copy0, 0, true, false, false⟩], 1, 0⟩
     let k := (at' fun k => { k with xbar := { k.xbar with flight := [p] } }).core
     k.flitsWait (toMeridian 0) = false ∧ k.flitsWait (toDie 63) = false ∧
      (k.cesFound (dw 7) []).flitsSettled (toMeridian 0) (0, 63, 0) = k ∧ k.flitsSettled (toDie 63) (0, 63, 0) = k ∧
      k.xbar.flight.find? (·.dst == 63) = some p ∧ k.fenced (p.src / 8) = false ∧ k.fenced (63 / 8) = false ∧
      k.portFailed p.src = false ∧ k.portFailed 63 = false ∧
      ((k.onX fun x => { x with flight := x.flight.eraseP (·.dst == 63) }).xstat T.MER_PORT_PARCELS_RX 63 1).xbar.seqWant.get
        (pairKey 0 63) = p.seq) ∧
    (∀ nack : Bool,
      ((at' fun k => { k with xbar := { k.xbar with msgs := [⟨0, 63, 0, nack⟩] } }).core.takeMsg 0 nack).isSome = true) ∧
    (let p : Parcel := ⟨0, 63, 0, [], 1, 0⟩
     let k := (at' fun k => { k with xbar := { k.xbar with retained := [p] }, time := { k.time with now := 100000 } }).core
     (k.retainedOf 0 63).head? = some p ∧ k.retraining 0 = false ∧ k.retraining 63 = false ∧ k.xbar.replay.get (pairKey 0 63) = 0 ∧
      p.sentAt + k.rd R.MER_CFG_ACK_TMO_NS 0 0 0 ≤ k.time.now) := by decide +kernel

theorem witness_EgressService :
    (let k := (at' fun k => { ((k.wr R.SEQ_STATUS_READY (dw 7) 7 0 1).tw T.BUF_PORT_LINK_UP (dw 7) 0 248 1).tw T.SCH_PORT_NSTRICT (dw 7) 7 24 4 with
       buf := { k.buf with groups := [freshGrp 2 7 1 248 0], eq := [copy0] } }).core
     k.live = true ∧ k.portExists 7 248 = true ∧ k.portBusy 7 248 = false ∧
      k.pfcFirst 7 248 = false ∧ k.macReady 7 248 = true ∧
      (∀ q < 16, (k.viewQueue 7 248 q).any (·.eligible) = (q == 15)) ∧
      16 - 15 ≤ k.td T.SCH_PORT_NSTRICT (dw 7) (248 / 32) (248 % 32) ∧
      (k.pickQueue 7 248 (k.viewQueue 7 248)).2 = some 15 ∧ k.headOf 7 248 15 = some copy0) ∧
    (let k := (at' (·.wr R.SEQ_STATUS_READY (dw 7) 7 0 1)).core
     k.portExists 7 248 = true ∧ k.portBusy 7 248 = false ∧ k.pfcFirst 7 248 = false ∧ k.macReady 7 248 = true ∧
      (k.pickQueue 7 248 (k.viewQueue 7 248)).2 = none) ∧
    (let x : Sending := ⟨copy0, frameOf 0x0800, 0, 0, 0⟩
     let k := (at' fun k => { (k.wr R.SEQ_STATUS_READY (dw 7) 7 0 1).tw T.BUF_PORT_LINK_UP (dw 7) 0 248 1 with egr := { k.egr with sending := [x] } }).core
     k.egr.sending.find? (fun x => x.copy.port == 7 * 256 + 248) = some x ∧ k.linkUp 7 248 = true ∧
      k.holding 7 248 = false ∧ k.macReady 7 248 = true ∧ x.copy.bad = false ∧ x.copy.cut = false) ∧
    (let e : Ets := ⟨7, 248, 1, 0⟩
     let s := at' fun k => { k with egr := { k.egr with ets := [e] } }
     Serves s .mp (dw 7) 0x5C 0x10C true ∧ s.core.egr.ets.find? (·.die == 7) = some e) ∧
    (let k := (at' fun k => { k with buf := { k.buf with holdEnd := k.buf.holdEnd.set (7 * 256 + 248) 1 } }).core
     k.buf.holdEnd.get (7 * 256 + 248) ≠ 0 ∧ k.buf.holdEnd.get (7 * 256 + 248) ≤ k.time.now + 1 ∧
      k.linkUp 7 248 = false) := by decide +kernel

/-- A swap verdict accepts. -/
def accepts : SwapVerdict → Bool
  | .accepted _ => true
  | .refused .. => false

theorem witness_EphemerisGates :
    (Serves up .mp (dw 7) (0x50 + 7) 0x108 true ∧ Serves up .mp (dw 7) (0x50 + 7) 0x204 true ∧ up.core.live = true) ∧
    (∀ count ∈ [1, 0],
      let r : EphSwap := ⟨7, 7, 24, count, 0, 25⟩
      let k := (at' fun k => let k := k.tw T.EPH_LIST_MASK (dw 7) 7 (24 * 512 + 256) 0xFFFF; { k with egr := { k.egr with
        swapReq := [r], swapLast := k.egr.swapLast.set (7 * 8 + 7) 25 } }).core
      k.egr.swapReq.find? (fun r => r.die == 7 && r.pipe == 7) = some r ∧ accepts (k.validate r) = (count == 1) ∧
        k.egr.swapLast.get (7 * 8 + 7) = r.seq ∧ k.egr.swapPend = []) ∧
    (up.core.indBusy (dw 7) (0x50 + 7) = false ∧
      let s := at' (·.onIo fun io => { io with ind := [opOf Tab.EPH_LIST (dw 7) 7 true] })
      Serves s .mp (dw 7) (0x50 + 7) 0x204 true ∧ s.core.indBusy (dw 7) (0x50 + 7) = true) ∧
    (let k := (at' fun k =>
       let k := ((k.tw T.EPH_PORT_COUNT (dw 7) 7 24 2).tw T.EPH_LIST_MASK (dw 7) 7 (24 * 512) 1).tw T.EPH_LIST_START (dw 7) 7
         (24 * 512 + 1) 1000
       { k with egr := { k.egr with gated := k.egr.gated.set (7 * 256 + 248) 1 } }).core
     ((k.ephAt 7 248 0).any fun es => decide (1 < es.length)) = true) := by decide +kernel

/-- A ramp group 63 of die 7 that is enabled, in a state, between two limits. -/
def ramping (state floor ceil : Nat) : Core → Core := fun k =>
  (((k.tw T.RMP_GRP_EN (dw 7) 0 63 1).tw T.RMP_GRP_STATE (dw 7) 0 63 state).tw T.RMP_GRP_FLOOR (dw 7) 0 63 floor).tw
    T.RMP_GRP_CEIL (dw 7) 0 63 ceil

theorem witness_ShapersAndRamps :
    (let k := (at' fun k => (k.tw shpQ.en.eff (dw 7) 7 511 1).tw shpQ.burst.eff (dw 7) 7 511 (2 ^ 31 - 1)).core
     k.td shpQ.en.eff (dw 7) 7 511 = 1 ∧ k.td shpQ.burst.eff (dw 7) 7 511 < 2 ^ 31) ∧
    (let k := (at' fun k => (k.tw shpPort.en.eff (dw 7) 7 31 1).tw shpPort.burst.eff (dw 7) 7 31 1).core
     k.td shpPort.en.eff (dw 7) 7 31 = 1 ∧ k.td shpPort.burst.eff (dw 7) 7 31 < 2 ^ 31) ∧
    ((5 : Nat) ≤ 5 ∧ (4 : Nat) < 5) ∧
    (∀ x ∈ [(2, 100, 200, false), (2, 100, 100, true), (3, 100, 100, true)],
      let k := (at' fun k => { ramping x.1 x.2.1 x.2.2.1 k with time := { k.time with cycle := 2 } }).core
      let k1 := ((k.rampFrom 7 63 (k.nextStep 7 63 (k.egr.rampAt.get (7 * 64 + 63)))).rampApply 7 63).count (dw 7) 5 3 256 1
      let n := min (k.rmp T.RMP_GRP_STEP_N 7 63 + 1) (2 ^ 24 - 1)
      k.live = true ∧ k.rmp T.RMP_GRP_EN 7 63 = 1 ∧ k.rmp T.RMP_GRP_STATE 7 63 = x.1 ∧ k.stepDue 7 63 = true ∧
        decide (k1.rmp T.RMP_GRP_CEIL.eff 7 63 ≤ k1.rampLimit 7 63 n) = x.2.2.2) ∧
    ((at' (ramping 2 100 200)).core.rmp T.RMP_GRP_EN 7 63 = 1 ∧ (at' (ramping 2 100 200)).core.stepDue 7 63 = false) ∧
    (let k := (at' fun k => { ramping 1 100 200 k with time := { k.time with cycle := 2 } }).core
     k.rmp T.RMP_GRP_STATE 7 63 = 1 ∧ k.stepDue 7 63 = true) ∧
    (let k := (at' fun k => { ramping 3 100 200 k with
       egr := { k.egr with idleSince := k.egr.idleSince.set (7 * 64 + 63) 1 }
       time := { k.time with now := 100000000000 } }).core
     k.rmp T.RMP_GRP_STATE 7 63 ≠ 1 ∧ k.egr.idleSince.get (7 * 64 + 63) ≠ 0 ∧ k.groupIdle 7 63 = true ∧
      k.rmp T.RMP_GRP_IDLE_RESET_US 7 63 * 1000 ≤ k.time.now + 1 - k.egr.idleSince.get (7 * 64 + 63)) := by decide +kernel

theorem witness_StreamContexts :
    Serves up .mp (dw 7) 0x48 0x100 true ∧ Serves up .mp (dw 7) 0x49 0x204 true ∧ up.core.live = true ∧
    up.core.indBusy (dw 7) 0x49 = false ∧
    (let s := at' (·.onIo fun io => { io with ind := [⟨Tab.POL_CTX, dw 7, 0x49, 0x200, true, false, 4, 0⟩] })
     Serves s .mp (dw 7) 0x49 0x204 true ∧ s.core.indBusy (dw 7) 0x49 = true) ∧
    (bit (0x80000000#32).toNat 31 = 1 ∧ bits (1#32).toNat 30 0 < bits (2#32).toNat 30 0) ∧
    (polRefused [0x80000000, 1, 1, 64, 64] = false ∧ (polValues [0x80000000, 1, 1, 64, 64]).any (·.2.2) = false) ∧
    up.core.td T.POL_CTX_POISON (dw 7) 0 16383 = 0 ∧
    (at' (·.tw T.POL_CTX_POISON (dw 7) 0 16383 1)).core.td T.POL_CTX_POISON (dw 7) 0 16383 = 1 := by decide +kernel

/-- A ready host queue of function 3. -/
def queueReady (q : Nat) : Core → Core := fun k =>
  ((k.wr R.HQ_CFG_EN 0 3 q 1).wr R.HQ_TAIL 0 3 q 1).wr R.HQ_CFG_BUF_BYTES 0 3 q 64

/-- A transmit descriptor: length, port and mode bits. -/
def descOf (len port mode : Nat) : BitVec 256 := BitVec.ofNat 256 (len * 2 ^ 64 + port * 2 ^ 80 + mode * 2 ^ 80)

theorem witness_HostQueues :
    Serves up (.pf 3) 0 (hqPage 3) (0x40C + 32 * 19) true ∧ (at' (queueReady 19)).core.hqReady 3 (16 + 3) = true ∧
    (txDesc (descOf 59 (7 * 256 + 248) 0).toNat).len < 60 ∧
    (let k := (at' (queueReady 19)).core
     let x := txDesc (descOf 60 (7 * 256 + 248) 0x8000).toNat
     let bytes := frameOf 0x0800
     ([] : List Byte).length < x.len ∧ x.len ≤ bytes.length ∧ k.globalExists x.port = true ∧ 60 ≤ x.len ∧ x.len ≤ 16348 ∧ x.egress = true) ∧
    (let k := (at' (queueReady 19)).core
     let x := txDesc (descOf 60 (7 * 256 + 248) 0).toNat
     let f := withFcs ((frameOf 0x0800).take x.len)
     x.egress = false ∧ x.ts = false ∧ k.globalExists x.port = true ∧
      (k.inject (x.port / 256) (x.port % 256 / 32) x.port (k.classify (x.port / 256) (x.port % 256) f).1 x.tc true none f none
        none).isSome = true) ∧
    (∀ n ∈ [64, 65],
      let c : HostCopy := ⟨3, 15, List.replicate n 0⟩
      let k := (at' fun k => { queueReady 15 k with hostq := { rx := [c] } }).core
      k.hostq.rx.find? (fun c => c.pf == 3 && c.queue == 15) = some c ∧ k.hqReady 3 15 = true ∧
        decide (c.bytes.length ≤ k.rd R.HQ_CFG_BUF_BYTES 0 3 15) = (n == 64)) ∧
    up.core.hqReady 3 15 = false ∧ up.core.hqReady 3 (16 + 3) = false := by decide +kernel

theorem witness_TelemetryOutputs :
    (let r : PlateRec := ⟨7, [1], 0⟩
     let k := (at' fun k => { region 3 k with cxl := { (region 3 k).cxl with plate := [r] } }).core
     k.live = true ∧ k.cxl.plate.find? (·.die == 7) = some r ∧ k.plateFull r.lines.length = false ∧ k.regionOn 3 = true ∧
      k.tokens 3 ≠ 0) ∧
    up.core.regionOn 3 = false ∧
    (let k := (at' fun k => region 3 ((k.wr R.CXL_PLATE_CFG_STOP 0 0 0 1).wr R.CXL_PLATE_WP 0 0 0 4194303)).core
     k.plateFull 1 = true ∧ k.cxl.plateFull = false ∧ k.regionOn 3 = true ∧ k.tokens 3 ≠ 0) ∧
    (let c : Collector := ⟨7, 7, 7 * 256 + 248, 0, 0, frameOf 0x0800⟩
     let q : Core → Core := fun k => { k with tele := { k.tele with queue := [c] } }
     let k := (at' q).core
     let x := (at' fun k => q (lossless 1 0 k)).core
     k.tele.queue.find? (fun c => c.die == 7 && c.pipe == 7) = some c ∧
      (k.inject 7 7 (7 * 256 + c.port % 256) (k.collPg 7 (c.port % 256)) c.tc false (some c.entry) c.frame none
        none).isSome = true ∧
      x.inject 7 7 (7 * 256 + c.port % 256) (x.collPg 7 (c.port % 256)) c.tc false (some c.entry) c.frame none none = none) := by decide +kernel

/-! ### Mailboxes, services, program change -/

/-- A channel 0 in a state. -/
def inState (st : Nat) : Core → Core := (·.wr R.MBX_STATUS_STATE 0 0 0 st)

theorem witness_MailboxHandshake :
    Serves up (.pf 0) 0 (0xB0 + 0) 0x144 true ∧ Serves up .debug 0 (0xB0 + 12) 0x144 true ∧
    Serves up .mp 0 (0xB0 + 0) 0x144 true ∧ (Master.pf 0).id = senderId 0 ∧ (Master.debug).id = senderId 12 ∧
    Master.mp.id ≠ senderId 0 ∧
    (∀ st ∈ [0, 1, 2, 3, 4, 5], Serves (at' (inState st)) (.pf 0) 0 (0xB0 + 0) 0x144 true ∧
      (at' (inState st)).core.mbxState 0 = st) ∧
    (let k := (at' fun k => inState 1 (k.wr R.MBX_REQ 0 0 0 0x01010000)).core
     k.mbxState 0 = 1 ∧ k.nextChannel = some 0 ∧ k.atOnce 0 = none) ∧
    (let k := (at' fun k => inState 1 (k.wr R.MBX_REQ 0 0 0 0xFF010000)).core
     k.mbxState 0 = 1 ∧ (k.atOnce 0).isSome = true) ∧
    (at' (inState 5)).core.mbxState 0 = 5 ∧ up.core.nextChannel = none := by decide +kernel

/-- A part whose firmware works on a request of channel `ch` for a service with parameter words `ws`. -/
def asked (ch : Nat) (sv : Service) (ws : List Nat) (mp : Nat) : Core → Core := fun k =>
  let k1 := ((k.wr R.MBX_STATUS_STATE 0 ch 0 2).wr R.MBX_MP_STATUS_STATE 0 0 0 mp).wr R.MBX_REQ 0 ch 0
    (sv.code * 2 ^ 24 + sv.cmd * 2 ^ 16 + sv.len)
  ws.zipIdx.foldl (fun k x => k.wr R.MBX_REQ 0 ch (x.2 + 1) x.1) k1

theorem witness_ServiceScreening :
    (at' (asked 12 svcStart [] 1)).core.working 12 svcStart = true ∧
    (let k := (at' fun k => (asked 12 svcStart [] 1 k).wr R.MBX_REQ 0 12 0 0x01010020).core
     k.working 12 svcStart = true ∧ bits (k.req 12 0) 7 5 ≠ 0) ∧
    (let k := (at' (asked 3 svcLoad [] 1)).core
     k.working 3 svcLoad = true ∧ bits (k.req 3 0) 7 5 = 0 ∧ bits (k.req 3 0) 4 0 = svcLoad.len ∧ 3 ∉ svcLoad.channels) ∧
    12 ∉ up.core.mbx.orphans := by decide +kernel

theorem witness_StatusSensorsAndRepairMap :
    Runs (at' (asked 12 svcStart [] 1)) 12 svcStart ∧
    (∀ n ∈ [1, 14, 15, 0], Runs (at' (asked 12 svcRead [n * 65536] 1)) 12 svcRead ∧
      (at' (asked 12 svcRead [n * 65536] 1)).core.req 12 1 / 65536 = n) ∧
    (Runs (at' (asked 12 svcLogCfg [3600] 1)) 12 svcLogCfg ∧ (at' (asked 12 svcLogCfg [3600] 1)).core.req 12 1 = 3600) ∧
    (let k := (at' fun k => { k.wr R.MBX_MP_STATUS_STATE 0 0 0 1 with time := { k.time with now := 10 ^ 13 } }).core
     k.live = true ∧ k.rd R.MBX_MP_STATUS_STATE 0 0 0 = 1 ∧ k.mbx.loggedAt + k.mbx.period * 1000000000 ≤ k.time.now) ∧
    (let s := at' fun k => region 0 (asked 0 svcMapRead [0, 0, 80] 1 k)
     Runs s 0 svcMapRead ∧ (withDigest (softBytes ((readSoftMap s.flash).getD []))).length ≤ s.core.bufLen 0) ∧
    (let s := at' fun k => region 0 (asked 0 svcMapAdd [0, 0, 8] 1 k)
     Runs s 0 svcMapAdd ∧ s.core.bufLen 0 ≤ (List.replicate 8 (0 : Byte)).length ∧ s.core.bufLen 0 % 8 = 0 ∧
      s.core.bufLen 0 ≠ 0 ∧ ((readSoftMap s.flash).getD []).length + s.core.bufLen 0 / 8 ≤ 36864) ∧
    Runs (at' fun k => region 0 (asked 0 svcMapRemove [0] 1 k)) 0 svcMapRemove ∧
    (let s := at' (asked 0 svcQuote [0, 0, 3477] 1)
     Runs s 0 svcQuote ∧ s.core.rd R.SEC_STATUS_ID_READY 0 0 0 = 0) ∧
    (let s := at' fun k => asked 0 svcQuote [0, 0, 3477] 1 (k.wr R.SEC_STATUS_ID_READY 0 0 0 1)
     Runs s 0 svcQuote ∧ s.core.rd R.SEC_STATUS_ID_READY 0 0 0 ≠ 0 ∧ 3477 ≤ s.core.bufLen 0) ∧
    Runs (at' (asked 0 svcCert [0, 0, 4096] 1)) 0 svcCert := by decide +kernel

/-- A matrix that the fuse service takes: full rights for every master. -/
def fullMatrix : List Byte := (List.range 16).flatMap fun _ => [0xFF, 0xFF, 0x0F, 0x00].map (BitVec.ofNat 8)

/-- A manifest of one owner program image, by its key and its digest. -/
def ownerManifest (svn : Nat) (pubkey digest : List Byte) : Manifest :=
  { magic := 0x464D4D4E, format := 1, kind := 1, slot := 0, svn, count := 1, bind := 0, revoke := 0,
    reserved := [0, 0, 0, 0, 0, 0, 0], pubkey,
    entries := [{ type := 0x10, flags := 0, version := 1, offset := 0x200000, length := 1, head := [], digest,
                  iv := [0, 0, 0, 0, 0, 0, 0, 0, 0, 0, 0, 0],
                  tag := [0, 0, 0, 0, 0, 0, 0, 0, 0, 0, 0, 0, 0, 0, 0, 0], rest := [0, 0, 0, 0] }],
    body := [], sig := [] }

theorem witness_FuseServices :
    (let s := at' (asked 0 svcKeyAdd [0, 0, 64] 1)
     Runs s 0 svcKeyAdd ∧ 64 ≤ s.core.bufLen 0 ∧ s.core.bufLen 0 ≤ fullMatrix.length ∧
      (List.range 4).find? (fun i => bit s.fuse.ownerValid i == 0) = some 0) ∧
    (let s := at' (asked 0 svcKeyRevoke [3] 1)
     Runs s 0 svcKeyRevoke ∧ s.core.req 0 1 ≤ 3) ∧
    (let m := ownerManifest 64 [] []
     let s := at' fun k => let k := asked 0 svcCommit [3] 1 k
       { k with boot := { k.boot with owner := some m } }
     Runs s 0 svcCommit ∧ s.core.req 0 1 = 3 ∧ s.core.boot.owner = some m ∧ s.fuse.ownerRb < m.svn) ∧
    (let m := { ownerManifest 0 [] [] with kind := 0 }
     let s := at' fun k => let k := asked 0 svcCommit [2] 1 k
       { k with boot := { k.boot with vendor := some m } }
     Runs s 0 svcCommit ∧ s.core.req 0 1 = 2 ∧ s.core.boot.vendor = some m ∧ m.svn ≤ s.fuse.vendorRb) ∧
    (∀ sv ∈ [0, 1],
      let x := if sv = 0 then svcMatrix else svcBoth
      let s := at' (asked 0 x [0, 0, 64] 1)
      Runs s 0 x ∧ 64 ≤ s.core.bufLen 0 ∧ s.core.bufLen 0 ≤ fullMatrix.length ∧ s.fuse.matrixLock = false ∧
        matrixOk (matrixOf (fullMatrix.take (s.core.bufLen 0))) = true ∧
        ∀ w ∈ matrixOf (fullMatrix.take (s.core.bufLen 0)), w < 2 ^ 20) ∧
    Runs (at' (asked 0 svcDebugOff [] 1)) 0 svcDebugOff ∧
    (let s := at' (asked 0 svcMatrix [0, 0, 64] 1)
     let s := { s with fuse := { s.fuse with matrixLock := true } }
     Runs s 0 svcMatrix ∧ s.fuse.matrixLock = true) := by decide +kernel

/-- The fuse services of `FuseAndFlashServicesComplete`. -/
theorem witness_FuseAndFlashServicesComplete :
    (let s := at' (asked 0 svcKeyAdd [0, 0, 64] 1)
     let s := { s with fuse := { s.fuse with ownerValid := 7 } }
     Runs s 0 svcKeyAdd ∧ 64 ≤ s.core.bufLen 0 ∧ s.core.bufLen 0 ≤ fullMatrix.length ∧ bit s.fuse.ownerValid 3 = 0 ∧
      ∀ j < 3, bit s.fuse.ownerValid j = 1) ∧
    (∀ i < 4, let s := at' (asked 0 svcKeyRevoke [i] 1)
     Runs s 0 svcKeyRevoke ∧ s.core.req 0 1 = i) ∧
    (∀ x ∈ [2, 3],
     let m := { ownerManifest 64 [] [] with kind := x - 2 }
     let s := at' fun k => let k := asked 0 svcCommit [x] 1 k
       { k with boot := { k.boot with owner := some m, vendor := some m } }
     Runs s 0 svcCommit ∧ s.core.req 0 1 = x ∧ s.core.boot.owner = some m ∧ s.core.boot.vendor = some m ∧
      s.fuse.ownerRb < m.svn ∧ s.fuse.vendorRb < m.svn) ∧
    (∀ x ∈ [svcMatrix, svcBoth],
      let s := at' (asked 0 x [0, 0, 64] 1)
      Runs s 0 x ∧ 64 ≤ s.core.bufLen 0 ∧ s.core.bufLen 0 ≤ fullMatrix.length ∧ s.fuse.matrixLock = false ∧
        matrixOk (matrixOf (fullMatrix.take (s.core.bufLen 0))) = true ∧
        ∀ w ∈ matrixOf (fullMatrix.take (s.core.bufLen 0)), w < 2 ^ 20) ∧
    Runs (at' (asked 0 svcDebugOff [] 1)) 0 svcDebugOff := by decide +kernel

/-- The flash services of the same statement. Its clauses on signed sets and on a digest rest on opaque checks:
`witness_signed_set`, `witness_boardDescription`. -/
theorem witness_flashServices :
    (let s := at' (asked 0 svcStage [0, 0, 1, bankSize - 1] 1)
     Runs s 0 svcStage ∧ s.onTrial = false ∧ s.core.bufLen 0 ≤ [(0 : Byte)].length ∧ s.core.req 0 4 + s.core.bufLen 0 ≤ bankSize) ∧
    (Runs (at' (asked 0 svcApply [] 1)) 0 svcApply ∧ (at' (asked 0 svcApply [] 1)).onTrial = false) ∧
    (let s := at' (asked 0 svcConfirm [] 1)
     Runs s 0 svcConfirm ∧ s.core.rd R.PAG_BOOT_PROG_IMAGE 0 0 0 = (readSelector s.flash).preferred) ∧
    (let s := at' (asked 0 svcRecStage [0, 0, 1] 2)
     Runs s 0 svcRecStage ∧ s.core.bufLen 0 ≤ [(0 : Byte)].length ∧ s.core.boot.staged.length + s.core.bufLen 0 ≤ bankSize ∧
      ({ s with core := s.core.onBoot fun x => { x with staged := stageBytes x.staged 0 [0] } }).recoveryCode = none) ∧
    Runs (at' (asked 0 svcRecWrite [] 2)) 0 svcRecWrite := by decide +kernel

/-- Where every signature verifies, a manifest whose key slot holds its key's hash and an image with its own digest are
good: the hypotheses on signed sets are met there. The hash and the signature are opaque, so no such set can be
evaluated. -/
theorem witness_signed_set (verifies : ∀ key body sig, Config.mldsaVerify key body sig = true) (key stored : List Byte) :
    let m := ownerManifest 1 key (shake64 stored)
    let fz := { up.fuse with ownerValid := 1, ownerRevoked := 0, ownerRb := 1, ownerHash := [shake64 key] }
    fz.manifestCode 1 m 0 = none ∧ ∀ e ∈ m.entries, imageCode e stored = none := by
  simp [Fuses.manifestCode, ownerManifest, Manifest.formOk, ImgEntry.formOk, ImgEntry.encrypted, ImgEntry.bootProgram, noOverlap,
    typeEncrypted, allZero, bit, bankSize, Fuses.slotLive, Fuses.keys, Fuses.rollback, Manifest.countsOk, Manifest.ofType,
    imageCode, verifies]

/-- A record that ends with its digest has a good digest. -/
theorem digestOk_withDigest (b : List Byte) : digestOk (withDigest b) = true := by
  have h : (shake64 b).length = 64 := by simp [shake64]
  simp [digestOk, withDigest, h]

/-- A board description of one entry, without its digest. -/
def boardBytes : List Byte := leOf 0x44424D4E 4 ++ leOf 1 2 ++ leOf 0 2 ++ leOf 1 4 ++ leOf 0 4 ++
  leOf (2 ^ 45 + 2 ^ 33 + 2 ^ 32) 8

theorem witness_boardDescription :
    let s := at' (asked 0 svcBoard [0, 0, 88] 1)
    boardOk (withDigest boardBytes) = true ∧ (withDigest boardBytes).length = 88 ∧ Runs s 0 svcBoard ∧ s.core.bufLen 0 = 88 := by
  refine ⟨?_, by decide +kernel, by decide +kernel, by decide +kernel⟩
  unfold boardOk
  rw [digestOk_withDigest]
  decide +kernel

theorem witness_UpdateAndRecovery :
    (let s := at' (asked 0 svcStage [0, 0, 1, bankSize - 1] 1)
     Runs s 0 svcStage ∧ s.onTrial = false ∧ s.core.bufLen 0 ≤ [(0 : Byte)].length ∧ s.core.req 0 4 + s.core.bufLen 0 ≤ bankSize) ∧
    (let s := at' (asked 0 svcApply [] 1)
     Runs s 0 svcApply ∧ s.onTrial = false ∧ s.updateParts.2 = some 1) ∧
    (let s := at' (asked 0 svcConfirm [] 1)
     Runs s 0 svcConfirm ∧ s.core.rd R.PAG_BOOT_PROG_IMAGE 0 0 0 = (readSelector s.flash).preferred) ∧
    (let s := at' (asked 0 svcRecStage [0, 0, 1] 2)
     Runs s 0 svcRecStage ∧ s.core.bufLen 0 ≤ [(0 : Byte)].length ∧ s.core.boot.staged.length + s.core.bufLen 0 ≤ bankSize ∧
      ({ s with core := s.core.onBoot fun x => { x with staged := stageBytes x.staged 0 [0] } }).recoveryCode = none) ∧
    Runs (at' (asked 0 svcRecWrite [] 2)) 0 svcRecWrite ∧
    (let k := (at' fun k => (k.wr R.MBX_STATUS_STATE 0 11 0 2).wr R.MBX_MP_STATUS_STATE 0 0 0 1 |>.wr R.MBX_REQ 0 11 0 0x30000000).core
     k.live = true ∧ k.mbxState (4 + 7) = 2 ∧ bits (k.req (4 + 7) 0) 31 24 = 0x30 ∧ (4 + 7) ∉ k.mbx.replied ∧
      k.rd R.MBX_MP_STATUS_STATE 0 0 0 = 1) := by decide +kernel

theorem witness_ProgramChange :
    (let s := at' fun k => region 0 (asked 0 svcLoad [0, 0, 8192, 3, 0] 1 k)
     Runs s 0 svcLoad ∧ s.core.req 0 4 ≤ 3 ∧ s.core.bufLen 0 ≤ 8192 ∧
      (s.core.imageRefused [] 0) = some (.whole 2) ∧
      (s.core.livePipes.all fun x => (changeHalves (s.core.req 0 4)).all fun h => s.core.oldUse x.1 x.2 h == 0) = true) ∧
    (let s := at' fun k => asked 0 svcRestore [63] 1 (k.wr R.SEQ_STATUS_READY (dw 0) 0 0 1)
     Runs s 0 svcRestore ∧ s.core.req 0 1 < 64 ∧ (bits (s.core.req 0 1) 5 3, s.core.req 0 1 % 8) ∈ s.core.livePipes ∧
      s.core.rd R.SEQ_STATUS_READY (dw 7) 7 0 = 0 ∧ s.core.mbx.change = none ∧
      s.core.rd R.SEQ_STATUS_LOADING (dw 7) 7 0 = 0 ∧ s.core.readyPipes 7 7 = [(0, 0)]) ∧
    (Serves up .mp (dw 7) (8 + 7) 0x108 true ∧ Serves up (.pf 0) (dw 7) (8 + 7) 0x108 true) ∧
    (∀ x ∈ [((true, true), [(0, false, false)]), ((true, true), []), ((false, false), [(0, false, false)])],
      let k := (at' fun k => { k with pipes := { k.pipes with flips := [(7 * 8 + 7, x.1.1, x.1.2)] ++ x.2 } }).core
      k.live = true ∧ k.pipes.flips.find? (fun x => x.1 == 7 * 8 + 7) = some (7 * 8 + 7, x.1.1, x.1.2) ∧
        k.pipes.flips.any (fun y => !y.2.2) = (x.2 != [])) ∧
    (at' fun k => { k with pipes := { k.pipes with flips := [(0, false, false)] } }).core.halvesIdle = false ∧
    (∀ left ∈ [[63], [62, 63]],
      let m := ownerManifest 1 [] []
      let e : ImgEntry := ⟨0x10, 0, 1, 0x200000, 1, [], [], [], [], []⟩
      let c : Change := ⟨left, 0, m, e⟩
      let k := (at' fun k => { k with mbx := { k.mbx with change := some c } }).core
      k.live = true ∧ k.halvesIdle = true ∧ k.mbx.change = some c ∧ (7 * 8 + 7) ∈ c.left) := by decide +kernel

/-! ### Focus and time -/

/-- A Focus Context in slot 511 of die 0 that can be created: two members of that die. -/
def context : Core → Core := fun k =>
  let t (f : TFld) (v : Nat) (k : Core) : Core := k.tw f (dw 0) 0 511 v
  let k1 := t T.FOC_CTX_DIESET 1 (t T.FOC_CTX_MBR_COUNT 2 (t T.FOC_CTX_MEMBERS 2 (t T.FOC_CTX_TIMEOUT_US 4000000
    (t T.FOC_CTX_TPL_LEN 42 k))))
  let k2 := (k1.tw T.FOC_MBR_VALID (dw 0) 0 0 1).tw T.FOC_MBR_VALID (dw 0) 0 1 1
  let k3 := (k2.tw T.FOC_MBR_MEMBER (dw 0) 0 1 1).tw T.FOC_MBR_PORT (dw 0) 0 1 8
  ((k3.wr R.FOC_SEQ_READY (dw 0) 0 0 1).wr R.FOC_CFG_EN (dw 0) 0 0 1).wr R.FOC_CMD_CTX_CTX (dw 0) 0 0 511

/-- The same context, ACTIVE. -/
def active : Core → Core := fun k => (context k).tw T.FOC_CTX_STATE (dw 0) 0 511 1

/-- The context of slot 0 of die 0, ACTIVE on die 7. -/
def far : Core → Core := fun k => k.tw T.FOC_CTX_STATE (dw 7) 0 0 1

/-- A chunk 0 of that context. -/
def chunkOf (complete rounded : Bool) : Chunk := ⟨0, 511, 0, 1, [], [0, 1], true, 0, 1, complete, rounded⟩

theorem witness_FocusChunks :
    (let p : Contribution := ⟨0, 511, 0, 0, frameOf 0x0800, false, 2⟩
     let k := (at' fun k => { k with foc := { k.foc with inq := [p] } }).core
     let y := (at' fun k => { k with foc := { k.foc with inq := [p], landed := [(0, 0, ⟨.copy copy0, 0, true, false, false⟩)] } }).core
     k.live = true ∧ k.foc.inq.find? (·.die == 0) = some p ∧ k.foc.landed.any (·.1 == 0) = false ∧ k.roundingDue 0 = false ∧
      y.foc.inq.find? (·.die == 0) = some p ∧ y.foc.landed.any (·.1 == 0) = true) ∧
    (let m : FocMsg := ⟨.openNotice, 1, 0, 511, 0, 0⟩
     let k := (at' fun k => { active k with foc := { (active k).foc with msgs := [m] } }).core
     (k.takeFocMsg 0 .openNotice).isSome = true ∧ (at' active).core.ctxIs 0 511 0 = true ∧
      (at' active).core.inWindow 0 511 0 = true ∧ (at' active).core.ctxIs 0 511 1 = false) ∧
    (∀ rounded : Bool,
     let c := chunkOf true rounded
     let q : Core → Core := fun k => { active k with foc := { (active k).foc with chunks := [c] } }
     let k := (at' q).core
     let x := (at' fun k => (q k).tw T.BUF_PORT_XOFF_TX (dw 0) 0 0 0xFF).core
     let y : Core := { k with foc := { k.foc with landed := [(0, 0, ⟨.copy copy0, 0, true, false, false⟩)] } }
     k.resultDue 0 = some c ∧ k.foc.landed.any (·.1 == 0) = false ∧ (rounded = false → y.resultDue 0 = some c) ∧
      y.foc.landed.any (·.1 == 0) = true ∧ (k.injectResult c none).isSome = true ∧
      x.injectResult c none = none) ∧
    up.core.foc.chunks.all (fun x => !(x.die == 0 && x.complete)) = true ∧ up.core.foc.destroys = [] ∧
    (let m : FocMsg := ⟨.close, 1, 0, 511, 0, 0⟩
     let k := (at' fun k => { active k with foc := { (active k).foc with msgs := [m] } }).core
     k.foc.msgs.find? (fun m => m.dst == 0 && m.kind == FocMsgKind.close &&
        !(k.foc.partials.any fun y => y.src == 0 && y.ctx == m.ctx && y.seq == m.seq && !y.acked)) = some m ∧
      k.ctxIs 0 m.ctx m.gen = true) ∧
    (let s := at' context
     Serves s .mp (dw 0) 0x60 0x114 true ∧ s.core.rd R.FOC_CMD_STAT_BUSY (dw 0) 0 0 = 0 ∧ s.core.createReason 0 511 = 0 ∧ s.core.rd R.FOC_CMD_CTX_CTX (dw 0) 0 0 = 511) ∧
    (up.core.createReason 0 0 ≠ 0) ∧
    (let s := at' active
     Serves s .mp (dw 0) 0x60 0x114 true ∧ s.core.ctx T.FOC_CTX_STATE 0 511 = 1 ∧ s.core.ctx T.FOC_CTX_ROOT 0 511 = 0 ∧
      s.core.foc.chunks = []) ∧
    (at' (·.wr R.FOC_CMD_CTX_CTX (dw 0) 0 0 512)).core.rd R.FOC_CMD_CTX_CTX (dw 0) 0 0 / 512 ≠ 0 := by decide +kernel

theorem witness_FocusPartialsAndErrors :
    (let k := (at' fun k => { k with foc := { k.foc with landed := [(7, 0, ⟨.copy copy0, 0, true, false, false⟩)] } }).core
     k.live = true ∧ (k.foc.landed.find? (·.1 == 7)).isSome = true) ∧
    (∀ kind ∈ [FocMsgKind.ack, .nack], ∀ x ∈ [(1, false), (16, false), (1, true)],
      let m : FocMsg := ⟨kind, 0, 7, 0, 0, 0⟩
      let p : Partial := ⟨7, 0, 0, 0, 1, 1, x.1, 0, x.2⟩
      let k := (at' fun k => { far k with foc := { k.foc with msgs := [m], partials := [p] } }).core
      (k.takeFocMsg 7 kind).isSome = true ∧ k.partialOf m = some p ∧ k.ctxIs 7 0 0 = true ∧ up.core.ctxIs 7 0 0 = false ∧
        decide (p.sends < k.rd R.FOC_PART_CFG_RETRY (dw 7) 0 0 + 1) = (x.1 == 1)) ∧
    (let p : Partial := ⟨7, 0, 0, 0, 1, 1, 1, 0, false⟩
     let k := (at' fun k => { far k with foc := { k.foc with partials := [p] }, time := { k.time with now := 10 ^ 9 } }).core
     k.foc.partials.find? (fun x => x.src == 7 && x.next == x.cells && !x.acked && k.ctxIs 7 x.ctx x.gen && decide (0 < x.sends ∧
        x.sentAt + k.rd R.FOC_PART_CFG_ACK_TMO_US (dw 7) 0 0 * 1000 ≤ k.time.now)) = some p ∧
      p.sends < k.rd R.FOC_PART_CFG_RETRY (dw 7) 0 0 + 1) ∧
    (let c := chunkOf false false
     let k := (at' fun k => { active k with
       foc := { (active k).foc with chunks := [c] }, time := { k.time with now := 4000000000 } }).core
     k.ctxActive 0 511 = true ∧ k.ctx T.FOC_CTX_ROOT 0 511 = 0 ∧ c ∈ k.foc.chunks ∧ c.die = 0 ∧ c.slot = 511 ∧
      c.complete = false ∧ 0 < c.timer ∧ c.timer - 1 + k.ctx T.FOC_CTX_TIMEOUT_US 0 511 * 1000 ≤ k.time.now) ∧
    (let k := (at' fun k => { k with foc := { k.foc with msgs := [⟨.ask, 0, 7, 0, 0, 0⟩] } }).core
     (k.takeFocMsg 7 .ask).isSome = true) ∧
    (let e : FocErr := ⟨0, 511, 0, 0, 1, 0, [], 0, ⟨0, [], false, 14, 0, 0, 0, 0⟩⟩
     let q : Core → Core := fun k => { k with foc := { k.foc with errors := [e] } }
     let k := (at' q).core
     let x := (at' fun k => (q k).tw T.BUF_PORT_XOFF_TX (dw 0) 0 0 0xFF).core
     let payload := (List.range 256).map fun i => BitVec.ofNat 8 (e.bitmap / 2 ^ (8 * i))
     let hdr := mkFocHdr 9 e.inj.ty 0 (e.gen * 4096 + e.ctx) e.seq e.code
     k.foc.errors.find? (fun e => e.root == 0 && (e.waiting.isEmpty || decide (e.askedAt + 5000 ≤ k.time.now))) = some e ∧
      e.waiting = [] ∧ (k.focInject 0 e.inj hdr payload none).isSome = true ∧ x.focInject 0 e.inj hdr payload none = none) ∧
    up.core.foc.errors = [] ∧ up.core.ctxActive 7 511 = false := by
  decide +kernel

theorem witness_TimeReferences :
    (up.core.live = true ∧ up.core.rd R.STB_CFG_CYC_SRC 0 0 0 = 0 ∧ up.core.rd R.STB_CFG_TOD_SRC 0 0 0 ≠ 1) ∧
    (∀ cyc ∈ [0, 1],
     let k := (at' fun k => { k.wr R.STB_CFG_CYC_SRC 0 0 0 cyc with
       time := { k.time with now := 10 ^ 9, cycSrc := { k.time.cycSrc with last := 1 } } }).core
     k.rd R.STB_CFG_CYC_SRC 0 0 0 = cyc ∧ k.time.cycSrc.last ≠ 0 ∧ 1000000000 < (k.time.now + 1 - k.time.cycSrc.last) * 45) ∧
    (let k := (at' fun k => { k.wr R.STB_CFG_CYC_SRC 0 0 0 1 with
       time := { k.time with cycSrc := { k.time.cycSrc with fresh := true, last := 0 } } }).core
     k.rd R.STB_CFG_CYC_SRC 0 0 0 ≠ 0 ∧ k.time.cycSrc.last = 0 ∧ k.time.cycSrc.fresh = true ∧
      k.rd R.STB_STATUS_CYC_STATE 0 0 0 ≠ 3) ∧
    (let k := (at' fun k => { k.wr R.STB_CFG_TOD_SRC 0 0 0 1 with
       time := { k.time with todSrc := { k.time.todSrc with fresh := true, last := 0, missed := 0 } } }).core
     k.rd R.STB_CFG_TOD_SRC 0 0 0 = 1 ∧ k.time.todSrc.fresh = true ∧ k.time.todSrc.last = 0 ∧ k.time.todSrc.missed = 0 ∧
      k.overdue false = true ∧ k.rd R.STB_STATUS_TOD_STATE 0 0 0 ≠ 3) ∧
    (let k := (at' fun k => { k.wr R.STB_CFG_TOD_SRC 0 0 0 1 with
       time := { k.time with now := 1000001000, todSrc := { k.time.todSrc with last := 1, missed := 0 } } }).core
     k.rd R.STB_CFG_TOD_SRC 0 0 0 = 1 ∧ k.overdue false = false) ∧
    (at' (·.wr R.STB_CFG_TOD_SRC 0 0 0 2)).core.rd R.STB_CFG_TOD_SRC 0 0 0 = 2 ∧
    (let k := (at' fun k => { (k.wr R.STB_CFG_TOD_SRC 0 0 0 1).wr R.STB_STATUS_TOD_STATE 0 0 0 2 with
       time := { k.time with now := 2000001001, todSrc := { k.time.todSrc with last := 1, missed := 1 } } }).core
     k.rd R.STB_CFG_TOD_SRC 0 0 0 = 1 ∧ k.rd R.STB_STATUS_TOD_STATE 0 0 0 = 2 ∧ k.time.todSrc.missed = 1 ∧
      k.overdue false = true) ∧
    (let s := at' fun k => (k.wr R.STB_CFG_TOD_SRC 0 0 0 2).wr R.STB_CFG_CYC_SRC 0 0 0 1
     Serves s .mp 0 stbPage 0x100 true ∧ s.core.rd R.STB_CFG_TOD_SRC 0 0 0 = 2 ∧ s.core.rd R.STB_CFG_CYC_SRC 0 0 0 = 1) ∧
    (let k := (at' fun k => (k.wr R.STB_CFG_CYC_SRC 0 0 0 1).wr R.STB_STATUS_TOD_STATE 0 0 0 2).core
     k.rd R.STB_STATUS_TOD_STATE 0 0 0 = 2 ∧ k.rd R.STB_CFG_CYC_SRC 0 0 0 = 1) := by decide +kernel

theorem witness_StepsCyclesAndFollowers :
    Serves up .mp 0 stbPage 0x16C true ∧ Serves up .mp 0 stbPage 0x160 true ∧ up.core.rd R.STB_CFG_TOD_SRC 0 0 0 ≠ 2 ∧
    (at' fun k => { k with time := { k.time with step := some (-1) } }).core.time.step = some (-1) ∧
    up.core.time.step = none ∧
    (at' fun k => { k with time := { k.time with elapsed := k.time.span } }).core.time.elapsed = up.core.time.span := by
  decide +kernel

/-! ### Links, lanes, repair, memory tier -/

/-- A port of die 7 with its lanes' controller ready, its EN and its link state. -/
def port (en state : Nat) : Core → Core := fun k =>
  ((k.wr R.LAN_OCT_STATUS_MC_READY (dw 7) 31 0 1).tw T.PRT_PORT_EN (dw 7) 31 0 en).tw T.PRT_PORT_LINK_STATE (dw 7) 31 0 state

/-- The same port in a link-up attempt. -/
def attempting (an train : Bool) : Core → Core := fun k =>
  let k := port 1 1 (k.wr R.SEQ_STATUS_READY (dw 7) 7 0 1)
  { k with link := { k.link with attempts := [⟨7 * 256 + 248, 0, an, train⟩] } }

theorem witness_LinkStates :
    (up.core.verdict .mp (dw 7) (0xA0 + 31) 0x204 true = .ok ∧ up.core.indBusy (dw 7) (0xA0 + 31) = false) ∧
    (let s := at' (·.onIo fun io => { io with ind := [⟨Tab.PRT_PORT, dw 7, 0xA0 + 31, 0x200, true, false, 4, 0⟩] })
     s.core.verdict .mp (dw 7) (0xA0 + 31) 0x204 true = .ok ∧ s.core.indBusy (dw 7) (0xA0 + 31) = true) ∧
    ((at' (·.wr R.PAG_DIEMAP_FENCED 0 0 0 0x80)).core.fenced 7 = true ∧ up.core.live = true) ∧ (let k := (at' (·.wr R.PRT_OCT_CFG_MODE (dw 7) 31 0 0)).core
     k.portExists 7 249 = false ∧ k.verdict .mp (dw 7) (0xA0 + 31) 0x204 true = .ok) ∧
    up.core.portExists 7 248 = true ∧ up.core.mcReady 7 31 = false ∧
    (∀ x ∈ [(0, 0), (1, 3), (0, 5), (1, 5), (1, 6)],
      let k := (at' (port x.1 x.2)).core
      k.live = true ∧ k.verdict .mp (dw 7) (0xA0 + 31) 0x204 true = .ok ∧ k.mcReady 7 (248 / 8) = true ∧
        k.prt T.PRT_PORT_EN 7 248 = x.1 ∧ k.linkState 7 248 = x.2 ∧ k.linkUp 7 248 = false) ∧
    (∀ x ∈ [(true, true), (false, true), (false, false)],
      let k := (at' fun k => { attempting x.1 x.2 k with time := { k.time with now := 10 ^ 12 } }).core
      k.attemptOf 7 248 = some ⟨7 * 256 + 248, 0, x.1, x.2⟩ ∧ k.rd R.SEQ_STATUS_READY (dw 7) (248 / 32) 0 = 1 ∧
        (∀ i < (k.lanesOf 7 248).length, (0xFF#8).getLsbD i = true) ∧ 0 + 1000000 ≤ k.time.now ∧
        k.link.faultAt.get (7 * 256 + 248) = 0 ∧ k.attemptGood 7 248 ⟨7 * 256 + 248, 0, x.1, x.2⟩ 0 0 = false ∧
        ([(0, 3)] : List (Fin 4 × Fin 4)).any (fun y => y.1.val == k.rd R.PRT_OCT_CFG_RATE (dw 7) 31 0 &&
          y.2.val == k.rd R.PRT_OCT_CFG_MODE (dw 7) 31 0) = true ∧
        0 + k.rd R.PRT_LINK_CFG_ATTEMPT_MS (dw 7) (248 / 8) 0 * 1000000 ≤ k.time.now) ∧
    (let k := (at' fun k => { k with link := { k.link with backoff := k.link.backoff.set (7 * 256 + 248) 1 } }).core
     k.link.backoff.get (7 * 256 + 248) ≠ 0 ∧ k.link.backoff.get (7 * 256 + 248) ≤ k.time.now + 1) ∧
    (at' (·.tw T.BUF_PORT_LINK_UP (dw 7) 0 248 1)).core.linkUp 7 248 = true := by decide +kernel

theorem witness_LaneCommands :
    (Serves up .mp (dw 7) (0x80 + 31) 0x170 true ∧ up.core.scanOf 7 31 true = none ∧ up.core.scanOf 7 31 false = none) ∧
    ((at' (port 0 0)).core.rtcFields .mp 7 31 0).mcReady 7 31 = true ∧
    (∀ now ∈ [0, 10 ^ 9],
     let x : Scan := ⟨7, 31, 0, false, true, 10, 0⟩
     let k := (at' fun k => { k with link := { k.link with scans := [x] }, time := { k.time with now } }).core
     k.scanOf 7 31 true = some x ∧
      decide (k.scanned x < scanPoints x.full (k.rd R.PRT_OCT_CFG_RATE (dw 7) 31 0)) = (now == 0)) ∧
    (let k := (at' fun k => port 0 0 (k.wr R.LAN_BG_CFG_EN (dw 7) 31 0 1)).core
     k.rd R.LAN_BG_CFG_EN (dw 7) 31 0 = 1 ∧ k.mcReady 7 31 = true ∧ k.scanDue 7 31 7 = true) ∧
    (let k := (at' fun k => port 0 0 { (k.wr R.LAN_BG_CFG_EN (dw 7) 31 0 1).wr R.LAN_BG_CFG_SCAN_S (dw 7) 31 0 1 with
       link := { k.link with lastScan := k.link.lastScan.set (7 * 256 + 255) 1 } }).core
     k.rd R.LAN_BG_CFG_EN (dw 7) 31 0 = 1 ∧ k.mcReady 7 31 = true ∧ k.scanDue 7 31 7 = false) ∧
    Serves up .mp (dw 7) (0x80 + 31) 0x180 true ∧
    (∀ x ∈ [((at' (port 0 0)), 0), ((at' (port 1 0)), 1), (up, 7)],
      let k1 := (x.1.core.putFld .mp R.LAN_CAL_CMD_SCOPE (dw 7) 31 0 0 0 1).putFld .mp R.LAN_CAL_CMD_LANE (dw 7) 31 0 0 0 7
      k1.rd R.LAN_CAL_CMD_SCOPE (dw 7) 31 0 = 0 ∧
        k1.calCode 7 31 [k1.portLane 7 (8 * 31 + k1.rd R.LAN_CAL_CMD_LANE (dw 7) 31 0)] = x.2) ∧
    (let x : Calib := ⟨7, 31, false, [248]⟩
     let k := (at' fun k => { k with link := { k.link with calibs := [x] } }).core
     k.link.calibs.find? (fun x => x.die == 7 && x.oct == 31) = some x ∧ x.ports = [248] ∧ k.prt T.PRT_PORT_EN 7 248 = 0) ∧
    (Serves up .mp (dw 7) (0x80 + 31) 0x188 true ∧
      ∀ used ∈ [0, 1],
        let k := (at' fun k => port 0 0 (k.wr R.LAN_SPARE_STAT_POOL_FREE (dw 7) 0 0 used)).core
        let k1 := (k.putFld .mp R.LAN_SPARE_CMD_LANE (dw 7) 31 0 0 0 7).putFld .mp R.LAN_SPARE_CMD_SPARE (dw 7) 31 0 0 0 7
        k1.mcReady 7 31 = true ∧ k1.link.substs = [] ∧
          bit (k1.sparesUsed 7) (k1.rd R.LAN_SPARE_CMD_SPARE (dw 7) 31 0) = used) ∧
    (let x : Subst := ⟨7, 31, 0, 0⟩
     (at' fun k => { k with link := { k.link with substs := [x] } }).core.link.substs.find?
       (fun x => x.die == 7 && x.oct == 31) = some x) ∧
    up.core.populated 7 = true ∧
    (Serves up .mp (dw 7) (0xA0 + 31) 0x100 true ∧ octetOk 0 3 0 0 = true ∧ octetOk 1 0 0 0 = false ∧
      (up.core.octPorts 7 31).any (fun l => up.core.prt T.PRT_PORT_EN 7 l == 1) = false ∧
      ((at' (port 1 0)).core.octPorts 7 31).any (fun l => (at' (port 1 0)).core.prt T.PRT_PORT_EN 7 l == 1) = true ∧
      up.core.rd R.PRT_OCT_CFG_RATE (dw 7) 31 0 = 0 ∧ up.core.rd R.PRT_OCT_CFG_MODE (dw 7) 31 0 = 3) := by decide +kernel

theorem witness_LaneCoding :
    ([true, false] : List Bool).length % 2 = 0 ∧ (∀ g ∈ [0, 1, 2, 3], g < 4) ∧
    (let k := (at' fun k => (k.wr R.LAN_LANE_CFG_TX_INV (dw 7) 31 7 1).wr R.LAN_LANE_CFG_RX_INV (dw 7) 31 7 1).core
     k.rd R.LAN_LANE_CFG_TX_INV (dw 7) (255 / 8) (255 % 8) = k.rd R.LAN_LANE_CFG_RX_INV (dw 7) (255 / 8) (255 % 8) ∧
      k.rd R.LAN_LANE_STAT_PRE_TX_ACT (dw 7) (255 / 8) (255 % 8) = k.rd R.LAN_LANE_STAT_PRE_RX_ACT (dw 7) (255 / 8) (255 % 8) ∧
      k.link.preTx.get (7 * 256 + 255) = k.link.preRx.get (7 * 256 + 255) ∧ k.link.preTx.get (7 * 256 + 255) < 4) := by
  decide +kernel

/-- A flit of zeros but for its sequence number, with its parity. Its CRC is opaque: no flit can be evaluated to be good. -/
def flitOf (seq : Nat) : List Byte :=
  let f := putBytes (List.replicate 256 0) 246 (leOf seq 2)
  putBytes f 240 (leOf (flitParity f) 4)

/-- Where the CRC of a flit is 0, the one above is good: the hypotheses on good flits are met there. -/
theorem witness_goodFlit (crc : ∀ f, Config.flitCrc f = 0) : flitGood (flitOf 7) = true := by
  simp only [flitGood, crc]
  decide +kernel

/-- What the clauses of `LaneCoding` on flits name; `witness_goodFlit` meets the last. -/
theorem witness_sealedFlits :
    (65535 < 65536 ∧ flitField (sealFlit [1] 65535 65534) 246 2 = 65535 ∧ flitField (sealFlit [1] 65535 65534) 248 2 = 65534) ∧
    (flitOf 7).length = 256 := by
  simp only [sealFlit, flitField, leSeq, putBytes, padTo]
  decide +kernel

theorem witness_DieToDieLinks :
    (63 < up.core.xPorts ∧ up.core.portFailed 63 = false ∧ up.core.live = true ∧ up.core.fenced (63 / 8) = false ∧
      ∀ mer : Bool, up.core.xbar.retrain.get (shnDir mer 63) = 0 ∧
        (up.core.crossingFlit (shnDir mer 63)).any (fun x => x.1.seq == 0 && !x.1.bad) = true ∧
        up.core.link.flitWant.get (shnDir mer 63) = 0) ∧
    (flitField (flitOf 1) 246 2 < 65536 ∧ (0 + 65536 - flitField (flitOf 1) 246 2) % 65536 ≥ 32768) ∧
    (∀ seq ∈ [0, 65535],
      let f := flitOf seq
      flitField f 246 2 = seq ∧ f ≠ [] ∧ f.length = 256 ∧ flitField f 240 4 = flitParity f) ∧
    ([0] : List Byte) ≠ [] ∧ flitGood [0] = false ∧
    (∀ n ∈ [0, 1, 16],
      let i := shnDir false 63
      let k := (at' fun k => { k with link := { k.link with
        retries := k.link.retries.set i n, retryAsked := k.link.retryAsked.set i 1 } }).core
      k.link.retries.get i = n ∧ k.link.retryAsked.get i ≠ 0 ∧
        decide (n < k.shnRd false 63 R.M_SHN_CFG_RETRY_MAX R.SHN_CFG_RETRY_MAX) = (n < 16)) ∧
    up.core.link.retryAsked.get (shnDir true 63) = 0 ∧
    (∀ faulty ∈ [[], [63]],
      let i := shnDir true 63
      let k := (at' fun k => { k with xbar := { k.xbar with retrain := k.xbar.retrain.set i 1, faulty }
                                      time := { k.time with now := 20000 } }).core
      k.xbar.retrain.get i ≠ 0 ∧ k.xbar.retrain.get i + 20000 ≤ k.time.now + 1 ∧ k.xbar.faulty = faulty ∧
        k.fenced (63 / 8) = false) ∧
    (at' (·.wr R.PAG_DIEMAP_FENCED 0 0 0 0x80)).core.fenced (63 / 8) = true ∧
    (∀ used ∈ [0, 1],
      let s := at' (·.wr R.SHN_SPARE_STAT_FREE (shnAt false 63).1 (shnAt false 63).2 0 used)
      let k1 := ((s.core.putFld .mp R.SHN_SPARE_CMD_BUNDLE 8 7 0 0 0 4).putFld .mp R.SHN_SPARE_CMD_WIRE 8 7 0 0 0 63).putFld .mp
        R.SHN_SPARE_CMD_SPARE 8 7 0 0 0 3
      shnAt false 63 = (8, 7) ∧ Serves s .mp (shnAt false 63).1 (shnPage false 63) 0x110 true ∧ s.core.link.wireSubs = [] ∧
        s.core.xbar.retrain.get (shnDir false 63) = 0 ∧ s.core.portFailed 63 = false ∧
        bit (k1.rd R.SHN_SPARE_STAT_FREE 8 7 0) (4 * k1.rd R.SHN_SPARE_CMD_BUNDLE 8 7 0 + k1.rd R.SHN_SPARE_CMD_SPARE 8 7 0) =
          used) ∧
    (let y : WireSub := ⟨true, 63, 0, 0, 0⟩
     (at' fun k => { k with link := { k.link with wireSubs := [y] } }).core.link.wireSubs.find?
       (fun y => y.meridian == true && y.port == 63) = some y) := by decide +kernel

theorem witness_ScrubRepairAndFence :
    (Serves up .mp 8 0xC1 0x10C true ∧ up.core.live = true) ∧
    (∀ x ∈ [(0, 0), (73728, 2)],
      let k := (at' (·.wr R.RAS_SCRUB_END 8 0 0 x.1)).core
      k.scrubReason 8 (k.ras' 8 R.M_RAS_SCRUB_CFG_CLASS R.RAS_SCRUB_CFG_CLASS) (k.ras' 8 R.M_RAS_SCRUB_CFG_INST
        R.RAS_SCRUB_CFG_INST) (k.ras' 8 R.M_RAS_SCRUB_START R.RAS_SCRUB_START) (k.ras' 8 R.M_RAS_SCRUB_END
        R.RAS_SCRUB_END) = x.2) ∧
    (∀ x ∈ [(true, 0), (false, 0), (false, 1)],
      let p : Scrub := ⟨8, 0, 0, 0, x.2, 1, x.1⟩
      let k := (at' fun k => { k with ras := { k.ras with scrubs := [p] } }).core
      k.ras.scrubs.find? (·.w == 8) = some p ∧ k.fenced (8 - 1) = false) ∧
    (let p : Scrub := ⟨0, 0, 0, 0, 0, 1, false⟩
     (at' fun k => { k with ras := { k.ras with scrubs := [p] } }).core.ras.scrubs.find? (·.w == 0) = some p) ∧
    (let r : CatRepair := ⟨7, 0, 1, none, false, 0⟩
     let k := (at' fun k => { k with tables := { k.tables with repairs := [r] } }).core
     k.tables.repairs.find? (·.die == 7) = some r ∧ (k.peerOf 7).isSome = true) ∧
    (let k := (at' fun k => { k with tables := { k.tables with prefixAsks := [⟨7, false, 0, 0, 0, false⟩] } }).core
     (k.tables.prefixAsks.find? (·.die == 7)).isSome = true ∧ (k.peerOf 7).isSome = true ∧ k.tables.lpm = []) ∧
    (Serves up .mp 8 0xC2 0x100 true ∧
      ∀ x ∈ [([], 0), ([⟨8, 0, 0⟩], 3)],
        let k := (at' fun k => { k with ras := { k.ras with bists := x.1 } }).core
        k.bistCode 8 = x.2) ∧
    (at' (port 1 0)).core.bistCode 8 = 1 ∧
    (let y : Bist := ⟨8, 0, 0⟩
     (at' fun k => { k with ras := { k.ras with bists := [y] } }).core.ras.bists.find? (·.w == 8) = some y) ∧
    (up.core.populated 7 = true ∧ up.core.fenced 7 = false) ∧
    (at' (·.wr R.PAG_DIEMAP_FENCED 0 0 0 0x80)).core.fenced 7 = true := by decide +kernel

theorem witness_MemoryTier :
    (Serves up (.pf 0) 0 0x93 0x100 true ∧ Serves up .mp 0 0x93 0x100 true ∧ Serves up .mp 0 0x93 0x160 true ∧
      up.core.reg R.CXL_REG_EN 3 = 0) ∧
    (let k := (at' fun k => ((k.wr R.CXL_REG_SIZE 0 0 3 1).wr R.CXL_PORT_STATUS_STATE 0 1 0 3).wr R.CXL_PORT_CAP_UNITS 0 1 0
       1).core
     k.regionFits 3 1 400 = true ∧ k.regionFits 3 1 401 = false ∧ k.reg R.CXL_REG_EN 3 = 0) ∧
    (∀ x ∈ [[], [copy0]],
      let s := at' fun k => { region 2 k with buf := { k.buf with spilled := x } }
      Serves s .mp 0 0x93 0x140 true ∧ s.core.reg R.CXL_REG_EN 2 = 1 ∧ s.core.reg R.CXL_REG_PORT 2 = 0 ∧
        decide (∀ d ∈ s.core.dieList, s.core.spillCellsOf d = 0) = (x == [])) ∧
    ((∀ x ∈ up.core.dieList, up.core.listed T.BUF_Q_SPILLING (dw x) = []) ∧ up.core.tables.cmds = []) ∧
    (3 ∈ (at' fun k => k.onCxl fun x => { x with committing := [3] }).core.cxl.committing) ∧
    up.core.requestSince 3 7 = none ∧
    (∀ x ∈ [0, 65535 * 1000],
      let r : PlateRec := ⟨7, [1], 0⟩
      let k := (at' fun k => { region 3 (k.wr R.CXL_PORT_CFG_CPL_TMO_US 0 0 0 10) with
        cxl := { (region 3 k).cxl with plate := [r] }, time := { k.time with now := x } }).core
      k.requestSince 3 7 = some 0 ∧
        decide (0 + k.rd R.CXL_PORT_CFG_CPL_TMO_US 0 (k.regionPort 3) 0 * 1000 ≤ k.time.now) = (x != 0)) ∧
    (∀ n ∈ [1, 64],
      let k := (at' fun k => region 3 (k.wr R.CXL_PORT_CFG_LOSS_TMO 0 0 0 n)).core
      k.reg R.CXL_REG_EN 3 = 1 ∧ k.cxlUp (k.regionPort 3) = true ∧ k.regionPort 3 = 0 ∧
        decide (k.cxl.timeouts.get 0 + 1 < k.rd R.CXL_PORT_CFG_LOSS_TMO 0 0 0) = (n == 64)) ∧
    (let k := (at' (·.wr R.CXL_PORT_STATUS_STATE 0 1 0 3)).core
     k.rd R.CXL_PORT_STATUS_STATE 0 1 0 = 3 ∧ ∀ x : Fin 4, k.reg R.CXL_REG_EN x = 0) ∧
    (Serves up .mp 0 (0x91 + 1) 0x10C true ∧ Serves (at' (region 3)) .mp 0 (0x91 + 0) 0x10C true ∧
      (at' (region 3)).core.reg R.CXL_REG_EN 3 = 1 ∧ (at' (region 3)).core.reg R.CXL_REG_PORT 3 = 0) ∧
    (1 ∈ (at' fun k => k.onCxl fun x => { x with restarting := [1] }).core.cxl.restarting) := by decide +kernel

/-! ### Power, ageing, resets, counters -/

/-- A rail's target lies from 600 to 850 mV (R640). -/
theorem railTarget_range (k : Core) (w : Nat) : 600 ≤ k.railTarget w ∧ k.railTarget w ≤ 850 := by
  unfold Core.railTarget Core.setpoint
  dsimp only
  split
  · omega
  · split <;> omega

/-- Die 7's core rail at a voltage, with its trim known. -/
def rail (mv : Nat) : Core := (at' fun k => (k.putUnit { k.unit 8 with trimmed := true }).wr R.PMU_VOLT_CORE_MV 8 0 0 mv).core

theorem witness_PowerCommands :
    (up.core.live = true ∧ 3 ≤ up.core.rd R.PAG_BOOT_PROG_STEP 0 0 0 ∧ up.core.populated 7 = true ∧ (up.core.unit (dw 7)).stretch = 0) ∧
    (at' (·.wr R.PAG_BOOT_PROG_STEP 0 0 0 2)).core.rd R.PAG_BOOT_PROG_STEP 0 0 0 < 3 ∧
    ((at' fun k => k.putUnit { k.unit (dw 7) with stretch := 1 }).core.unit (dw 7)).stretch ≠ 0 ∧
    ((rail 0).unit 8).trimmed = true ∧ (rail 0).rd R.PMU_VOLT_CORE_MV 8 0 0 < (rail 0).railTarget 8 ∧
    ((rail 850).unit 8).trimmed = true ∧ (rail 850).railTarget 8 ≤ (rail 850).rd R.PMU_VOLT_CORE_MV 8 0 0 ∧
    (up.core.unit 8).trimmed = false ∧
    (let k := (at' fun k => { k with pmu := { k.pmu with board := [2 ^ 45 + 2 ^ 41 * 7], missed := k.pmu.missed.set 0 2 } }).core
     k.pmu.board = [2 ^ 45 + 2 ^ 41 * 7] ∧ k.pmu.missed.get 0 = 2 ∧
      (k.pmu.board.zipIdx.filter fun x => brdWin x.1 == 8) ≠ []) ∧
    (up.core.pmu.board.zipIdx.filter fun x => brdWin x.1 == 8) = [] ∧
    (up.core.units.any fun w => decide (1200 ≤ hottest (([] : List Reading).getD w noReading))) = false ∧
    (up.core.units.any fun w => decide (1200 ≤ hottest ([{ noReading with temps := [1200] }].getD w noReading))) = true := by
  have h0 : (rail 0).rd R.PMU_VOLT_CORE_MV 8 0 0 = 0 := by decide +kernel
  have h1 : (rail 850).rd R.PMU_VOLT_CORE_MV 8 0 0 = 850 := by decide +kernel
  have t0 := (railTarget_range (rail 0) 8).1
  have t1 := (railTarget_range (rail 850) 8).2
  exact ⟨by decide +kernel, by decide +kernel, by decide +kernel, by decide +kernel, by omega, by decide +kernel, by omega, by decide +kernel,
    by decide +kernel, by decide +kernel, by decide +kernel, by decide +kernel⟩

/-- A part whose firmware runs. -/
def running : Core → Core := (·.wr R.MBX_MP_STATUS_STATE 0 0 0 1)

theorem witness_AgeingCommands :
    (Serves up .mp 0 0x82 0x108 true ∧ Serves up .mp 8 0xC9 0x108 true) ∧
    (let k := (at' fun k => running (k.wr R.PMU_AGE_CMD 8 0 0 1)).core
     k.firmware = true ∧ 8 ∈ k.units ∧ k.rd R.PMU_AGE_CMD 8 0 0 = 1 ∧ k.pmu.retryAt = 0) ∧
    up.core.firmware = false ∧
    (let k := (at' fun k => { running k with pmu := { k.pmu with retryAt := 1 } }).core
     k.firmware = true ∧ k.pmu.retryAt ≠ 0 ∧ k.pmu.retryAt ≤ k.time.now + 1) ∧
    (let k := (at' fun k => { running k with time := { k.time with now := 86400000000000 } }).core
     k.firmware = true ∧ k.pmu.lifeAt + 86400000000000 ≤ k.time.now) := by decide +kernel

/-- What a start meets: every die answers. -/
def facts (fails : Nat) (x : StartFacts) : StartFacts := { x with meridianFails := fails }

theorem witness_ResetsAndStart :
    (State.reset.core.pack.power = false ∧ State.reset.core.pack.sysRst = false) ∧
    (let s := State.reset.onPack fun p => { p with sysRst := true }
     s.core.pack.power = false ∧ s.core.pack.sysRst = true) ∧
    (up.core.pack.power = true ∧ up.core.pack.sysRst = false ∧ up.core.live = true) ∧
    (let s := up.onPack fun p => { p with sysRst := true }
     s.core.pack.power = true ∧ s.core.pack.sysRst = true) ∧
    (Serves up .mp 0 0 0x200 true ∧ Serves up (.pf 0) 0 0 0x200 true ∧ Serves up .debug 0 0 0x200 true) ∧
    ((at' (region 0)).core.regionOn 0 = true ∧ (at' (region 0)).core.tokens 0 ≠ 0) ∧
    (∀ x : StartFacts, (facts 2 x).meridianFails = 2) := by
  refine ⟨by decide +kernel, by decide +kernel, by decide +kernel, by decide +kernel, by decide +kernel, by decide +kernel, fun _ => rfl⟩

theorem witness_HostPort :
    up.core.live = true ∧ 3 ≤ up.core.rd R.PAG_BOOT_PROG_STEP 0 0 0 ∧
    (at' (·.wr R.PAG_BOOT_PROG_STEP 0 0 0 2)).core.rd R.PAG_BOOT_PROG_STEP 0 0 0 < 3 := by decide +kernel

theorem witness_MeasurementsAndCounters :
    (Serves up .mp 0 0xA0 0x200 true ∧ Serves up (.pf 0) 0 0xA0 0x200 true ∧ up.sec.log.length < 2048) ∧
    2048 ≤ (List.replicate 2048 ([] : List Byte)).length ∧
    ((at' (·.wr R.CNT_CFG_EN 8 0 63 1)).core.cntOn 8 63 = true ∧ up.core.cntOn 8 63 = false) ∧
    (up.core.pack.hostUp = true ∧ { up.fuse with userOff := true }.userOff = true) ∧
    ((0x82FC#16).toNat % 4096 = 0x200 + 4 * 63 ∧
      (at' fun k => (k.wr R.CNT_USER_CFG_EN 0 0 0 1).wr R.CNT_CFG_USER 8 0 63 1).core.userMayRead up.fuse.userOff 0 8 63 = true) ∧
    (Serves up .mp (dw 7) 0xCD 0x100 true ∧ bit (0x80000000#32).toNat 31 = 1) := by
  refine ⟨by decide +kernel, Nat.le_of_eq (List.length_replicate).symm, by decide +kernel, by decide +kernel, by decide +kernel,
    by decide +kernel⟩

/-! ### Reset and the queue -/

theorem test_reset_queue_empty : State.reset.pending = [] := rfl

theorem test_reset_part_stands : State.reset.core.live = false ∧ State.reset.core.pack.power = false := by decide +kernel

theorem test_step_takes_the_front :
    step { State.reset with pending := [.pwrGoodLoss, .crossbarMatch] } =
      exec .pwrGoodLoss { State.reset with pending := [.crossbarMatch] } := rfl

theorem test_no_word_spells_a_command : decodeTableWord 32 0 = none := rfl

/-! ### Well-formed and ill-formed commands -/

/-- The form of a register write is that of its run of words, whatever a start finds. -/
theorem wf_registerWrite (m : Master) (a : BitVec 28) (v : Word) (more : List Word) (x : StartFacts) :
    (Instr.registerWrite m a v more x).wf = wordRun a more.length := rfl

theorem test_wf_accepts :
    wordRun 0x10D0100 0 = true ∧ (Instr.broadcastRead .mp 0x0D0100).wf = true ∧
    (Instr.indRead .mp 1 ⟨Tab.HVX_MCG, by decide⟩ 7 false).wf = true ∧ (Instr.frameReceive 0 0 [0] [] false []).wf = true ∧
    (Instr.broadcastWrite .mp 0x0D0100 0 [0]).wf = true := by decide +kernel

theorem test_wf_refuses_unaligned_address : wordRun 0x10D0102 0 = false := by decide
theorem test_wf_refuses_rc_read_outside : (Instr.rcReadClear .mp 0x90D0100 0).wf = false := by decide
theorem test_wf_refuses_half_reads :
    (Instr.lowHalfReadLatch .mp 0x10CC111 false).wf = false ∧ (Instr.lowHalfWriteHold .mp 0x10CC401 0).wf = false ∧
    (Instr.highHalfWrite .mp 0x10CC405 0).wf = false := by decide
theorem test_wf_refuses_window_of_meridian : (Instr.unpopulatedWindowAccess .mp 0x00D0100 none).wf = false := by decide
theorem test_wf_accepts_reserved_pages :
    (Instr.reservedRangeAccess .mp 0x0005000 none).wf = true ∧ (Instr.reservedRangeAccess .mp 0x0064000 none).wf = true ∧
    (Instr.reservedRangeAccess .mp 0x1001000 none).wf = true ∧ (Instr.reservedRangeAccess .mp 0x8068000 none).wf = true := by
  decide +kernel
theorem test_wf_refuses_long_runs :
    wordRun 0x10D0100 (List.replicate 16 (0 : Word)).length = false ∧ wordRun 0x10D0FFC [(0 : Word)].length = false ∧
    (Instr.broadcastWrite .mp 0x0D0FFC 0 [0]).wf = false := by decide +kernel
theorem test_wf_refuses_assigned_page : (Instr.reservedRangeAccess .mp 0x1000000 none).wf = false := by decide
theorem test_wf_refuses_aligned_word : (Instr.badWidthAccess .mp 0x1000000 4 false).wf = false := by decide
theorem test_wf_refuses_unaligned_broadcast :
    (Instr.broadcastWrite .mp 0x0D0101 0 []).wf = false ∧ (Instr.broadcastRead .mp 0x0D0101).wf = false := by decide
theorem test_wf_refuses_window_of_another_die :
    (Instr.indRead .mp 0 ⟨Tab.HVX_MCG, by decide⟩ 0 false).wf = false ∧ (Instr.indWrite .mp 1 ⟨Tab.HVX_MCG, by decide⟩ 8 false).wf = false ∧
    (Instr.indOpComplete 0 ⟨Tab.HVX_MCG, by decide⟩ 0 .good false).wf = false := by decide
theorem test_wf_refuses_empty_frames :
    (Instr.frameReceive 0 0 [] [] false []).wf = false ∧ (Instr.macControlReceive 0 0 []).wf = false := by decide
theorem test_wf_refuses_long_lists :
    (Instr.trainingComplete 0 0 (List.replicate 9 0) 0 0).wf = false ∧
    (Instr.pmuEpoch (List.replicate 10 ⟨0, 0, false, 0, 0, 0, [], [], []⟩)).wf = false := by decide

/-! ### Results the spec works out -/

/-- Chapter 2: page 0x028 of port die 3 is source 1,889. -/
theorem test_source_of_buf_page : sourceOf (dw 3) 0x028 = 1889 := by decide +kernel

/-- Chapter 4: SCALE of 0x9E37_A1C4 by 6 is 3. -/
theorem test_scale_picks_member : (alu 0x16 0x9E37A1C4 6 0).res = 3 := by decide

/-- R214: the check value of CRC-32C. -/
theorem test_crc32c_check : crc32c [0x31, 0x32, 0x33, 0x34, 0x35, 0x36, 0x37, 0x38, 0x39] = 0xE3069283 := by decide +kernel

/-- Chapter 6: with 64 ports the shared pool of a die holds 581,632 cells. -/
theorem test_shared_pool :
    (at' fun k => (List.range 32).foldl (fun k o => k.wr R.PRT_OCT_CFG_MODE (dw 1) o 0 1) k).core.sharedSize 1 = 581632 := by
  decide +kernel

/-- Chapter 7: a ramp of 160 steps from 200 Gb/s to 1.4 Tb/s gains 7.5 Gb/s a step. -/
theorem test_ramp_steps :
    let k := (at' fun k =>
      let t (f : TFld) (v : Nat) (k : Core) : Core := k.tw f.eff (dw 0) 0 7 v
      t T.RMP_GRP_FLOOR 200000000 (t T.RMP_GRP_CEIL 1400000000 (t T.RMP_GRP_RAMP_CYCLES 40 (t T.RMP_GRP_STEPS 3 k)))).core
    k.rampLimit 0 7 1 = 207500000 ∧ k.rampLimit 0 7 160 = 1400000000 := by decide +kernel

/-- Chapter 8: the bytes of member 2's header, and 2,048 + 1 + 1 in fp16 is 0x6801 in either order. -/
theorem test_focus_header :
    let h := focHdr ([0x10, 0x40, 0x22, 0x05, 0x00, 0x20, 0x00, 0x07, 0, 0, 0, 0, 0, 0, 0, 0].map (BitVec.ofNat 8)) 0
    h.version = 1 ∧ h.op = 0 ∧ h.ctx = 0x2205 ∧ h.member = 2 ∧ h.seq = 7 ∧ h.count = 1 := by decide +kernel

theorem test_focus_sum_is_exact (ty : Nat) (h : ty = 4) :
    (roundElem 0 ty false (combine 0 ty (combine 0 ty (accOf 0 ty 0x6800) (accOf 0 ty 0x3C00)) (accOf 0 ty 0x3C00))).1 = 0x6801 ∧
    (roundElem 0 ty false (combine 0 ty (accOf 0 ty 0x3C00) (combine 0 ty (accOf 0 ty 0x3C00) (accOf 0 ty 0x6800)))).1 =
      0x6801 := by
  subst h; decide +kernel

/-- Chapter 8: SUM over bf16 with W = 16 and 2,048 elements takes 20,480 lines. -/
theorem test_focus_lines :
    (at' fun k => (((k.tw T.FOC_CTX_TYPE (dw 0) 0 0 3).tw T.FOC_CTX_W_LOG2 (dw 0) 0 0 4).tw T.FOC_CTX_MAXE_M1 (dw 0) 0 0
      2047)).core.ctxLines 0 0 = 20480 := by decide +kernel

/-- Chapter 13: at S = 4 and 8 a die's clock is 1.640625 and 1.53125 GHz. -/
theorem test_throttled_clock : cclkMhz 64 0 4 = 1640 ∧ cclkMhz 64 0 8 = 1531 := by decide

/-- Chapter 17: the trace record of the worked example. -/
theorem test_trace_record :
    (at' fun k => (k.tw T.TRC_PROF_TAG (dw 5) 0 4 0x0B0E).wr R.TRC_CFG_SWITCH_ID (dw 5) 0 0 0x02A).core.traceRecord 5 4
      ⟨4, 0x108, some (0x548, 3), 480000000, 7, 1512, 1400⟩ =
    [0x14, 0x04, 0x22, 0xA3, 0x21, 0x15, 0x20, 0x00, 0x1C, 0x9C, 0x38, 0x00, 0x00, 0x07, 0x0B, 0x0E, 0x00, 0x00, 0x05, 0xE8,
      0x00, 0x57, 0x80, 0x2A].map (BitVec.ofNat 8) := by decide +kernel

/-- Chapter 10: attempts of a port without a cable back off 250, 500 and 1,000 ms. -/
theorem test_backoff_doubles :
    let k (n : Nat) : Core := (at' fun k => { attempting true true (k.tw T.PRT_PORT_ATTEMPT (dw 7) 31 0 n) with
      time := { k.time with now := 3000000000 } }).core
    ∀ n ∈ [0, 1, 2], (match exec (.attemptTimeout 7 248 0 0) { up with core := k n } with
      | .next t => t.core.link.backoff.get (7 * 256 + 248)
      | _ => 0) = 3000000000 + 250000000 * 2 ^ n + 1 := by decide +kernel

/-- Chapter 12: beside a mirrored region 0 the example's regions fit, and region 2 at base 0 does not. -/
theorem test_regions_of_the_example :
    let base : Core → Core := fun k =>
      let port (p n : Nat) (k : Core) : Core := (k.wr R.CXL_PORT_STATUS_STATE 0 p 0 3).wr R.CXL_PORT_CAP_UNITS 0 p 0 n
      let k1 := ((port 0 2048 (port 1 1024 k)).wr R.CXL_REG_EN 0 0 0 1).wr R.CXL_REG_SIZE 0 0 0 4
      k1.wr R.CXL_REG_MIRROR 0 0 0 1
    let reg (r b n : Nat) (k : Core) : Core := (k.wr R.CXL_REG_DPA_BASE 0 0 r b).wr R.CXL_REG_SIZE 0 0 r n
    (at' fun k => reg 1 4 2 (base k)).core.regionFits 1 0 800 = true ∧
    (at' fun k => reg 3 6 256 (base k)).core.regionFits 3 0 400 = true ∧
    (at' fun k => reg 2 4 1020 (base k)).core.regionFits 2 1 1200 = true ∧
    (at' fun k => reg 2 0 1020 (base k)).core.regionFits 2 1 1200 = false := by decide +kernel

/-- Chapter 16: the first word of the example's quote request names the service with 3 parameter words. -/
theorem test_quote_request :
    let k := (at' (·.wr R.MBX_REQ 0 2 0 0x20015A03)).core
    k.asks 2 svcQuote = true ∧ bits (k.req 2 0) 4 0 = svcQuote.len ∧ 2 ∈ svcQuote.channels := by decide +kernel

/-- Chapter 9: the headroom of the example's 400G port is 490 cells. -/
theorem test_headroom_of_the_example : headroomCells 400 ⟨500, 400, 9216, 1024⟩ = 490 := by decide

/-- Chapter 14: the package has 96 × 96 balls and every one has its group. -/
theorem test_package_balls : (ballGroups.map (·.2)).foldl (· + ·) 0 = ballSide * ballSide := by decide

/-! ### Witnesses of the statements on the whole machine -/

theorem witness_StepRunsFront :
    (∃ s : State, s.pending = [.crossbarMatch] ∧ s.core.live = true) ∧ up.core.tables.lpmCmds = [] ∧
    up.core.freqAdj = 0 ∧ up.core.time.todRem = 0 ∧ up.core.time.todSrc.slew = 0 ∧ 0 ≤ up.core.time.todSrc.slewRem :=
  ⟨⟨{ up with pending := [.crossbarMatch] }, rfl, by decide +kernel⟩, by decide +kernel, by decide +kernel, by decide +kernel, by decide +kernel,
    by decide +kernel⟩

theorem witness_StoppedPartStands : State.reset.core.live = false := by decide +kernel

theorem witness_FusesOnlyGrow : step State.reset = .next State.reset := rfl

theorem witness_RecordsKeepTheirForm :
    State.reset.flash.wf = true ∧ State.reset.sec.acc.length = 64 ∧ State.reset.sec.log.length ≤ 2048 ∧
    step State.reset = .next State.reset := by
  refine ⟨by decide +kernel, by decide +kernel, by decide +kernel, rfl⟩


end Sys2Proof.Tests
end

section
/-!
SUPPORT. Plain register writes (R25, R77, R91): what `Core.writeField` does by access type, which registers have nothing
beside their fields, and what a REGISTER_WRITE of one or several words therefore does.
-/
namespace Sys2Proof.Machine

/-! ### One field, by its access type -/

/-- The fields with a rule of their own beside the range of their row. -/
def ruledFields : List Fld :=
  [R.PAGE_CE_CFG_LEAK_MS, R.PAGE_CE_CFG_DEPTH, R.PMU_CAP_SUST_WATTS, R.PMU_CAP_FAST_WATTS, R.MBX_REQ, R.SEC_MEAS_EXT,
   R.CNT_USER_CFG_EN, R.HVX_CFG_DEF_KIND, R.CNT_CFG_EVENT, R.M_CNT_CFG_EVENT, R.CNT_CFG_FILTER, R.M_CNT_CFG_FILTER,
   R.CNT_CFG_FILTER_EN, R.M_CNT_CFG_FILTER_EN, R.FOC_CFG_EN, R.CAT_CFG_HASH_SEED, R.CXL_REG_DPA_BASE, R.CXL_REG_SIZE,
   R.STB_STEP_NS]

/-- A field without a rule of its own takes every value in the range of its row and refuses every other with CFG_ERR. -/
theorem Core.fieldRule_of_not_ruled (k : Core) (m : Master) {r : RegRow} (w p i v : Nat) (h : r.fld ∉ ruledFields) :
    k.fieldRule m r w p i v = if v < r.min ∨ r.max < v then .cfg else .take := by
  simp only [ruledFields, List.mem_cons, List.not_mem_nil, or_false, not_or] at h
  simp [Core.fieldRule, Core.specialRule, h]

/-- A plain RW field takes a value in its range (R77). -/
theorem Core.writeField_rw_inRange (k0 k : Core) (m : Master) {r : RegRow} {w page off p i word : Nat} (hacc : r.acc = .rw)
    (hown : r.own = false) (hf : r.fld ∉ ruledFields)
    (hv : r.min ≤ bits word r.fld.hi r.fld.lo ∧ bits word r.fld.hi r.fld.lo ≤ r.max) :
    Core.writeField k0 k m w page off (r, p, i) word = k.wr r.fld w p i (bits word r.fld.hi r.fld.lo) := by
  have hrange : ¬(bits word r.fld.hi r.fld.lo < r.min ∨ r.max < bits word r.fld.hi r.fld.lo) := by omega
  simp [Core.writeField, hown, hacc, Core.fieldRule_of_not_ruled _ _ _ _ _ _ hf, hrange]

/-- A plain RW field keeps its value at a write of a reserved encoding, which sets CFG_ERR (R25). -/
theorem Core.writeField_rw_reserved (k0 k : Core) (m : Master) {r : RegRow} {w page off p i word : Nat} (hacc : r.acc = .rw)
    (hown : r.own = false) (hf : r.fld ∉ ruledFields)
    (hv : ¬(r.min ≤ bits word r.fld.hi r.fld.lo ∧ bits word r.fld.hi r.fld.lo ≤ r.max)) :
    Core.writeField k0 k m w page off (r, p, i) word = k.cfgErr w page m off := by
  have hrange : bits word r.fld.hi r.fld.lo < r.min ∨ r.max < bits word r.fld.hi r.fld.lo := by omega
  simp [Core.writeField, hown, hacc, Core.fieldRule_of_not_ruled _ _ _ _ _ _ hf, hrange]

/-- An RO field takes nothing; the reply words of a mailbox are the exception (R77, R734). -/
theorem Core.writeField_ro (k0 k : Core) (m : Master) {r : RegRow} (w page off p i word : Nat) (hacc : r.acc = .ro)
    (hf : r.fld ≠ R.MBX_RSP) : Core.writeField k0 k m w page off (r, p, i) word = k := by
  simp [Core.writeField, hacc, hf]

/-- A W1C field clears the bits written 1 (R77). -/
theorem Core.writeField_w1c (k0 k : Core) (m : Master) {r : RegRow} (w page off p i word : Nat) (hacc : r.acc = .w1c)
    (hown : r.own = false) :
    Core.writeField k0 k m w page off (r, p, i) word =
      k.wr r.fld w p i (k.rd r.fld w p i - (k.rd r.fld w p i &&& bits word r.fld.hi r.fld.lo)) := by
  simp [Core.writeField, hown, hacc]

/-- A field that is written by commands of its own is left to them. -/
theorem Core.writeField_own (k0 k : Core) (m : Master) {r : RegRow} (w page off p i word : Nat) (hown : r.own = true)
    (hgo : r.fld ∉ goFields) : Core.writeField k0 k m w page off (r, p, i) word = k := by
  simp [Core.writeField, hown, hgo]

/-- A field stores a value only modulo its width. -/
theorem Core.wr_congr_mod (k : Core) (f : Fld) (w p i : Nat) {v v' : Nat} (h : v % 2 ^ f.width = v' % 2 ^ f.width) :
    k.wr f w p i v = k.wr f w p i v' := by
  simp [Core.wr, Io.wr, SMap.setField, h]

/-- A W1C field of one bit is 0 after a 1 is written to it and stands as it was after a 0. -/
theorem Core.wr_w1c_bit (k : Core) {f : Fld} (w p i b : Nat) (hf : f.width = 1) (hb : b < 2) :
    k.wr f w p i (k.rd f w p i - (k.rd f w p i &&& b)) = k.wr f w p i (if b = 1 then 0 else k.rd f w p i) := by
  apply Core.wr_congr_mod
  rw [hf]
  obtain rfl | rfl : b = 0 ∨ b = 1 := by omega
  · simp
  · rw [Nat.and_one_is_mod, if_pos rfl]
    omega

/-! ### Registers of a port die that are nothing but their fields -/

/-- The pages of a port die's Catalogue configuration, Focus context and trace configuration: none of their registers has a
check as a whole. -/
def plainPages : List Nat := [0x20, 0x60, 0xD0]

section
variable {w page off : Nat} (hp : page ∈ plainPages)
include hp

/-- No register of these pages is checked as a whole. -/
theorem Core.wholeRule_plain (k k1 : Core) (m : Master) (hw : w ≠ 0) : k.wholeRule k1 m w page off = .take := by
  simp only [plainPages, List.mem_cons, List.not_mem_nil, or_false] at hp
  obtain rfl | rfl | rfl := hp <;> simp [Core.wholeRule, hw]

/-- On these pages only PAGE_CTRL and PAGE_STATUS have an effect beside their fields. -/
theorem Core.afterWrite_plain (k old : Core) (hw : w ≠ 0) (hctrl : off ≠ 0x008) (hstat : off ≠ 0x00C) :
    k.afterWrite old w page off = k := by
  simp only [plainPages, List.mem_cons, List.not_mem_nil, or_false] at hp
  obtain rfl | rfl | rfl := hp <;> simp [Core.afterWrite, hw, hctrl, hstat]

/-- On these pages only FOC_CMD has codes that are no command. -/
theorem Core.strayCommand_plain (k : Core) (m : Master) (word : Nat) (hw : w ≠ 0) (hcmd : off ≠ 0x114) :
    k.strayCommand m w page off word = k := by
  simp only [plainPages, List.mem_cons, List.not_mem_nil, or_false] at hp
  obtain rfl | rfl | rfl := hp <;> simp [Core.strayCommand, hw, hcmd]

/-- The write of such a register is the write of its fields, in the order of the map. -/
theorem Core.writeReg_plain (k : Core) (m : Master) (word : Nat) (hw : w ≠ 0) (hind : indAt w page off = none)
    (hctrl : off ≠ 0x008) (hstat : off ≠ 0x00C) (hcmd : off ≠ 0x114) :
    k.writeReg m w page off word =
      (fieldsAt w page off).foldl (fun k1 x => k.writeField k1 m w page off x word) k := by
  simp [Core.writeReg, hind, Core.wholeRule_plain hp _ _ _ hw, Core.afterWrite_plain hp _ _ hw hctrl hstat,
    Core.strayCommand_plain hp _ _ _ hw hcmd]

/-- No register of these pages is a table command. -/
theorem tableOwn_plain (m : Master) (d : Fin 8) (v : Nat) (s : State) : tableOwn m d page off v s = none := by
  simp only [plainPages, List.mem_cons, List.not_mem_nil, or_false] at hp
  obtain rfl | rfl | rfl := hp <;> simp [tableOwn]

/-- On these pages only FOC_CMD is a command of a port die alone. -/
theorem ownWrite_plain (m : Master) (d : Fin 8) (v : Word) (s : State) (hcmd : off ≠ 0x114) :
    ownWrite m d page off v s = everyOwn m (Fin.ofNat 9 (d.val + 1)) page off v s := by
  simp only [plainPages, List.mem_cons, List.not_mem_nil, or_false] at hp
  obtain rfl | rfl | rfl := hp <;> simp [ownWrite, hcmd]

/-- On these pages, in either kind of window, the registers that are commands are EVT_PENDING, EVT_FORCE, PAGE_OWNER and the
halves of 64-bit values. -/
theorem everyOwn_plain (m : Master) (w9 : Fin 9) (v : Word) (s : State) (hclear : off ≠ 0x018) (hforce : off ≠ 0x01C)
    (howner : off ≠ 0x024) (hlo : pairAt false w9 page off = none) (hhi : pairAt true w9 page off = none) :
    everyOwn m w9 page off v s = s := by
  simp only [plainPages, List.mem_cons, List.not_mem_nil, or_false] at hp
  obtain rfl | rfl | rfl := hp <;> simp [everyOwn, hclear, hforce, howner, hlo, hhi]

end

/-! ### REGISTER_WRITE of one word and of several -/

/-- The next word of a longer write, and the offset after it; none is written beyond the page (R91). -/
def State.regWriteNext (m : Master) (w page : Nat) (x : StartFacts) (y : Nat × State) (v : Word) : Nat × State :=
  (y.1 + 4, if y.1 < 4096 then y.2.regWrite m w page y.1 v x else y.2)

/-- A write at an aligned register of a die window writes that register, then the following ones with the other words. -/
theorem exec_registerWrite {addr : BitVec 28} {w page off : Nat} (hsplit : splitAddr addr.toNat = (w, page, off))
    (halign : off % 4 = 0) (hw : w ≤ 8) (s : State) (m : Master) (v : Word) (more : List Word) (x : StartFacts) :
    exec (.registerWrite m addr v more x) s =
      .next ((more.take 15).foldl (State.regWriteNext m w page x) (off + 4, s.regWrite m w page off v x)).2 := by
  have hserved : ¬(off % 4 ≠ 0 ∨ 9 ≤ w) := by omega
  simp only [exec, execRegisterWrite, hsplit, if_neg hserved]
  rfl

/-- A write of one word is the write of its register. -/
theorem exec_registerWrite_one {addr : BitVec 28} {w page off : Nat} (hsplit : splitAddr addr.toNat = (w, page, off))
    (halign : off % 4 = 0) (hw : w ≤ 8) (s : State) (m : Master) (v : Word) (x : StartFacts) :
    exec (.registerWrite m addr v [] x) s = .next (s.regWrite m w page off v x) :=
  exec_registerWrite hsplit halign hw s m v [] x

/-- Four bytes further within a page. -/
theorem splitAddr_add_four {addr : BitVec 28} {w page off : Nat} (hsplit : splitAddr addr.toNat = (w, page, off))
    (hoff : off + 4 < 4096) : splitAddr (addr + 4).toNat = (w, page, off + 4) := by
  simp only [splitAddr, Prod.mk.injEq] at hsplit ⊢
  have hadd : (addr + 4).toNat = addr.toNat + 4 := by bv_omega
  omega

/-- A write of several words is the write of the first, then that of the others from the next register on (R91). -/
theorem exec_registerWrite_cons {addr : BitVec 28} {w page off : Nat} (hsplit : splitAddr addr.toNat = (w, page, off))
    (halign : off % 4 = 0) (hw : w ≤ 8) (hoff : off + 4 < 4096) (s : State) (m : Master) (v v1 : Word) {more : List Word}
    (hmore : more.length ≤ 14) (x : StartFacts) :
    exec (.registerWrite m addr v (v1 :: more) x) s =
      exec (.registerWrite m (addr + 4) v1 more x) (s.regWrite m w page off v x) := by
  have hfirst : State.regWriteNext m w page x (off + 4, s.regWrite m w page off v x) v1 =
      (off + 4 + 4, (s.regWrite m w page off v x).regWrite m w page (off + 4) v1 x) := by
    simp [State.regWriteNext, hoff]
  rw [exec_registerWrite hsplit halign hw,
    exec_registerWrite (splitAddr_add_four hsplit hoff) (by omega) hw,
    List.take_of_length_le (by simp only [List.length_cons]; omega), List.take_of_length_le (by omega),
    List.foldl_cons, hfirst]

/-- The window of a port die leads back to the die. -/
theorem dieOf_dw (d : Fin 8) : Fin.ofNat 8 (dw d - 1) = d := by simp [dw]

/-- A port die's window as the commands name it. -/
theorem winOf_die (d : Fin 8) : (Fin.ofNat 9 (d.val + 1)).val = dw d := by
  simp [dw]; omega

/-- A write on a port die's plain page: the write of the register, and what the common commands make of it. -/
theorem State.regWrite_plain {page off : Nat} (hp : page ∈ plainPages) (hcmd : off ≠ 0x114) (s : State) (m : Master)
    (d : Fin 8) (v : Word) (x : StartFacts) :
    s.regWrite m (dw d) page off v x = everyOwn m (Fin.ofNat 9 (d.val + 1)) page off v
      (s.write m (dw d) page off fun k => k.writeReg m (dw d) page off v.toNat) := by
  have hw : dw d ≠ 0 := Nat.succ_ne_zero _
  simp only [State.regWrite, if_neg hw, dieOf_dw, tableOwn_plain hp, ownWrite_plain hp _ _ _ _ hcmd]

/-- A register is written as its fields alone: no indirect window's register, none of the common header up to PAGE_OWNER, no
FOC_CMD, no half of a 64-bit value. -/
structure FieldsOnly (w page off : Nat) : Prop where
  ind : indAt w page off = none
  header : 0x028 ≤ off
  command : off ≠ 0x114
  aligned : off % 4 = 0
  low : pairAt false w page off = none
  high : pairAt true w page off = none

/-- A served REGISTER_WRITE of one word at such a register of a plain page changes what the writes of its fields change. -/
theorem completes_registerWrite_fields {s : State} {m : Master} {d : Fin 8} {addr : BitVec 28} {page off : Nat}
    (hp : page ∈ plainPages) (hf : FieldsOnly (dw d) page off) (hsplit : splitAddr addr.toNat = (dw d, page, off))
    (hserves : Serves s m (dw d) page off true) (v : Word) (x : StartFacts) :
    Completes (.registerWrite m addr v [] x) s
      ((fieldsAt (dw d) page off).foldl (fun k1 y => s.core.writeField k1 m (dw d) page off y v.toNat) s.core) := by
  obtain ⟨hind, hheader, hcmd, halign, hlo, hhi⟩ := hf
  obtain ⟨hlive, hverdict⟩ := hserves
  have hw : dw d ≠ 0 := Nat.succ_ne_zero _
  rw [Completes, exec_registerWrite_one hsplit halign (by simp [dw]), State.regWrite_plain hp hcmd,
    everyOwn_plain hp _ _ _ _ (by omega) (by omega) (by omega) (by rwa [winOf_die]) (by rwa [winOf_die]),
    State.write_ok _ hlive hverdict,
    Core.writeReg_plain hp _ _ _ hw hind (by omega) (by omega) hcmd]

/-- EVT_FORCE, in either kind of window, is written by the command EVT_FORCE. -/
theorem everyOwn_evtForce (m : Master) (w9 : Fin 9) (page : Nat) (v : Word) (s : State) :
    everyOwn m w9 page 0x01C v s = after (execEvtForce m w9 (Fin.ofNat 4096 page) v s) s := by
  simp [everyOwn]

/-! ### The registers named -/

/-- TRC_CFG: ENTRY and SWITCH_ID (R775). -/
theorem fieldsAt_traceCfg : ∀ d : Fin 8, fieldsAt (dw d) 0xD0 0x100 =
    [(⟨.port, R.TRC_CFG_ENTRY, 1, 1, .rw, false, 0, 2047⟩, 0, 0),
     (⟨.port, R.TRC_CFG_SWITCH_ID, 1, 1, .rw, false, 0, 4095⟩, 0, 0)] := by decide +kernel

/-- TRC_INSERT_CNT (R775). -/
theorem fieldsAt_traceInsertCnt : ∀ d : Fin 8, fieldsAt (dw d) 0xD0 0x110 =
    [(⟨.port, R.TRC_INSERT_CNT, 1, 1, .ro, false, 0, 4294967295⟩, 0, 0)] := by decide +kernel

/-- FOC_EVT_LOG: VALID, CODE and CTX. -/
theorem fieldsAt_focEvtLog : ∀ d : Fin 8, fieldsAt (dw d) 0x60 0x140 =
    [(⟨.port, R.FOC_EVT_LOG_VALID, 1, 1, .w1c, false, 0, 1⟩, 0, 0),
     (⟨.port, R.FOC_EVT_LOG_CODE, 1, 1, .ro, false, 0, 15⟩, 0, 0),
     (⟨.port, R.FOC_EVT_LOG_CTX, 1, 1, .ro, false, 0, 4095⟩, 0, 0)] := by decide +kernel

/-- CAT_LRN_RATE: LIMIT. -/
theorem fieldsAt_catLrnRate : ∀ d : Fin 8, fieldsAt (dw d) 0x20 0x104 =
    [(⟨.port, R.CAT_LRN_RATE_LIMIT, 1, 1, .rw, false, 1, 50⟩, 0, 0)] := by decide +kernel

/-- EVT_FORCE on a Catalogue page (R82): the common header repeats on every page. -/
theorem fieldsAt_evtForce : ∀ d : Fin 8, fieldsAt (dw d) 0x20 0x01C =
    [(⟨.every, R.EVT_FORCE, 1, 1, .wo, true, 0, 4294967295⟩, 0x20, 0)] := by decide +kernel

/-- Page and offset of TRC_CFG, TRC_INSERT_CNT, FOC_EVT_LOG and CAT_LRN_RATE. -/
def plainPlaces : List (Nat × Nat) := [(0xD0, 0x100), (0xD0, 0x110), (0x60, 0x140), (0x20, 0x104)]

/-- These four registers stand in no indirect window and are no halves of 64-bit values. -/
theorem fieldsOnly_of_mem (d : Fin 8) {page off : Nat} (h : (page, off) ∈ plainPlaces) :
    FieldsOnly (dw d) page off := by
  have hplaces : ∀ d : Fin 8, ∀ y ∈ plainPlaces,
      indAt (dw d) y.1 y.2 = none ∧ 0x028 ≤ y.2 ∧ y.2 ≠ 0x114 ∧ y.2 % 4 = 0 ∧
        pairAt false (dw d) y.1 y.2 = none ∧ pairAt true (dw d) y.1 y.2 = none := by decide +kernel
  obtain ⟨hind, hheader, hcmd, halign, hlo, hhi⟩ := hplaces d (page, off) h
  exact ⟨hind, hheader, hcmd, halign, hlo, hhi⟩

/-! ### REGISTER_WRITE by access type -/

section
variable {s : State} {m : Master} {d : Fin 8} {addr : BitVec 28} (v : Word) (x : StartFacts)

/-- TRC_CFG takes both its RW fields. -/
theorem registerWrite_traceCfg (hsplit : splitAddr addr.toNat = (dw d, 0xD0, 0x100))
    (hserves : Serves s m (dw d) 0xD0 0x100 true) :
    Completes (.registerWrite m addr v [] x) s
      ((s.core.wr R.TRC_CFG_ENTRY (dw d) 0 0 (bits v.toNat 22 12)).wr R.TRC_CFG_SWITCH_ID (dw d) 0 0
        (bits v.toNat 11 0)) := by
  have h := completes_registerWrite_fields (by decide) (fieldsOnly_of_mem d (by decide)) hsplit hserves v x
  have hentry : bits v.toNat 22 12 ≤ 2047 := Nat.le_of_lt_succ (Nat.mod_lt _ (by decide))
  have hid : bits v.toNat 11 0 ≤ 4095 := Nat.le_of_lt_succ (Nat.mod_lt _ (by decide))
  rwa [fieldsAt_traceCfg, List.foldl_cons, List.foldl_cons, List.foldl_nil,
    Core.writeField_rw_inRange _ _ _ rfl rfl (by decide) ⟨Nat.zero_le _, hid⟩,
    Core.writeField_rw_inRange _ _ _ rfl rfl (by decide) ⟨Nat.zero_le _, hentry⟩] at h

/-- TRC_INSERT_CNT is RO. -/
theorem registerWrite_traceInsertCnt (hsplit : splitAddr addr.toNat = (dw d, 0xD0, 0x110))
    (hserves : Serves s m (dw d) 0xD0 0x110 true) : Completes (.registerWrite m addr v [] x) s s.core := by
  have h := completes_registerWrite_fields (by decide) (fieldsOnly_of_mem d (by decide)) hsplit hserves v x
  rwa [fieldsAt_traceInsertCnt, List.foldl_cons, List.foldl_nil,
    Core.writeField_ro _ _ _ _ _ _ _ _ _ rfl (by decide)] at h

/-- FOC_EVT_LOG: VALID clears where a 1 is written, its RO neighbours stay. -/
theorem registerWrite_focEvtLog (hsplit : splitAddr addr.toNat = (dw d, 0x60, 0x140))
    (hserves : Serves s m (dw d) 0x60 0x140 true) :
    Completes (.registerWrite m addr v [] x) s
      (s.core.wr R.FOC_EVT_LOG_VALID (dw d) 0 0
        (if bit v.toNat 31 = 1 then 0 else s.core.rd R.FOC_EVT_LOG_VALID (dw d) 0 0)) := by
  have h := completes_registerWrite_fields (by decide) (fieldsOnly_of_mem d (by decide)) hsplit hserves v x
  have hbit : bit v.toNat 31 < 2 := Nat.mod_lt _ (by decide)
  rw [← Core.wr_w1c_bit _ _ _ _ _ rfl hbit]
  rwa [fieldsAt_focEvtLog, List.foldl_cons, List.foldl_cons, List.foldl_cons, List.foldl_nil,
    Core.writeField_ro _ _ _ _ _ _ _ _ _ rfl (by decide), Core.writeField_ro _ _ _ _ _ _ _ _ _ rfl (by decide),
    Core.writeField_w1c _ _ _ _ _ _ _ _ _ rfl rfl] at h

/-- CAT_LRN_RATE takes a limit of 1 to 50; another one leaves the field and sets CFG_ERR. -/
theorem registerWrite_catLrnRate (hsplit : splitAddr addr.toNat = (dw d, 0x20, 0x104))
    (hserves : Serves s m (dw d) 0x20 0x104 true) :
    Completes (.registerWrite m addr v [] x) s
      (if 1 ≤ bits v.toNat 5 0 ∧ bits v.toNat 5 0 ≤ 50 then s.core.wr R.CAT_LRN_RATE_LIMIT (dw d) 0 0 (bits v.toNat 5 0)
       else s.core.cfgErr (dw d) 0x20 m 0x104) := by
  have h := completes_registerWrite_fields (by decide) (fieldsOnly_of_mem d (by decide)) hsplit hserves v x
  rw [fieldsAt_catLrnRate, List.foldl_cons, List.foldl_nil] at h
  split
  · next hrange => rwa [Core.writeField_rw_inRange _ _ _ rfl rfl (by decide) hrange] at h
  · next hrange => rwa [Core.writeField_rw_reserved _ _ _ rfl rfl (by decide) hrange] at h

/-- EVT_FORCE makes the named bits pending, as the command EVT_FORCE does. -/
theorem registerWrite_evtForce (hsplit : splitAddr addr.toNat = (dw d, 0x20, 0x01C))
    (hserves : Serves s m (dw d) 0x20 0x01C true) :
    Completes (.registerWrite m addr v [] x) s (s.core.onIo (·.setPending s.core.stamp (dw d) 0x20 v.toNat)) := by
  have hw : dw d ≠ 0 := Nat.succ_ne_zero _
  have hind : ∀ d : Fin 8, indAt (dw d) 0x20 0x01C = none := by decide +kernel
  have hfields : s.core.writeReg m (dw d) 0x20 0x01C v.toNat = s.core := by
    rw [Core.writeReg_plain (by decide) _ _ _ hw (hind d) (by decide) (by decide) (by decide), fieldsAt_evtForce,
      List.foldl_cons, List.foldl_nil, Core.writeField_own _ _ _ _ _ _ _ _ _ rfl (by decide)]
  obtain ⟨hlive, hverdict⟩ := hserves
  rw [Completes, exec_registerWrite_one hsplit (by decide) (by simp [dw]), State.regWrite_plain (by decide) (by decide),
    State.write_ok _ hlive hverdict, hfields, everyOwn_evtForce, execEvtForce, winOf_die]
  exact congrArg _ (State.write_ok _ hlive hverdict)

end

/-! ### Accesses that reach no register -/

/-- The offset of an address, as the error registers keep it. -/
theorem offset_of_splitAddr {addr w page off : Nat} (hsplit : splitAddr addr = (w, page, off)) : addr % 4096 = off := by
  simp only [splitAddr, Prod.mk.injEq] at hsplit
  obtain ⟨-, -, hoff⟩ := hsplit
  exact hoff

section
variable {s : State} {m : Master} {addr : BitVec 28} {w page off : Nat} (hlive : s.core.live = true)
  (hsplit : splitAddr addr.toNat = (w, page, off))
include hlive hsplit

/-- The window of an absent port die reads as zeros and takes no write, without an error (R3). -/
theorem completes_unpopulatedWindowAccess (hlo : 1 ≤ w) (hhi : w ≤ 8) (habsent : s.core.populated (w - 1) = false)
    (hmaster : ∀ d, m ≠ .die d) (v : Option Word) :
    Completes (.unpopulatedWindowAccess m addr v) s (if v.isNone then s.core.readOut m addr.toNat 0 else s.core) := by
  have hthere : 1 ≤ w ∧ w ≤ 8 ∧ s.core.populated (w - 1) = false := ⟨hlo, hhi, habsent⟩
  cases m with
  | die d => exact absurd rfl (hmaster d)
  | pf f | mp | debug =>
    simp [Completes, exec, execUnpopulatedWindowAccess, hsplit, State.onCore_live _ hlive, done, hthere, Core.zeros]

/-- A reserved window reads as zeros and takes no write; ACC_ERR shows on the root page of the Meridian die (R71). -/
theorem completes_reservedRangeAccess (hlo : 9 ≤ w) (hhi : w ≤ 14) (hserves : s.core.serves m = true) (v : Option Word) :
    Completes (.reservedRangeAccess m addr v) s
      (if v.isNone then (s.core.accErr 0 0 m off).readOut m addr.toNat 0 else s.core.accErr 0 0 m off) := by
  have hplace : s.core.reservedPlace addr.toNat = some 0 := by simp [Core.reservedPlace, hsplit, hlo, hhi]
  simp [Completes, exec, execReservedRangeAccess, State.onCore_live _ hlive, done, hserves, hplace, Core.zeros,
    offset_of_splitAddr hsplit]

/-- An access of a bad width on a page of the Meridian die reads zeros or is discarded; ACC_ERR shows on the page (R92). -/
theorem completes_badWidthAccess_meridian {len : Fin 65} (hbad : badWidth addr.toNat len = true)
    (hserves : s.core.serves m = true) (hw : w = 0) (hpage : s.core.pageExists 0 page = true) (write : Bool) :
    Completes (.badWidthAccess m addr len write) s
      (if write then s.core.accErr 0 page m off else (s.core.accErr 0 page m off).readOut m addr.toNat 0) := by
  subst hw
  cases write <;>
    simp [Completes, exec, execBadWidthAccess, hsplit, State.onCore_live _ hlive, done, hbad, hserves, hpage, Core.zeros,
      offset_of_splitAddr hsplit]

end

/-- Settles O1: the write of each register is the write of its fields by access type, a longer write goes register by
register, and the accesses that reach none end in `Core.zeros`. -/
theorem registerAccess : Obligations.RegisterAccess := by
  refine ⟨fun s m d addr v x => ⟨registerWrite_traceCfg v x, registerWrite_traceInsertCnt v x, registerWrite_focEvtLog v x,
    registerWrite_catLrnRate v x, registerWrite_evtForce v x⟩, ?_, ?_⟩
  · intro s m addr v v1 more x w page off hsplit halign hw hoff hmore
    exact ⟨_, exec_registerWrite_one hsplit halign hw s m v x,
      exec_registerWrite_cons hsplit halign hw hoff s m v v1 hmore x⟩
  · intro s m addr v len write w page off hlive hsplit
    exact ⟨fun hlo hhi habsent hmaster => completes_unpopulatedWindowAccess hlive hsplit hlo hhi habsent hmaster v,
      fun hlo hhi hserves => completes_reservedRangeAccess hlive hsplit hlo hhi hserves v,
      fun hbad hserves hw hpage => completes_badWidthAccess_meridian hlive hsplit hbad hserves hw hpage write⟩

end Sys2Proof.Machine
end

section
/-!
SUPPORT. The shared shapes of this family's commands: a meaning over the core, a served register write, what is found in a
memory, and a fold that keeps a part of the core.
-/
namespace Sys2Proof.Machine

/-! ### The shape of a command -/

/-- On a part that runs, a command that is a meaning over the core changes the core by that meaning. -/
theorem completes_onCore {c : Instr} {s : State} (f : Core → Core) (hlive : s.core.live = true)
    (hexec : exec c s = done (s.onCore f)) : Completes c s (f s.core) := by
  rw [Completes, hexec, State.onCore_live f hlive, done]

/-- A command that is a served register write changes the core by that write's meaning. -/
theorem completes_write {c : Instr} {s : State} {m : Master} {w page off : Nat} (f : Core → Core)
    (hserves : Serves s m w page off true) (hexec : exec c s = done (s.write m w page off f)) :
    Completes c s (f s.core) := by
  obtain ⟨hlive, hverdict⟩ := hserves
  rw [Completes, hexec, State.write_ok f hlive hverdict, done]

/-! ### Folds over the core -/

/-- A fold whose every step keeps a part of the state keeps it. -/
theorem foldl_keeps {σ α β : Type} (part : σ → β) {f : σ → α → σ} (hstep : ∀ k a, part (f k a) = part k) (l : List α)
    (k : σ) : part (l.foldl f k) = part k := by
  rw [← List.foldl_hom part (g₂ := fun b _ => b) fun k a => (hstep k a).symm, List.foldl_fixed]

/-! ### Changes of the register space alone -/

/-- The second core differs from the first in the register space alone. -/
def Core.IoOnly (k k' : Core) : Prop := ∃ f, k' = k.onIo f

namespace Core.IoOnly

variable {k k' k'' : Core}

/-- Nothing is changed. -/
theorem refl (k : Core) : k.IoOnly k := ⟨id, rfl⟩

/-- One such change after another is one. -/
theorem trans (h : k.IoOnly k') (h' : k'.IoOnly k'') : k.IoOnly k'' := by
  obtain ⟨f, rfl⟩ := h
  obtain ⟨g, rfl⟩ := h'
  exact ⟨g ∘ f, rfl⟩

/-- A change of the register space is one. -/
theorem onIo (h : k.IoOnly k') (f : Io → Io) : k.IoOnly (k'.onIo f) := h.trans ⟨f, rfl⟩

/-- So is a saturating count. -/
theorem bump (h : k.IoOnly k') (f : Fld) (w p i n : Nat) : k.IoOnly (k'.bump f w p i n) := h.onIo _

/-- So is a counted event. -/
theorem count (h : k.IoOnly k') (w cls code inst n : Nat) : k.IoOnly (k'.count w cls code inst n) := h.onIo _

/-- So is an event raised. -/
theorem raise (h : k.IoOnly k') (w page b : Nat) : k.IoOnly (k'.raise w page b) := h.onIo _

/-- So is an uncorrectable error found in a memory. -/
theorem ueFound (h : k.IoOnly k') (w cls : Nat) : k.IoOnly (k'.ueFound w cls) := (h.bump _ _ _ _ _).count _ _ _ _ _

/-- So is a corrected one. -/
theorem ceFound (h : k.IoOnly k') (w page i cls : Nat) : k.IoOnly (k'.ceFound w page i cls) :=
  ((h.onIo _).bump _ _ _ _ _).count _ _ _ _ _

end Core.IoOnly

/-- Corrected errors that reads meet are counted in the register space alone (R572, R573). -/
theorem Core.cesFound_ioOnly (k : Core) (w : Nat) (ces : List (Fin 4096 × Fin 8)) : k.IoOnly (k.cesFound w ces) :=
  List.foldlRecOn ces _ (.refl k) fun k' h x _ => by
    cases ceClassAt w x.1 x.2 with
    | none => exact h
    | some c => exact h.ceFound _ _ _ _

end Sys2Proof.Machine
end

section
/-!
SUPPORT. FRAME_RECEIVE (R42, R316, R324, R407, R534): what the MAC makes of a frame, and the admission of a frame of one
cell.
-/
namespace Sys2Proof.Machine

section
variable (k : Core) (d l : Nat) (f : List Byte)

/-! ### Whether the port receives -/

/-- A port that does not receive takes no frame. -/
theorem Core.frameReceive_of_not_receives (words : List (List Nat)) (shared short : Bool)
    (h : k.receives d l = false) : k.frameReceive d l f words shared short = k := by simp [Core.frameReceive, h]

/-- Nor does it take symbols. -/
theorem Core.lineReceive_of_not_receives (line : List (List Nat)) (h : k.receives d l = false) :
    k.lineReceive d l line = k := by simp [Core.lineReceive, h]

/-- On a port that receives the codewords are counted, and the frame goes to the MAC. -/
theorem Core.frameReceive_of_receives (words : List (List Nat)) (shared short : Bool) (h : k.receives d l = true) :
    k.frameReceive d l f words shared short =
      (k.wordsSeen d l (k.codedWords d l words) shared).macReceive d l f
        ((k.codedWords d l words).any (k.lineForm d l).spoilt) short := by
  simp [Core.frameReceive, h]

/-! ### What the MAC makes of it -/

/-- A MAC whose pipeline is not ready takes nothing (R182). -/
theorem Core.macReceive_notReady (coded short : Bool) (h : k.macReady d l = false) :
    k.macReceive d l f coded short = k := by simp [Core.macReceive, h]

/-- A frame shorter than 64 bytes only counts. -/
theorem Core.macReceive_runt (coded short : Bool) (hready : k.macReady d l = true) (hlen : f.length < 64) :
    k.macReceive d l f coded short = (k.pstat d l 10 f.length).pstat d l 3 1 := by
  simp [Core.macReceive, hready, hlen]

/-- A good frame that is no MAC control frame is counted and admitted (R324, R761). -/
theorem Core.macReceive_good (hready : k.macReady d l = true) (hmin : 64 ≤ f.length) (hmtu : f.length ≤ k.mtu d l)
    (hfcs : fcsGood f = true) (hctl : getBe f 12 2 ≠ 0x8808) :
    k.macReceive d l f false false =
      ((k.pstat d l 10 f.length).rxStats d l f false true).admitFrame d l f false false := by
  simp [Core.macReceive, hready, Nat.not_lt.mpr hmin, Nat.not_lt.mpr hmtu, hfcs, hctl, List.take_of_length_le hmtu]

/-! ### Admission of one cell -/

/-- A frame of one cell that its account's minimum or the shared pool takes is charged as one cell (R316, R324). -/
theorem Core.admitCells_one {g : Nat} (h : k.admitCell d l g true = .minimum ∨ k.admitCell d l g true = .shared) :
    k.admitCells d l g 1 = ((k.chargeCell d l g .shared).moved d (k.freeCells d), 1, none) := by
  obtain h | h := h <;> simp [Core.admitCells, Core.chargeCells, h, Core.chargeCell]

/-- A frame of 64 to 256 bytes takes one cell. -/
theorem cellsOf_one {n : Nat} (hmin : 64 ≤ n) (hmax : n ≤ 256) : cellsOf n = 1 := by
  unfold cellsOf
  omega

/-- The time of a frame received now: the end of its first symbol less RX_COMP (R407). -/
def Core.rxTime (k : Core) (d l : Nat) : Nat :=
  ((k.time.tod : Int) - signed (k.td T.STB_COMP_RX_COMP (dw d) 0 l)).toNat

/-- The packet that a received frame becomes, of a priority group, a traffic class and a group of cells. -/
def Core.rxPkt (k : Core) (d l : Nat) (f : List Byte) (id grp : Nat) : Pkt :=
  freshPkt id d (l / 32) l (k.classify d l f).1 (k.losslessPg d l (k.classify d l f).1) grp f (k.classify d l f).2
    (BitVec.ofNat 32 (k.rxTime d l / 65536 % 1000000000)) (BitVec.ofNat 32 (k.rxTime d l / secUnits))

/-- A good frame of one cell is charged to the account of its group, and its packet waits for the parser behind all
others (R42, R407). -/
theorem Core.admitFrame_one (hmin : 64 ≤ f.length) (hmax : f.length ≤ 256)
    (hroom : k.admitCell d l (k.classify d l f).1 true = .minimum ∨
      k.admitCell d l (k.classify d l f).1 true = .shared) :
    let k2 := (k.chargeCell d l (k.classify d l f).1 .shared).moved d (k.freeCells d)
    k.admitFrame d l f false false =
      (k2.takeId.2.takeId.2.addGrp (freshGrp k2.takeId.1 d 1 l (k.classify d l f).1)).moveOn
        (k.rxPkt d l f k2.takeId.2.takeId.1 k2.takeId.1) := by
  simp [Core.admitFrame, cellsOf_one hmin hmax, Core.admitCells_one k d l hroom, Core.rxPkt, Core.rxTime, freshPkt]

end

/-- FRAME_RECEIVE of a frame given as bytes, on a part that runs. -/
theorem completes_frameReceive_bytes {s : State} (hlive : s.core.live = true) (d : Fin 8) (l : Fin 256)
    (frame : List Byte) (words : List (List (Fin 544))) (shared : Bool) :
    Completes (.frameReceive d l frame words shared []) s
      (s.core.frameReceive d l frame (words.map fun x => x.map (·.val)) shared false) := by
  have hform := completes_onCore (c := .frameReceive d l frame words shared []) _ hlive rfl
  rwa [List.isEmpty_nil, if_pos rfl] at hform

/-- A frame for a port that does not receive leaves the core as it is, in either form. -/
theorem completes_frameReceive_of_not_receives {s : State} (hlive : s.core.live = true) (d : Fin 8) (l : Fin 256)
    (frame : List Byte) (words : List (List (Fin 544))) (shared : Bool) (line : List (List (Fin 4)))
    (h : s.core.receives d l = false) : Completes (.frameReceive d l frame words shared line) s s.core := by
  have hform := completes_onCore (c := .frameReceive d l frame words shared line) _ hlive rfl
  rwa [Core.frameReceive_of_not_receives _ _ _ _ _ _ _ h, Core.lineReceive_of_not_receives _ _ _ _ h, ite_self] at hform

/-- Settles O8: the frame goes to the MAC, which counts it alone, or admits it as one cell. -/
theorem frameReceive : Obligations.FrameReceive := by
  refine ⟨?_, ?_⟩
  · intro s d l frame words shared line hlive k1
    have hform := completes_frameReceive_bytes hlive d l frame words shared
    refine ⟨completes_frameReceive_of_not_receives hlive d l frame words shared line, ?_, ?_⟩
    · intro hrec hready
      rwa [Core.frameReceive_of_receives _ _ _ _ _ _ _ hrec, Core.macReceive_notReady _ _ _ _ _ _ hready] at hform
    · intro hrec hready hlen
      rwa [Core.frameReceive_of_receives _ _ _ _ _ _ _ hrec,
        Core.macReceive_runt _ _ _ _ _ _ hready hlen] at hform
  · intro s d l frame words shared ws k0 hlive hrec hspoilt hready hmin hmax hmtu hfcs hctl k1 pg t hroom k2
    have hform := completes_frameReceive_bytes hlive d l frame words shared
    rwa [Core.frameReceive_of_receives _ _ _ _ _ _ _ hrec, hspoilt,
      Core.macReceive_good _ _ _ _ hready hmin hmtu hfcs hctl, Core.admitFrame_one _ _ _ _ hmin hmax hroom] at hform

end Sys2Proof.Machine
end

section
/-!
SUPPORT. INGRESS_PARSE (R44, R120, R209): the parse leaves everything but the register space and the packet as it was.
-/
namespace Sys2Proof.Machine

/-- A parse error is counted in the register space alone (R211). -/
theorem Core.parseErrors_ioOnly (k : Core) (d p : Nat) (e : ParseEnd) : k.IoOnly (k.parseErrors d p e) := by
  have hcounted (i : Nat) : k.IoOnly ((k.bump R.PRS_ERR_CNT (dw d) p i 1).raise (dw d) (0x10 + p) 1) :=
    ((Core.IoOnly.refl k).bump _ _ _ _ _).raise _ _ _
  unfold Core.parseErrors
  by_cases hnone : e.err = 0
  · rw [if_pos hnone]
    exact .refl k
  · rw [if_neg hnone]
    by_cases hentry : e.err = 6
    · simp only [if_pos hentry]
      exact ((hcounted _).ueFound _ _).raise _ _ _
    · simp only [if_neg hentry]
      exact hcounted _

section
variable (k : Core) (p : Pkt) (ue entry : Option Nat) (half recirc : Nat)

/-- The parse itself changes the register space alone. -/
theorem Core.parseIn_ioOnly : k.IoOnly (k.parseIn p ue entry half recirc).1 :=
  (k.parseErrors_ioOnly _ _ _).count _ _ _ _ _

/-- The parsed packet stands at stage 0, at an address of the half given (R120). -/
theorem Core.parseIn_addr : (k.parseIn p ue entry half recirc).2.addr / 2048 = half := by
  have hmod (n : Nat) : (half * 2048 + n % 2048) / 2048 = half := by omega
  exact hmod _

end

/-- What a packet is after its ingress parse: the same frame in the same cells, at stage 0, at an address of the half
given. -/
structure Parsed (x y : Pkt) (half : Nat) : Prop where
  id : y.id = x.id
  frame : y.frame = x.frame
  grp : y.grp = x.grp
  place : y.place = .stage
  stage : y.stage = 0
  ended : y.ended = false
  addr : y.addr / 2048 = half

/-- The parse gives a parsed packet; whether the die is throttled changes none of it. -/
theorem Core.parseIn_parsed (k : Core) (x : Pkt) (throttled : Bool) (ue entry : Option Nat) (half recirc : Nat) :
    Parsed x (k.parseIn { x with throttled := throttled } ue entry half recirc).2 half :=
  ⟨rfl, rfl, rfl, rfl, rfl, rfl, Core.parseIn_addr ..⟩

/-- INGRESS_PARSE of the oldest packet that waits, on a pipeline whose stores are ready: the register space takes what the
parse counts, and the parsed packet moves behind all others. -/
theorem Core.ingressParse_ready {k : Core} {d p : Nat} {x : Pkt}
    (hx : k.pipes.pkts.find? (fun x => x.die == d && x.pipe == p && x.place == .arrived) = some x)
    (hready : k.rd R.SEQ_STATUS_READY (dw d) p 0 ≠ 0) (ue : Option Nat) (ces : List (Fin 4096 × Fin 8)) :
    ∃ k' y, k.ingressParse d p ue ces = k'.moveOn y ∧ k.IoOnly k' ∧ Parsed x y (k.epoch d p false) := by
  simp only [Core.ingressParse, hx, if_neg hready]
  exact ⟨_, _, rfl, (k.cesFound_ioOnly (dw d) ces).trans (Core.parseIn_ioOnly ..), Core.parseIn_parsed ..⟩

/-- Settles O10: the parse changes the register space and the packet, and the packet moves behind all others. -/
theorem ingressParse : Obligations.IngressParse := by
  intro s d p ue ces x hlive hx hready
  obtain ⟨k', y, hparse, ⟨f, rfl⟩, hy⟩ := Core.ingressParse_ready hx hready (ue.map (·.val)) ces
  have hform := completes_onCore (c := .ingressParse d p ue ces) _ hlive rfl
  rw [hparse] at hform
  exact ⟨_, y, hform, by simp [Core.moveOn, hy.id], hy.id, hy.frame, hy.grp, hy.place, hy.stage, hy.ended, hy.addr,
    rfl, rfl, rfl⟩

end Sys2Proof.Machine
end

section
/-!
SUPPORT. Egress service (R66, R315, R366, R409, R420, R421, R446): what the scheduler may pick, what a start makes of a
head, and the end of a transmission.
-/
namespace Sys2Proof.Machine

/-! ### The pick (R420 to R422) -/

section
variable (k : Core) (d l : Nat) (view : Nat → Option QueueView)

/-- Deficit round robin picks an eligible queue, wherever it begins (R422). -/
theorem Core.drr_eligible (n fuel q0 : Nat) {q : Nat} (h : (k.drr d l n view fuel q0).2 = some q) :
    (view q).any (·.eligible) = true := by
  induction fuel generalizing k q0 with
  | zero => simp [Core.drr] at h
  | succ fuel ih =>
    rw [Core.drr] at h
    cases hview : view q0 with
    | none =>
      rw [hview] at h
      exact ih _ _ h
    | some v =>
      simp only [hview] at h
      by_cases helig : v.eligible = true
      · rw [if_pos helig] at h
        generalize k.deficit d l q0 + _ = deficit at h
        split at h
        · obtain rfl : q0 = q := by simpa using h
          simp [hview, helig]
        · exact ih _ _ h
      · rw [if_neg helig] at h
        exact ih _ _ h

/-- A queue that is picked is eligible, strict or not (R420, R421). -/
theorem Core.pickQueue_eligible {q : Nat} (h : (k.pickQueue d l view).2 = some q) :
    (view q).any (·.eligible) = true := by
  simp only [Core.pickQueue] at h
  split at h
  next q' hfind =>
    obtain rfl : q' = q := by simpa using h
    exact (List.find?_some hfind :)
  next =>
    split at h
    · simp at h
    · exact Core.drr_eligible _ _ _ _ _ _ _ h

/-- The highest eligible queue, where it is a strict one, is picked, and nothing changes by it (R421). -/
theorem Core.pickQueue_strict {q : Nat} (hq : q < 16)
    (hstrict : 16 - q ≤ k.td T.SCH_PORT_NSTRICT (dw d) (l / 32) (l % 32))
    (helig : (view q).any (·.eligible) = true)
    (hhighest : ∀ r, q < r → r < 16 → (view r).any (·.eligible) = false) :
    k.pickQueue d l view = (k, some q) := by
  have hfind : ((List.range (k.td T.SCH_PORT_NSTRICT (dw d) (l / 32) (l % 32))).map (15 - ·)).find?
      (fun q => (view q).any (·.eligible)) = some q := by
    rw [List.find?_map, Option.map_eq_some_iff]
    refine ⟨15 - q, List.find?_range_eq_some.mpr ⟨?_, List.mem_range.mpr (by omega), ?_⟩, by omega⟩
    · rwa [Function.comp_apply, show 15 - (15 - q) = q by omega]
    · intro j hj
      simp [hhighest (15 - j) (by omega) (by omega)]
  simp only [Core.pickQueue, hfind]

end

/-! ### The commands' meanings, case by case -/

section
variable (k : Core) (d l : Nat)

/-- The core at which a port's pick begins: a queue whose links are lost is flushed first (R570 class 12). -/
def Core.beforePick (x : SelectFacts) : Core :=
  match x.link with
  | some q => (k.cesFound (dw d) x.ces).queueLost d l q
  | none => k.cesFound (dw d) x.ces

/-- EGRESS_SELECT on a free port with no PFC frame due starts the queue that the rule picks, if it picks one (R331, R421). -/
theorem Core.egressSelect_free (x : SelectFacts) (hport : k.portExists d l = true) (hfree : k.portBusy d l = false)
    (hpfc : k.pfcFirst d l = false) (hready : k.macReady d l = true) {k1 : Core} {r : Core × Option Nat}
    (hk1 : k.beforePick d l x = k1) (hpick : k1.pickQueue d l (k1.viewQueue d l) = r) :
    (r.2 = none → k.egressSelect d l x = (List.range 16).foldl (fun k q => k.countHeld d l q) r.1) ∧
    ∀ q, r.2 = some q →
      k.egressSelect d l x = ((List.range 16).foldl (fun k q => k.countHeld d l q) r.1).startHead d l q x := by
  have hgo : ¬(¬k.portExists d l = true ∨ k.portBusy d l = true ∨ k.pfcFirst d l = true ∨ ¬k.macReady d l = true) := by
    simp [hport, hfree, hpfc, hready]
  cases hlink : x.link <;>
    · simp only [Core.beforePick, hlink] at hk1
      simp only [Core.egressSelect, if_neg hgo, hlink, hk1, hpick]
      exact ⟨fun h => by rw [h], fun q h => by rw [h]⟩

/-- A head with a cell that fails parity is dropped and counted (R365, R391). -/
theorem Core.startHead_parity (q : Nat) (x : SelectFacts) {c : Copy} (hhead : k.headOf d l q = some c)
    (hpar : x.parity = true) :
    k.startHead d l q x =
      ((((({ k with buf := { k.buf with eq := k.buf.eq.filter (·.id != c.id) } }.cellBad d).bump
        R.BUF_CELL_PAR_DROP_CNT (dw d) 0 0 1).raise (dw d) 0x28 2).releaseEgress c l q).noteIdle d l q) := by
  simp [Core.startHead, hhead, hpar]

/-- A copy that is neither bad nor cut through, with those flags written again. -/
theorem Copy.with_flags {c : Copy} (hgood : c.bad = false) (hcut : c.cut = false) :
    { c with bad := false, cut := false } = c := by
  cases c
  cases hgood
  cases hcut
  rfl

/-- TRANSMIT_COMPLETE of a good frame that was not cut through, on a port that may send: the frame is counted, its timestamp
captured, the frame handed out and its copy released (R315, R409, R761). -/
theorem Core.transmitComplete_good {x : Sending}
    (hx : k.egr.sending.find? (fun x => x.copy.port == d * 256 + l) = some x) (hup : k.linkUp d l = true)
    (hhold : k.holding d l = false) (hready : k.macReady d l = true) (hgood : x.copy.bad = false)
    (hcut : x.copy.cut = false) :
    k.transmitComplete d l false =
      ((((((({ k with egr := { k.egr with sending := k.egr.sending.filter fun y => y.copy.id != x.copy.id } }).txStats d l
        x.frame false).etsCapture d l x.flags x.tag x.start).sendLine d l x.frame).emit
          (.frame (d * 256 + l) x.frame)).releaseEgress x.copy l x.copy.queue).noteIdle d l x.copy.queue).watchQueue
            d l x.copy.queue true := by
  simp [Core.transmitComplete, hx, hup, hhold, hready, hgood, hcut, Copy.with_flags hgood hcut]

end

section
variable {s : State} {m : Master} {d : Fin 8} {l : Fin 256}

/-- ETS_POP discards the oldest timestamp of the die and shows the next (R446). -/
theorem completes_etsPop (hserves : Serves s m (dw d) 0x5C 0x10C true) {e : Ets}
    (he : s.core.egr.ets.find? (·.die == d.val) = some e) :
    Completes (.etsPop m d) s
      (({ s.core with egr := { s.core.egr with ets := s.core.egr.ets.erase e } }).etsShow d) := by
  have hform := completes_write (c := .etsPop m d) _ hserves rfl
  simpa only [he] using hform

/-- A down-hold that is over, with the link still down, flushes the port; a fenced die's pairs go with its last one
(R66, R370). -/
theorem completes_downHoldExpire (hlive : s.core.live = true)
    (hheld : s.core.buf.holdEnd.get (d.val * 256 + l.val) ≠ 0)
    (hover : s.core.buf.holdEnd.get (d.val * 256 + l.val) ≤ s.core.time.now + 1)
    (hdown : s.core.linkUp d l = false) :
    Completes (.downHoldExpire d l) s ((s.core.downFlush d l).fenceFlush d) := by
  have hform := completes_onCore (c := .downHoldExpire d l) _ hlive rfl
  have hnotYet : ¬s.core.time.now < s.core.buf.holdEnd.get (d.val * 256 + l.val) - 1 := by omega
  simpa [hheld, hnotYet, hdown] using hform

end

/-- Settles O27: each command's meaning on its case, and the pick by `Core.pickQueue_strict` and
`Core.pickQueue_eligible`. -/
theorem egressService : Obligations.EgressService := by
  intro s m d l hlive k
  refine ⟨?_, fun view q => k.pickQueue_eligible d l view, fun q c x => k.startHead_parity d l q x, ?_, ?_, ?_⟩
  · intro x hport hfree hpfc hready k1
    have hk1 : k.beforePick d l x = k1 := rfl
    clear_value k1
    have hform := completes_onCore (c := .egressSelect d l x) _ hlive rfl
    have hselect {r} := k.egressSelect_free d l x hport hfree hpfc hready hk1 (r := r)
    refine ⟨fun hnone => ?_, fun q hsome => ?_, fun q hq hstrict helig hhighest => ?_⟩
    · rwa [(hselect rfl).1 hnone] at hform
    · rwa [(hselect rfl).2 q hsome] at hform
    · rwa [(hselect (k1.pickQueue_strict d l (k1.viewQueue d l) hq hstrict helig hhighest)).2 q rfl] at hform
  · intro x hx hup hhold hready hgood hcut
    have hform := completes_onCore (c := .transmitComplete d l false) _ hlive rfl
    rwa [k.transmitComplete_good d l hx hup hhold hready hgood hcut] at hform
  · exact fun e hserves he => completes_etsPop hserves he
  · exact completes_downHoldExpire hlive

end Sys2Proof.Machine
end

section
/-!
SUPPORT. Scrubbing, repair and self-test (R570, R590 to R601): what each command makes of the core, case by case, and what a
cleared memory leaves.
-/
namespace Sys2Proof.Machine

/-! ### The laws of the RAS fields -/

section
variable (k : Core) (w : Nat) (fm fd : Fld) (v : Nat)

/-- A write of a RAS field leaves the passes and self-tests. -/
@[simp] theorem Core.rasWr_ras : (k.rasWr w fm fd v).ras = k.ras := rfl

/-- A write of a RAS field leaves the tables. -/
@[simp] theorem Core.rasWr_tables : (k.rasWr w fm fd v).tables = k.tables := rfl

end

/-- A register write leaves the entries. -/
@[simp] theorem Core.wr_ents (k : Core) (f : Fld) (w p i v : Nat) : (k.wr f w p i v).io.ents = k.io.ents := rfl

/-! ### Scrub passes (R590 to R594) -/

section
variable (k : Core) (w : Nat)

/-- The reason the pass that the registers describe is refused for, or 0. -/
def Core.scrubVerdict : Nat :=
  k.scrubReason w (k.ras' w R.M_RAS_SCRUB_CFG_CLASS R.RAS_SCRUB_CFG_CLASS)
    (k.ras' w R.M_RAS_SCRUB_CFG_INST R.RAS_SCRUB_CFG_INST) (k.ras' w R.M_RAS_SCRUB_START R.RAS_SCRUB_START)
    (k.ras' w R.M_RAS_SCRUB_END R.RAS_SCRUB_END)

/-- The pass that the registers describe, at its first unit. -/
def Core.scrubFirst : Scrub :=
  ⟨w, k.ras' w R.M_RAS_SCRUB_CFG_CLASS R.RAS_SCRUB_CFG_CLASS, k.ras' w R.M_RAS_SCRUB_CFG_INST R.RAS_SCRUB_CFG_INST,
    k.rd R.RAS_SCRUB_CFG_MODE w 0 0, k.ras' w R.M_RAS_SCRUB_START R.RAS_SCRUB_START,
    k.ras' w R.M_RAS_SCRUB_END R.RAS_SCRUB_END, false⟩

/-- A pass that may not start leaves STATE 3 and its reason, and nothing besides (R590). -/
theorem Core.scrubGo_refused (h : k.scrubVerdict w ≠ 0) :
    k.scrubGo w = (k.rasWr w R.M_RAS_SCRUB_STAT_STATE R.RAS_SCRUB_STAT_STATE 3).rasWr w R.M_RAS_SCRUB_STAT_REASON
      R.RAS_SCRUB_STAT_REASON (k.scrubVerdict w) := if_pos h

/-- A pass that may start joins the others and changes registers besides: no entry and no table. -/
theorem Core.scrubGo_started (h : k.scrubVerdict w = 0) :
    (k.scrubGo w).ras.scrubs = k.ras.scrubs ++ [k.scrubFirst w] ∧ (k.scrubGo w).io.ents = k.io.ents ∧
      (k.scrubGo w).tables = k.tables := by
  rw [Core.scrubVerdict] at h
  simp [Core.scrubGo, h, Core.scrubFirst]

section
variable {p : Scrub} (habort : p.abort = false) (hfence : w = 0 ∨ k.fenced (w - 1) = false)
include habort hfence

/-- A pass that is not aborted goes on at its next unit, on the Meridian die or on a die that is not fenced. -/
theorem Core.scrub_goesOn : ¬(p.abort = true ∨ w ≠ 0 ∧ k.fenced (w - 1) = true) := by
  rw [habort]
  rcases hfence with h | h <;> simp [h]

end

section
variable {p : Scrub} (hp : k.ras.scrubs.find? (·.w == w) = some p)
  (key : Bool) (own : Option (Fin 512)) (a b : Nat)
include hp

/-- An aborted pass ends at its next unit (R594). -/
theorem Core.scrubUnit_aborted (found : Ecc) (habort : p.abort = true) :
    k.scrubUnit w found key own a b =
      ((k.onRas fun x => { x with scrubs := x.scrubs.filter (·.w != w) }).wr R.RAS_SCRUB_STAT_STATE w 0 0 3).wr
        R.RAS_SCRUB_STAT_REASON w 0 0 0 := by
  simp only [Core.scrubUnit, hp, habort, true_or, if_true]

variable (habort : p.abort = false) (hfence : w = 0 ∨ k.fenced (w - 1) = false)
include habort hfence

/-- A good unit before the last is counted and the pass moves on (R591). -/
theorem Core.scrubUnit_moves (hlast : p.cursor < p.last) :
    k.scrubUnit w .good key own a b =
      ((k.bump R.RAS_SCRUB_READ w 0 0 1).wr R.RAS_SCRUB_STAT_CURSOR w 0 0 (p.cursor + 1)).onRas fun x => { x with
        scrubs := x.scrubs.map fun y => if y.w = w then { y with cursor := p.cursor + 1 } else y } := by
  simp only [Core.scrubUnit, hp, if_neg (k.scrub_goesOn w habort hfence), if_neg (Nat.not_le.mpr hlast)]

/-- The last unit, when good, is counted and ends the pass with its event (R591). -/
theorem Core.scrubUnit_ends (hlast : p.last ≤ p.cursor) :
    k.scrubUnit w .good key own a b =
      ((((k.bump R.RAS_SCRUB_READ w 0 0 1).wr R.RAS_SCRUB_STAT_CURSOR w 0 0 (p.cursor + 1)).onRas fun x => { x with
        scrubs := x.scrubs.filter (·.w != w) }).wr R.RAS_SCRUB_STAT_STATE w 0 0 2).raise w 0xC0 0 := by
  simp only [Core.scrubUnit, hp, if_neg (k.scrub_goesOn w habort hfence), if_pos hlast]

end

end

/-! ### Repair from a peer (R595 to R598) -/

section
variable (k : Core) (d : Nat)

section
variable {r : CatRepair} (hr : k.tables.repairs.find? (·.die == d) = some r)
include hr

/-- A lost slot whose peer cannot help is counted as not repaired. -/
theorem Core.catRepair_lost :
    k.catRepair d true =
      { k with tables := { k.tables with repairs := k.tables.repairs.erase r } }.unrepaired d := by
  cases hpeer : k.peerOf d <;> simp only [Core.catRepair, hr, hpeer, if_true]

/-- A lost slot is repaired with what its peer sends. -/
theorem Core.catRepair_sent {peer : Nat} (hpeer : k.peerOf d = some peer) :
    k.catRepair d false =
      ((k.peerSends d peer r.idx r.key).foldl (fun (k : Core) e => k.repairInsert d e)
        { k with tables := { k.tables with repairs := k.tables.repairs.erase r } }).repaired d r.pass := by
  simp only [Core.catRepair, hr, hpeer, Bool.false_eq_true, if_false]

end

/-- The entry is the word of die `x` that PREFIX_REPAIR is asked for. -/
def PrefixRepair.names (r : PrefixRepair) (x : Nat) (e : LpmEnt) : Bool :=
  e.die == x && e.v6 == r.v6 && e.vrf == r.vrf && e.addr == r.addr && e.len == r.len

/-- The core with a PREFIX_REPAIR taken and its word's poison cleared (R597). -/
def Core.prefixCopied (r : PrefixRepair) : Core :=
  { k with tables := { k.tables with
      prefixAsks := k.tables.prefixAsks.erase r
      lpm := k.tables.lpm.map fun e => if r.names d e then { e with ue := false } else e } }

/-- No word that the repair names is poisoned after it. -/
theorem Core.prefixCopied_clean (r : PrefixRepair) {x : LpmEnt} (hx : x ∈ (k.prefixCopied d r).tables.lpm)
    (hnames : r.names d x = true) : x.ue = false := by
  obtain ⟨e, -, rfl⟩ := List.mem_map.mp hx
  by_cases he : r.names d e = true
  · rw [if_pos he]
  · rw [if_neg he] at hnames
    exact absurd hnames he

section
variable {r : PrefixRepair} (hr : k.tables.prefixAsks.find? (·.die == d) = some r)
include hr

/-- A word whose peer cannot help is counted as not repaired. -/
theorem Core.prefixRepair_lost :
    k.prefixRepair d true =
      { k with tables := { k.tables with prefixAsks := k.tables.prefixAsks.erase r } }.unrepaired d := by
  cases hpeer : k.peerOf d <;> simp only [Core.prefixRepair, hr, hpeer, true_or, if_true]

/-- A word that is good on the peer is copied from there. -/
theorem Core.prefixRepair_copied {peer : Nat} (hpeer : k.peerOf d = some peer)
    (hgood : ∀ x ∈ k.tables.lpm, x.die = peer → x.ue = false) :
    k.prefixRepair d false = (k.prefixCopied d r).repaired d r.pass := by
  have hcopy : ¬(false = true ∨ (k.tables.lpm.any fun e => r.names peer e && e.ue) = true) := by
    simp only [Bool.false_eq_true, false_or, List.any_eq_true, Bool.and_eq_true, not_exists, not_and]
    intro x hx hnames hue
    have hdie : x.die = peer := by
      simp only [PrefixRepair.names, Bool.and_eq_true, beq_iff_eq] at hnames
      tauto
    exact absurd (hgood x hx hdie) (by simp [hue])
  simp only [Core.prefixRepair, hr, hpeer]
  exact if_neg hcopy

end

end

/-! ### Self-test (R600, R601) -/

section
variable (k : Core) (w : Nat)

/-- CLASS and INST of a self-test command are kept whether it runs or not. -/
def Core.bistAsked (v : Nat) : Core :=
  (k.rasWr w R.M_RAS_BIST_CMD_CLASS R.RAS_BIST_CMD_CLASS (v / 2 ^ 24 % 16)).rasWr w R.M_RAS_BIST_CMD_INST
    R.RAS_BIST_CMD_INST (v / 2 ^ 16 % 32)

/-- A self-test that may not start shows its code, and STATE 2 where none runs (R600). -/
theorem Core.bistGo_refused (v : Nat) (h : k.bistCode w ≠ 0) :
    k.bistGo w v =
      let k2 := (k.bistAsked w v).rasWr w R.M_RAS_BIST_STAT_CODE R.RAS_BIST_STAT_CODE (k.bistCode w)
      if k.ras.bists.any (·.w == w) then k2 else k2.rasWr w R.M_RAS_BIST_STAT_STATE R.RAS_BIST_STAT_STATE 2 := if_neg h

/-- A self-test that may start runs. -/
theorem Core.bistGo_started (v : Nat) (h : k.bistCode w = 0) :
    k.bistGo w v =
      (((k.bistAsked w v).rasWr w R.M_RAS_BIST_STAT_CODE R.RAS_BIST_STAT_CODE 0).rasWr w R.M_RAS_BIST_STAT_STATE
        R.RAS_BIST_STAT_STATE 1).onRas fun x => { x with
          bists := x.bists ++ [⟨w, v / 2 ^ 24 % 16, v / 2 ^ 16 % 32⟩] } := by
  simp only [Core.bistGo, h, if_true]
  rfl

/-- The stream contexts that are cleared (class 8) leave the passes and self-tests as they are. -/
theorem Core.zeroMemory_contexts_ras (d inst : Nat) : (k.zeroMemory d 8 inst).ras = k.ras :=
  foldl_keeps Core.ras (by intros; rfl) _ _

/-- So does every memory that is cleared. -/
theorem Core.zeroMemory_ras (d cls inst : Nat) : (k.zeroMemory d cls inst).ras = k.ras := by
  by_cases hcls : cls = 8
  · rw [hcls, Core.zeroMemory_contexts_ras]
  unfold Core.zeroMemory
  split
  -- the arms of class 8 and class 13 are folds
  case h_7 => exact absurd rfl hcls
  case h_11 => exact foldl_keeps Core.ras (by intros; rfl) _ _
  all_goals rfl

/-- The core of a self-test that ends: the test gone and its memory cleared (R601). -/
def Core.bistCleared (y : Bist) : Core :=
  (k.onRas fun x => { x with bists := x.bists.filter (·.w != w) }).zeroMemory (w - 1) y.cls y.inst

/-- The end of a self-test of a port die clears the memory, ends the test and raises the event. -/
theorem Core.bistDone_cleared {y : Bist} (hy : k.ras.bists.find? (·.w == w) = some y) (hw : w ≠ 0)
    (fails mcr row col : Nat) :
    ∃ k' : Core, k.bistDone w fails mcr row col = k'.raise w 0xC0 4 ∧
      k'.ras.bists = k.ras.bists.filter (·.w != w) ∧ k'.tables = (k.bistCleared w y).tables := by
  refine ⟨_, by simp only [Core.bistDone, hy, if_neg hw]; rfl, ?_, ?_⟩
  · simp only [Core.rasWr_ras, Core.zeroMemory_ras]
    rfl
  · simp only [Core.rasWr_tables]
    rfl

end

/-! ### The commands, case by case -/

/-- Settles O48: each command's meaning on its case. -/
theorem scrubRepairAndFence : Obligations.ScrubRepairAndFence := by
  intro s m w d v key own a b c e hlive k cls inst start last
  have hunit := completes_onCore (c := .scrubUnit w .good key own a b) _ hlive rfl
  have hslot (peerUe) := completes_onCore (c := .catalogueRepair d peerUe) _ hlive rfl
  have hword (peerUe) := completes_onCore (c := .prefixRepair d peerUe) _ hlive rfl
  have hfatal := completes_onCore (c := .dieFatalError d) _ hlive rfl
  refine ⟨fun hserves => ⟨?_, ?_, ?_⟩, fun p hp hfence => ⟨?_, ?_, ?_⟩, fun r hr => ⟨?_, ?_⟩, fun r hr => ⟨?_, ?_⟩,
    fun hserves => ⟨?_, ?_⟩, ?_, ?_, ?_⟩
  · have hgo := completes_write (c := .scrubGo m w) _ hserves rfl
    rintro r rfl hr
    rwa [k.scrubGo_refused w hr] at hgo
  · intro hr
    exact ⟨_, completes_write (c := .scrubGo m w) _ hserves rfl, k.scrubGo_started w hr⟩
  · exact completes_write (c := .scrubAbort m w) _ hserves rfl
  · intro habort
    rwa [k.scrubUnit_aborted w hp key own a b .good habort] at hunit
  · intro habort hlast
    rwa [k.scrubUnit_moves w hp key own a b habort hfence hlast] at hunit
  · intro habort hlast
    rwa [k.scrubUnit_ends w hp key own a b habort hfence hlast] at hunit
  · have hlost := hslot true
    rwa [k.catRepair_lost d hr] at hlost
  · intro peer hpeer
    have hsent := hslot false
    rwa [k.catRepair_sent d hr hpeer] at hsent
  · have hlost := hword true
    rwa [k.prefixRepair_lost d hr] at hlost
  · intro peer hpeer hgood
    have hcopied := hword false
    rw [k.prefixRepair_copied d hr hpeer hgood] at hcopied
    refine ⟨_, hcopied, fun x hx hdie hv6 hvrf haddr hlen => k.prefixCopied_clean d r hx ?_⟩
    simp [PrefixRepair.names, hdie, hv6, hvrf, haddr, hlen]
  · have hgo := completes_write (c := .bistGo m w v) _ hserves rfl
    rintro r rfl hr
    rwa [k.bistGo_refused w v.toNat hr] at hgo
  · have hgo := completes_write (c := .bistGo m w v) _ hserves rfl
    intro hr
    rwa [k.bistGo_started w v.toNat hr] at hgo
  · intro y hy hw
    have hdone := completes_onCore (c := .bistComplete w a b c e) _ hlive rfl
    obtain ⟨k', hk', hbists, htables⟩ := k.bistDone_cleared w hy hw a b c e
    rw [hk'] at hdone
    exact ⟨k', hdone, hbists, htables⟩
  · intro hfenced
    rwa [Core.fenceDie, if_pos (.inr hfenced)] at hfatal
  · exact fun _ _ => hfatal

end Sys2Proof.Machine
end

section
/-!
SUPPORT. The shared shapes of this family's commands: a served register read, and a whole write through an indirect window.
-/
namespace Sys2Proof.Machine

variable {c : Instr} {s : State} {m : Master} {w page off : Nat}

/-- A command that is a served register read changes the core by that read's meaning. -/
theorem completes_read (f : Core → Core) (hserves : Serves s m w page off false)
    (hexec : exec c s = done (s.read m w page off f)) : Completes c s (f s.core) := by
  obtain ⟨hlive, hverdict⟩ := hserves
  rw [Completes, hexec, State.read_ok f hlive hverdict, done]

section
variable (f : Core → Core) (hserves : Serves s m w page off true) (hexec : exec c s = done (s.window m w page off f))
include hserves hexec

/-- A write through an indirect window is discarded with ACC_ERR while the page is busy (R97). -/
theorem completes_window_busy (hbusy : s.core.indBusy w page = true) : Completes c s (s.core.accErr w page m off) := by
  have hwrite := completes_write _ hserves hexec
  rwa [if_pos hbusy] at hwrite

/-- On a page that is not busy a write through an indirect window changes the core by its meaning. -/
theorem completes_window_free (hfree : s.core.indBusy w page = false) : Completes c s (f s.core) := by
  have hwrite := completes_write _ hserves hexec
  rwa [if_neg (by simp [hfree])] at hwrite

end

end Sys2Proof.Machine
end

section
/-!
SUPPORT. The broadcast window (R72, R73, R81): what a verdict looks at, the write of TRC_CFG on one die, and the write and
the read through the window.
-/
namespace Sys2Proof.Machine

/-! ### What a verdict looks at -/

/-- A verdict looks at the pins and fuses of the package, the part, the released dies and the page's owner alone. -/
theorem Core.verdict_congr {k k' : Core} (m : Master) (w page off : Nat) (write : Bool) (hpack : k'.pack = k.pack)
    (hpart : k'.part = k.part) (hreleased : k'.rd R.PAG_BOOT_PROG_RELEASED 0 0 0 = k.rd R.PAG_BOOT_PROG_RELEASED 0 0 0)
    (hvalid : k'.rd R.PAGE_OWNER_VALID w page 0 = k.rd R.PAGE_OWNER_VALID w page 0)
    (howner : k'.rd R.PAGE_OWNER_OWNER w page 0 = k.rd R.PAGE_OWNER_OWNER w page 0) :
    k'.verdict m w page off write = k.verdict m w page off write := by
  have hserves : k'.serves m = k.serves m := by simp only [Core.serves, hpack]
  have hthere (d) : k'.populated d = k.populated d := by rw [Core.populated, hpart, Core.populated]
  have hout (d) : k'.released d = k.released d := by rw [Core.released, hreleased, Core.released]
  have hpage : k'.pageExists w page = k.pageExists w page := by simp only [Core.pageExists, hthere]
  have hallows (cls write) : k'.allows m cls write = k.allows m cls write := by
    simp only [Core.allows, Core.rights, hpack]
  simp only [Core.verdict, hserves, hthere, hout, hpage, hallows, hvalid, howner]

/-- A write of a field that is neither the released dies nor the page's owner leaves the verdict. -/
theorem Core.verdict_wr {f : Fld} {w' p i page w : Nat} (hreleased : R.PAG_BOOT_PROG_RELEASED.key 0 0 0 ≠ f.key w' p i)
    (hvalid : R.PAGE_OWNER_VALID.key w page 0 ≠ f.key w' p i) (howner : R.PAGE_OWNER_OWNER.key w page 0 ≠ f.key w' p i)
    (k : Core) (v : Nat) (m : Master) (off : Nat) (write : Bool) :
    (k.wr f w' p i v).verdict m w page off write = k.verdict m w page off write :=
  Core.verdict_congr m w page off write rfl rfl (Core.rd_wr_ne _ _ hreleased) (Core.rd_wr_ne _ _ hvalid)
    (Core.rd_wr_ne _ _ howner)

/-- An access that passes through the broadcast window passes in port die 0's window (R72). -/
theorem Core.verdict_of_broadcast {k : Core} {m : Master} {page off : Nat} {write : Bool}
    (h : k.broadcastVerdict m page off write = .ok) : k.verdict m 1 page off write = .ok := by
  cases m with
  | die d => simp [Core.broadcastVerdict] at h
  | pf f | mp | debug => exact h

/-- The window is none of the places a die controller reaches: on page 0xD0 the error shows on port die 0's page (R81). -/
theorem Core.broadcastVerdict_die (k : Core) (d : Fin 8) (off : Nat) (write : Bool) :
    k.broadcastVerdict (.die d) 0xD0 off write = .error 1 0xD0 := by
  have hpage : k.pageExists 1 0xD0 = true := rfl
  simp [Core.broadcastVerdict, hpage]

/-! ### TRC_CFG on one die -/

/-- TRC_CFG of a window with the fields of a word written. -/
def Core.traceCfg (k : Core) (w word : Nat) : Core :=
  (k.wr R.TRC_CFG_ENTRY w 0 0 (bits word 22 12)).wr R.TRC_CFG_SWITCH_ID w 0 0 (bits word 11 0)

/-- TRC_CFG of die 0 leaves the verdict on an access of die 1's page. -/
theorem Core.verdict_traceCfg (k : Core) (word : Nat) (m : Master) (off : Nat) (write : Bool) :
    (k.traceCfg (dw 0) word).verdict m (dw 1) 0xD0 off write = k.verdict m (dw 1) 0xD0 off write := by
  rw [Core.traceCfg, Core.verdict_wr (by decide) (by decide) (by decide), Core.verdict_wr (by decide) (by decide) (by decide)]

/-- The write of TRC_CFG is the write of its two fields, which take every value. -/
theorem Core.writeReg_traceCfg (k : Core) (m : Master) (d : Fin 8) (word : Nat) :
    k.writeReg m (dw d) 0xD0 0x100 word = k.traceCfg (dw d) word := by
  have hw : dw d ≠ 0 := Nat.succ_ne_zero _
  have hind := (fieldsOnly_of_mem d (page := 0xD0) (off := 0x100) (by decide)).ind
  have hentry : bits word 22 12 ≤ 2047 := Nat.le_of_lt_succ (Nat.mod_lt _ (by decide))
  have hid : bits word 11 0 ≤ 4095 := Nat.le_of_lt_succ (Nat.mod_lt _ (by decide))
  rw [Core.writeReg_plain (by decide) _ _ _ hw hind (by decide) (by decide) (by decide), fieldsAt_traceCfg, List.foldl_cons,
    List.foldl_cons, List.foldl_nil, Core.writeField_rw_inRange _ _ _ rfl rfl (by decide) ⟨Nat.zero_le _, hid⟩,
    Core.writeField_rw_inRange _ _ _ rfl rfl (by decide) ⟨Nat.zero_le _, hentry⟩]
  rfl

/-- TRC_CFG reads as its two fields. -/
theorem Core.readWord_traceCfg (k : Core) (fz : Fuses) (sec : Sec) (d : Fin 8) :
    k.readWord fz sec (dw d) 0xD0 0x100 = k.rd R.TRC_CFG_ENTRY (dw d) 0 0 * 2 ^ 12 + k.rd R.TRC_CFG_SWITCH_ID (dw d) 0 0 := by
  have hind : k.indReg (dw d) 0xD0 0x100 = 0 := by
    rw [Core.indReg, (fieldsOnly_of_mem d (page := 0xD0) (off := 0x100) (by decide)).ind]
  have hentry : k.shown fz sec R.TRC_CFG_ENTRY (dw d) 0 0 = k.rd R.TRC_CFG_ENTRY (dw d) 0 0 := rfl
  have hid : k.shown fz sec R.TRC_CFG_SWITCH_ID (dw d) 0 0 = k.rd R.TRC_CFG_SWITCH_ID (dw d) 0 0 := rfl
  rw [Core.readWord, hind, fieldsAt_traceCfg, List.foldl_cons, List.foldl_cons, List.foldl_nil]
  simp only [hentry, hid, Nat.zero_add]
  exact congrArg (_ + ·) (Nat.mul_one _)

/-- A register of a plain page that is its fields alone is no command. -/
theorem ownWrite_fieldsOnly {d : Fin 8} {page off : Nat} (hp : page ∈ plainPages) (hf : FieldsOnly (dw d) page off)
    (m : Master) (v : Word) (s : State) : ownWrite m d page off v s = s := by
  obtain ⟨-, hheader, hcmd, -, hlo, hhi⟩ := hf
  rw [ownWrite_plain hp _ _ _ _ hcmd, everyOwn_plain hp _ _ _ _ (by omega) (by omega) (by omega) (by rwa [winOf_die])
    (by rwa [winOf_die])]

/-- One die's part of a broadcast write of TRC_CFG, on a die that serves it. -/
theorem broadcastDie_traceCfg {s : State} {m : Master} {d : Nat} (hd : d < 8) (hserves : Serves s m (dw d) 0xD0 0x100 true)
    (v : Word) :
    ownWrite m (Fin.ofNat 8 d) 0xD0 0x100 v (s.write m (dw d) 0xD0 0x100 fun k => k.writeReg m (dw d) 0xD0 0x100 v.toNat) =
      { s with core := s.core.traceCfg (dw d) v.toNat } := by
  obtain ⟨hlive, hverdict⟩ := hserves
  rw [ownWrite_fieldsOnly (by decide) (fieldsOnly_of_mem _ (by decide)), State.write_ok _ hlive hverdict,
    Core.writeReg_traceCfg _ _ ⟨d, hd⟩]

/-! ### Through the window -/

/-- A denied broadcast write applies nowhere and sets ACC_ERR (R72). -/
theorem State.broadcast_denied {s : State} {m : Master} {page o w' page' : Nat} (hlive : s.core.live = true)
    (hverdict : s.core.broadcastVerdict m page o true = .error w' page') (v : Word) :
    s.broadcast m page o v = { s with core := s.core.accErr w' page' m o } := by
  simp [State.broadcast, hlive, hverdict]

/-- A broadcast write that passes and is no command for the whole part goes to every populated die in turn (R72). -/
theorem State.broadcast_served {s : State} {m : Master} {page o : Nat} {v : Word} (hlive : s.core.live = true)
    (hverdict : s.core.broadcastVerdict m page o true = .ok) (honce : broadcastOnce m page o v.toNat s = none) :
    s.broadcast m page o v = s.core.dieList.foldl (fun s d =>
      ownWrite m (Fin.ofNat 8 d) page o v (s.write m (dw d) page o fun k => k.writeReg m (dw d) page o v.toNat)) s := by
  simp [State.broadcast, hlive, hverdict, honce]

/-- On a part of two dies that both serve it, a broadcast write of TRC_CFG writes it on both. -/
theorem State.broadcast_traceCfg {s : State} {m : Master} (hlive : s.core.live = true) (hdies : s.core.part.dies = 2)
    (hall : s.core.broadcastVerdict m 0xD0 0x100 true = .ok) (hsecond : s.core.verdict m 2 0xD0 0x100 true = .ok) (v : Word) :
    s.broadcast m 0xD0 0x100 v =
      { s with core := (s.core.traceCfg (dw 0) v.toNat).traceCfg (dw 1) v.toNat } := by
  have hlist : s.core.dieList = [0, 1] := by rw [Core.dieList, hdies]; rfl
  have hfirst := broadcastDie_traceCfg (d := 0) (by decide) ⟨hlive, Core.verdict_of_broadcast hall⟩ v
  have hnext := broadcastDie_traceCfg (s := { s with core := s.core.traceCfg (dw 0) v.toNat }) (d := 1)
    (by decide) ⟨hlive, (Core.verdict_traceCfg ..).trans hsecond⟩ v
  rw [State.broadcast_served hlive hall (by simp [broadcastOnce]), hlist, List.foldl_cons, List.foldl_cons, List.foldl_nil,
    hfirst, hnext]

section
variable {s : State} {off : BitVec 24} {w page o : Nat} (hsplit : splitAddr off.toNat = (w, page, o)) (halign : o % 4 = 0)
  (m : Master)
include hsplit halign

/-- BROADCAST_WRITE of one word is the write of its register through the window. -/
theorem exec_broadcastWrite_one (v : Word) : exec (.broadcastWrite m off v []) s = .next (s.broadcast m page o v) := by
  simp [exec, execBroadcastWrite, hsplit, halign, done]

/-- A permitted read through the window shows port die 0's register and changes nothing else (R73). -/
theorem completes_broadcastRead_served (hlive : s.core.live = true) (hverdict : s.core.broadcastVerdict m page o false = .ok) :
    Completes (.broadcastRead m off) s
      (s.core.readOut m (15 * 2 ^ 24 + off.toNat) (s.core.readWord s.fuse s.sec 1 page o)) := by
  simp [Completes, exec, execBroadcastRead, hsplit, halign, done, State.onCore_live _ hlive, hverdict]

/-- A denied read through the window shows zeros and sets ACC_ERR. -/
theorem completes_broadcastRead_denied (hlive : s.core.live = true) {w' page' : Nat}
    (hverdict : s.core.broadcastVerdict m page o false = .error w' page') :
    Completes (.broadcastRead m off) s ((s.core.accErr w' page' m o).readOut m (15 * 2 ^ 24 + off.toNat) 0) := by
  simp [Completes, exec, execBroadcastRead, hsplit, halign, done, State.onCore_live _ hlive, hverdict]

end

/-- Settles O2: the write goes die by die, and TRC_CFG of the first die leaves the verdict on the second's; the read is port
die 0's; a die controller's verdict is an error on port die 0's page. -/
theorem broadcastWindow : Obligations.BroadcastWindow := by
  intro s m off v hlive hsplit
  have hwrite := exec_broadcastWrite_one (s := s) hsplit (by decide) m v
  refine ⟨fun hdies hall hsecond => ?_, fun hverdict => ?_, fun d hm _ => ?_⟩
  · rwa [State.broadcast_traceCfg hlive hdies hall hsecond] at hwrite
  · have hread := completes_broadcastRead_served hsplit (by decide) m hlive hverdict
    exact (Core.readWord_traceCfg s.core s.fuse s.sec 0 ▸ hread :)
  · have hdenied (write) : s.core.broadcastVerdict m 0xD0 0x100 write = .error 1 0xD0 :=
      hm ▸ Core.broadcastVerdict_die ..
    rw [State.broadcast_denied hlive (hdenied true)] at hwrite
    exact ⟨hwrite, completes_broadcastRead_denied hsplit (by decide) m hlive (hdenied false)⟩

end Sys2Proof.Machine
end

section
/-!
SUPPORT. The read of SEQ_PARK_STAT (R79) shows PEAK within the 11 bits of its field, and the statement ReadEffectsAndHalves
within 16.
-/
namespace Sys2Proof.Machine

/-- A part that runs, all its dies released, whose register store holds 2,048 in PEAK of die 0's first pipeline: one more than
the field's 11 bits carry. The store is in canonical form, though no register write leaves a field wider than it is. -/
def widePeak : State :=
  { State.reset with core :=
    let k := State.reset.core.wr R.PAG_BOOT_PROG_RELEASED 0 0 0 0xFF
    { k with
      pack := { k.pack with power := true }
      io := { k.io with regs := k.io.regs.set (R.SEQ_PARK_STAT_PEAK.key (dw 0) 0 0) 2048 } } }

/-- Refutes O3: in the clause on SEQ_PARK_STAT, where PEAK of die 0's first pipeline is stored as 2,048, the MP's read shows
2,048 mod 2^11 = 0 and the statement says 2,048 mod 2^16. -/
theorem not_readEffectsAndHalves : ¬ Obligations.ReadEffectsAndHalves := by
  intro h
  obtain ⟨hreads, -⟩ := h
  obtain ⟨hpark, -⟩ := hreads widePeak .mp 0 0 0x100811C
  have hcompletes := hpark (by decide +kernel) (by decide +kernel) rfl
  have hshown := congrArg (fun o => (after o widePeak).core.out) hcompletes
  exact absurd hshown (by decide +kernel)

end Sys2Proof.Machine
end

section
/-!
SUPPORT. Page control, vectors and locks (R82 to R86, R105 to R116): what the shared operations of these commands do on the
case a statement names.
-/
namespace Sys2Proof.Machine

/-! ### Page control -/

/-- Settles O4: each command is a register write; PAGE_OWNER takes it from PF0 and the MP alone. -/
theorem pageControlWrites : Obligations.PageControlWrites := by
  intro s m w page v
  refine ⟨fun hserves => (completes_write (c := .rwdHoldRelease m w page) _ hserves rfl :), ?_, ?_⟩
  · rintro ⟨hlive, hverdict⟩ hmaster h6 h7
    have hwrite := completes_onCore (c := .pageOwnerWrite m w page v) _ hlive rfl
    simpa only [hmaster, Core.writeAt, hverdict, h6, h7, or_self, if_true, if_false] using hwrite
  · rintro ⟨hlive, hverdict⟩ hpf hmp
    have hwrite := completes_onCore (c := .pageOwnerWrite m w page v) _ hlive rfl
    simpa only [hpf, hmp, hverdict, or_self, if_false] using hwrite

/-! ### Vectors -/

/-- From an empty PBA no message is released. -/
theorem Core.pbaRelease_empty {k : Core} (hpba : k.io.pba = []) (v : Nat) (masked : BitVec 4) :
    k.pbaRelease v masked = k := by
  have hsame : { k with io := { k.io with pba := [] } } = k := by rw [← hpba]
  simp only [Core.pbaRelease, hpba, List.filter_nil, List.foldl_nil, hsame]

/-- With the PBA empty, a vector's message is all it holds while the function masks the entry, and is sent otherwise (R107). -/
theorem Core.msixSend_empty {k : Core} (hpba : k.io.pba = []) (f v : Nat) (masked : BitVec 4) :
    k.msixSend f v masked =
      if masked.getLsbD f then k.onIo fun io => { io with pba := [(f, v)] } else k.emit (.msix f v) := by
  have hbit : bit masked.toNat f = 1 ↔ masked.getLsbD f = true := by
    rw [BitVec.getLsbD, Nat.testBit_eq_decide_div_mod_eq, decide_eq_true_iff, bit]
  simp [Core.msixSend, hbit, hpba, Core.onIo]

/-- Arming with no clear under way sets the named bits alone (R108). -/
theorem completes_evtVecArm {s : State} {m : Master} {hi : Bool} (hserves : Serves s m 0 0x002 (if hi then 0x204 else 0x200) true)
    (hclears : s.core.io.w1c = []) (mask : Word) :
    Completes (.evtVecArm m hi mask) s
      (s.core.wr (if hi then R.EVT_VEC_ARM_HI else R.EVT_VEC_ARM_LO) 0 0 0
        (s.core.rd (if hi then R.EVT_VEC_ARM_HI else R.EVT_VEC_ARM_LO) 0 0 0 ||| mask.toNat)) := by
  have harm := completes_write (c := .evtVecArm m hi mask) _ hserves rfl
  have hsame : (s.core.onIo fun io => { io with w1c := io.w1c.filter (·.1 != m.id) }) = s.core := by
    rw [Core.onIo, hclears, List.filter_nil, ← hclears]
  simpa only [hclears, List.filter_nil, List.foldl_nil, hsame] using harm

/-- A vector that is due sends its message, is disarmed and keeps the time (R107). -/
theorem completes_msixMessageSend {s : State} (hlive : s.core.live = true) {v : Fin 64}
    (hen : s.core.rd R.EVT_VEC_CFG_EN 0 0 v = 1) (harmed : bit s.core.armed v = 1) (hactive : s.core.vecActive v = true)
    (hholdoff : s.core.io.vecLast.get v = 0 ∨
      s.core.io.vecLast.get v - 1 + s.core.rd R.EVT_VEC_CFG_HOLDOFF 0 0 v * 1000 ≤ s.core.time.now)
    (hpba : s.core.io.pba = []) (masked : BitVec 4) :
    Completes (.msixMessageSend v masked) s
      ((((s.core.msixSend (s.core.rd R.EVT_VEC_CFG_PF 0 0 v) v masked).onIo fun io =>
        io.wr64 R.EVT_VEC_ARM_LO R.EVT_VEC_ARM_HI 0 0 0 (s.core.armed - 2 ^ v.val)).onIo fun io =>
          { io with vecLast := io.vecLast.set v (s.core.time.now + 1) })) := by
  have hsend := completes_onCore (c := .msixMessageSend v masked) _ hlive rfl
  have hdue := And.intro hen (And.intro harmed (And.intro hactive hholdoff))
  simpa only [Core.pbaRelease_empty hpba, if_pos hdue] using hsend

/-- Settles O6: each command's meaning on its case. -/
theorem eventsAndVectors : Obligations.EventsAndVectors := by
  refine ⟨fun s m w page i d mask => ⟨fun hlive => ?_, fun hserves => ?_, fun hserves => ?_, fun hlive hpop hblock => ?_⟩,
    fun s m hi mask v masked => ⟨fun hserves hclears => completes_evtVecArm hserves hclears mask,
      fun hlive hen harmed hactive hholdoff hpba => ?_⟩⟩
  · exact (completes_onCore (c := .ceBucketLeak w page i) _ hlive rfl :)
  · exact (completes_write (c := .evtForce m w page mask) _ hserves rfl :)
  · exact (completes_write (c := .evtPendingClear m w page mask) _ hserves rfl :)
  · have hupdate := completes_onCore (c := .evtSrcPendingUpdate d page) _ hlive rfl
    rwa [if_pos ⟨hpop, hblock⟩] at hupdate
  · have hsend := completes_msixMessageSend hlive hen harmed hactive hholdoff hpba masked
    rwa [Core.msixSend_empty hpba] at hsend

/-! ### Locks -/

section
variable {k : Core} {i : Nat}

/-- A read of a free lock makes the reader its owner and shows 0 (R112). -/
theorem Core.lockRead_free (hfree : k.lockHeld i = false) (m : Master) :
    k.lockRead m i = (((k.wr R.LCK_LOCK_HELD 0 0 i 1).wr R.LCK_LOCK_OWNER 0 0 i m.id).onIo fun io =>
      { io with lockSince := io.lockSince.set i (k.time.now + 1) }).emit
        (.readData m.id (regAddr 0 0x004 (0x100 + 4 * i)) 0) := by
  simp [Core.lockRead, hfree]

/-- A read of a held lock shows HELD and the owner (R112). -/
theorem Core.lockRead_held (hheld : k.lockHeld i = true) (m : Master) :
    k.lockRead m i = k.emit (.readData m.id (regAddr 0 0x004 (0x100 + 4 * i)) (2 ^ 31 + k.rd R.LCK_LOCK_OWNER 0 0 i)) := by
  simp [Core.lockRead, hheld]

/-- A holding above the limit that has not raised its event raises it (R115). -/
theorem Core.lockOverdue_raises (hheld : k.lockHeld i = true) (hraised : i ∉ k.io.lockRaised)
    (hlate : k.io.lockSince.get i - 1 + k.rd R.LCK_CFG_HOLD_LIMIT 0 0 0 * 1000 < k.time.now) :
    k.lockOverdue i = (k.onIo fun io => { io with lockRaised := io.lockRaised ++ [i] }).raise 0 0x004 0 := by
  simp [Core.lockOverdue, hheld, hraised, hlate, Core.onIo]

/-- A free lock is never overdue. -/
theorem Core.lockOverdue_free (hfree : k.lockHeld i = false) : k.lockOverdue i = k := by
  simp [Core.lockOverdue, hfree]

/-- Looking through free locks for overdue holdings changes nothing. -/
theorem Core.foldl_lockOverdue_free {is : List Nat} (hfree : ∀ i ∈ is, k.lockHeld i = false) :
    is.foldl Core.lockOverdue k = k := by
  induction is with
  | nil => rfl
  | cons i is ih =>
    rw [List.foldl_cons, Core.lockOverdue_free (hfree i List.mem_cons_self)]
    exact ih fun j hj => hfree j (List.mem_cons_of_mem _ hj)

/-- Breaking one held lock frees it and raises the lock-broken event (R116). -/
theorem Core.breakLocks_one (hheld : k.lockHeld i = true) :
    k.breakLocks [i] false = (k.freeLock i).raise 0 0x004 1 := by
  simp [Core.breakLocks, hheld]

/-- The hold limit is no lock. -/
theorem Core.lockHeld_holdLimit (k : Core) (hi : i < 64) (v : Nat) :
    (k.wr R.LCK_CFG_HOLD_LIMIT 0 0 0 v).lockHeld i = k.lockHeld i := by
  have hkey : R.LCK_LOCK_HELD.key 0 0 i ≠ R.LCK_CFG_HOLD_LIMIT.key 0 0 0 := by
    simp only [Fld.key, R.LCK_LOCK_HELD, R.LCK_CFG_HOLD_LIMIT, regAddr]
    omega
  rw [Core.lockHeld, Core.rd_wr_ne _ _ hkey, Core.lockHeld]

end

/-- A mask of one bit names that bit alone. -/
theorem filter_bit_two_pow : ∀ i : Fin 32, ((List.range 32).filter fun j => bit (2 ^ i.val) j == 1) = [i.val] := by
  decide

/-- A write of one bit to LCK_BREAK by PF0 or the MP breaks that lock, if it is held (R116). -/
theorem completes_lockBreakWrite {s : State} {m : Master} {i : Fin 32} {hi : Bool} {mask : Word}
    (hserves : Serves s m 0 0x004 (if hi then 0x20C else 0x208) true) (hmaster : m = .pf 0 ∨ m = .mp)
    (hmask : mask.toNat = 2 ^ i.val) (hheld : s.core.lockHeld (if hi then i.val + 32 else i.val) = true) :
    Completes (.lockBreakWrite m hi mask) s ((s.core.freeLock (if hi then i.val + 32 else i.val)).raise 0 0x004 1) := by
  have hbreak := completes_write (c := .lockBreakWrite m hi mask) _ hserves rfl
  simpa only [if_pos hmaster, hmask, filter_bit_two_pow, List.map_cons, List.map_nil, Core.breakLocks_one hheld] using hbreak

/-- Settles O7: each command's meaning on its case. -/
theorem lockRegisters : Obligations.LockRegisters := by
  refine ⟨fun s m i v => ⟨fun hserves hfree => ?_, fun hserves hheld => ?_, fun hserves hheld howner hid => ?_,
      fun hserves hother => ?_, fun hlive hheld hraised hlate => ?_⟩,
    fun s m i hi mask v => ⟨completes_lockBreakWrite, fun hserves hpf hmp => ?_, fun hserves hzero => ?_,
      fun hserves hlimit hfree => ?_⟩⟩
  · exact (Core.lockRead_free hfree m ▸ completes_read (c := .lockAcquireRead m i) _ hserves rfl :)
  · exact (Core.lockRead_held hheld m ▸ completes_read (c := .lockAcquireRead m i) _ hserves rfl :)
  · have hwrite := completes_write (c := .lockRelease m i v) _ hserves rfl
    rwa [if_pos ⟨hheld, howner, hid⟩] at hwrite
  · have hwrite := completes_write (c := .lockRelease m i v) _ hserves rfl
    rwa [if_neg (by rintro ⟨hheld, howner, hid⟩; simp [hheld, howner, hid] at hother)] at hwrite
  · exact (Core.lockOverdue_raises hheld hraised hlate ▸ completes_onCore (c := .lockHoldExpire i) _ hlive rfl :)
  · have hbreak := completes_write (c := .lockBreakWrite m hi mask) _ hserves rfl
    rwa [if_neg (by simp [hpf, hmp])] at hbreak
  · have hwrite := completes_write (c := .lockHoldLimitWrite m v) _ hserves rfl
    rwa [if_pos hzero] at hwrite
  · have hwrite := completes_write (c := .lockHoldLimitWrite m v) _ hserves rfl
    have hnone (j) (hj : j ∈ List.range 64) :
        (s.core.wr R.LCK_CFG_HOLD_LIMIT 0 0 0 (v.toNat % 65536)).lockHeld j = false := by
      rw [Core.lockHeld_holdLimit _ (List.mem_range.mp hj), hfree j (List.mem_range.mp hj)]
    rwa [if_neg hlimit, Core.foldl_lockOverdue_free hnone] at hwrite

end Sys2Proof.Machine
end

section
/-!
SUPPORT. The indirect windows (R95 to R97, R187, R620): starting an operation, the multicast groups as a window shows and
takes them, and a read of region contents.
-/
namespace Sys2Proof.Machine

/-! ### Starting an operation -/

/-- Starting on a window that stands there is the write of its IND_CMD. -/
theorem indStart_stands {tab w p : Nat} {x : IndWin} (hx : winOf tab = some x) (hstands : indStands x w p = true)
    (m : Master) (write autoinc : Bool) (s : State) :
    indStart m w tab p write autoinc s =
      s.write m w (x.page + p) (x.base + 4) fun k => k.indCmd m w x p write autoinc := by
  simp [indStart, hx, hstands]

section
variable {s : State} {m : Master} {w : Fin 9} {tab : Fin 42} {p : Fin 68} {x : IndWin} (hx : winOf tab = some x)
  (hstands : indStands x w p = true) (hserves : Serves s m w (x.page + p) (x.base + 4) true) (autoinc : Bool)
include hx hstands hserves

/-- IND_READ is IND_CMD with OP 1. -/
theorem completes_indRead : Completes (.indRead m w tab p autoinc) s (s.core.indCmd m w x p false autoinc) :=
  completes_write (fun k => k.indCmd m w x p false autoinc) hserves (congrArg done (indStart_stands hx hstands ..))

/-- IND_WRITE is IND_CMD with OP 2. -/
theorem completes_indWrite : Completes (.indWrite m w tab p autoinc) s (s.core.indCmd m w x p true autoinc) :=
  completes_write (fun k => k.indCmd m w x p true autoinc) hserves (congrArg done (indStart_stands hx hstands ..))

end

section
variable {k : Core} {w p : Nat} {x : IndWin} {m : Master}

/-- On a busy page IND_CMD is discarded with ACC_ERR (R97). -/
theorem Core.indCmd_busy (hbusy : k.indBusy w (x.page + p) = true) (write autoinc : Bool) :
    k.indCmd m w x p write autoinc = k.accErr w (x.page + p) m (x.base + 4) := by
  simp [Core.indCmd, hbusy]

/-- A stage-store write by another master than the MP is discarded with ACC_ERR (R187). -/
theorem Core.indCmd_store_refused (hkind : x.kind = .store) (hm : m ≠ .mp) (autoinc : Bool) :
    k.indCmd m w x p true autoinc = k.accErr w (x.page + p) m (x.base + 4) := by
  simp [Core.indCmd, hkind, hm]

/-- Any other IND_CMD keeps AUTOINC and starts its operation (R95). -/
theorem Core.indCmd_starts (hfree : k.indBusy w (x.page + p) = false) {write : Bool}
    (hstore : ¬(x.kind = .store ∧ write = true ∧ m ≠ .mp)) (autoinc : Bool) :
    k.indCmd m w x p write autoinc = (k.wr (indAuto x) w p 0 (b2n autoinc)).onIo fun io =>
      { io with ind := io.ind ++ [⟨x.tab, w, x.page + p, x.base, write, false, m.id, k.time.now⟩] } := by
  rw [Core.indCmd, if_neg (by simp [hfree]), if_neg hstore]

end

/-- The operation that runs on a window ends with its effect; region contents have a rule of their own. -/
theorem Core.indDone_found {k : Core} {w tab p : Nat} {x : IndWin} {op : IndOp} (hx : winOf tab = some x)
    (hop : k.io.ind.find? (fun o => o.tab == tab && o.win == w && o.page == x.page + p) = some op)
    (hkind : x.kind ≠ .cxl) (fz : Fuses) (sec : Sec) (ecc : Ecc) (act : Bool) :
    k.indDone fz sec w tab p ecc act = (k.indEffect fz sec x op w p ecc act).indEnd x op w p := by
  simp [Core.indDone, hx, hop, hkind]

/-! ### The multicast groups of a pipeline -/

/-- The window of the multicast groups. -/
def mcgWin : IndWin := ⟨Tab.HVX_MCG, true, 0x18, 8, 0x200, 16384, .rw⟩

/-- It is the window of its table. -/
theorem winOf_mcg : winOf Tab.HVX_MCG = some mcgWin := rfl

/-- The rows of a multicast group. -/
def mcgRows : List TabRow :=
  [⟨T.HVX_MCG_PIPES, .rw, 0, 18446744073709551615⟩, ⟨T.HVX_MCG_MEMBERS, .rw, 0, 4294967295⟩]

/-- A multicast group is PIPES and MEMBERS. -/
theorem tabRows_mcg : tabRows.filter (·.fld.tab == Tab.HVX_MCG) = mcgRows := by decide +kernel

/-- Both are written plainly. -/
theorem writableRows_mcg :
    (tabRows.filter fun r => r.fld.tab == mcgWin.tab && r.acc == .rw && !ownField r.fld) = mcgRows := by decide +kernel

section
variable (k : Core) (w p i : Nat)

/-- A group reads as its two fields. -/
theorem Core.entryRows_mcg :
    k.entryRows Tab.HVX_MCG w p i =
      k.td T.HVX_MCG_PIPES w p i % 2 ^ 64 + k.td T.HVX_MCG_MEMBERS w p i % 2 ^ 32 * 2 ^ 64 := by
  rw [Core.entryRows, tabRows_mcg, mcgRows, List.foldl_cons, List.foldl_cons, List.foldl_nil, Nat.zero_add]
  exact congrArg (· + _) (Nat.mul_one _)

/-- The fields of a group take every value. -/
theorem Core.entryFields_mcg (m : Master) (v : Nat) :
    k.entryFields m mcgWin w p i v =
      (k.tw T.HVX_MCG_PIPES w p i (v % 2 ^ 64)).tw T.HVX_MCG_MEMBERS w p i (v / 2 ^ 64 % 2 ^ 32) := by
  have hpipes : v % 2 ^ 64 ≤ 18446744073709551615 := Nat.le_of_lt_succ (Nat.mod_lt _ (by decide))
  have hmembers : v / 2 ^ 64 % 2 ^ 32 ≤ 4294967295 := Nat.le_of_lt_succ (Nat.mod_lt _ (by decide))
  rw [Core.entryFields, writableRows_mcg, mcgRows, List.foldl_cons, List.foldl_cons, List.foldl_nil]
  simp only [T.HVX_MCG_PIPES, T.HVX_MCG_MEMBERS, Nat.zero_le, true_and, Nat.pow_zero, Nat.div_one, hpipes, hmembers, if_true]

/-- The write of a group is the write of its fields: no other table's rule applies. -/
theorem Core.entryWrite_mcg (m : Master) (v : Nat) :
    k.entryWrite m mcgWin w p i v =
      (k.tw T.HVX_MCG_PIPES w p i (v % 2 ^ 64)).tw T.HVX_MCG_MEMBERS w p i (v / 2 ^ 64 % 2 ^ 32) :=
  Eq.trans rfl (k.entryFields_mcg w p i m v)

/-- The read of a group that exists shows its rows: no other table's rule applies. -/
theorem Core.entryRead_mcg (fz : Fuses) (sec : Sec) (hi : i < 16384) :
    k.entryRead fz sec mcgWin w p i = (k.entryRows Tab.HVX_MCG w p i, false) := by
  have htab : mcgWin.tab = 2 := rfl
  have hcount : i < mcgWin.count := hi
  simp [Core.entryRead, htab, hcount, laneOf, noMonitor, Tab.ALM, Tab.SEQ_IND, Tab.CAT_IND, Tab.FLT_IND, Tab.SEC_KEYHASH,
    Tab.SEC_LOG, Tab.SEC_IDKEY, Tab.M_PMU_MON, Tab.BUF_PORT, Tab.BUF_PFCRX, Tab.BUF_PG, Tab.BUF_Q, Tab.CNT_PSTAT,
    Tab.PRT_PORT, Tab.HVX_MCG]

end

section
variable {k : Core} {w p i : Nat} {op : IndOp} (htest : k.underTest mcgWin w p = false)
  (haddr : k.rd (indAddr mcgWin) w p 0 = i) (hi : i < 16384)
include htest haddr hi

/-- A write operation clears FAIL and puts the staged words into the group at IND_ADDR. -/
theorem Core.indEffect_mcg_write (hop : op.write = true) (fz : Fuses) (sec : Sec) (ecc : Ecc) (act : Bool) :
    k.indEffect fz sec mcgWin op w p ecc act =
      ((k.wr (indFailed mcgWin) w p 0 0).tw T.HVX_MCG_PIPES w p i (k.indWord mcgWin w p % 2 ^ 64)).tw
        T.HVX_MCG_MEMBERS w p i (k.indWord mcgWin w p / 2 ^ 64 % 2 ^ 32) := by
  have hcount : ¬mcgWin.count ≤ i := Nat.not_le.mpr hi
  have hkind : ¬(mcgWin.kind = .ro ∨ mcgWin.kind = .cxl) := by decide
  have hlane : laneOf mcgWin.tab p i = none := rfl
  have htab : (mcgWin.tab == Tab.STB_COMP) = false := rfl
  simp only [Core.indEffect, haddr, htest, hop, hcount, hkind, hlane, htab, Core.entryWrite_mcg, if_true, if_false,
    Bool.false_eq_true, decide_false, Bool.false_and, Bool.or_self]

/-- A read operation that finds no error shows the group at IND_ADDR in the data words and clears FAIL. -/
theorem Core.indEffect_mcg_read (hop : op.write = false) (fz : Fuses) (sec : Sec) (act : Bool) :
    k.indEffect fz sec mcgWin op w p .good act =
      ((k.wr (indFailed mcgWin) w p 0 0).putIndData mcgWin w p (k.entryRows Tab.HVX_MCG w p i)).wr (indFailed mcgWin) w p 0
        0 := by
  have htab : ¬(mcgWin.tab = Tab.FLT_IND ∧ i < mcgWin.count) := by simp [mcgWin, Tab.HVX_MCG, Tab.FLT_IND]
  have hue : (Ecc.good == .ue) = false := rfl
  have hce : ¬Ecc.good = .ce := by decide
  simp only [Core.indEffect, haddr, htest, hop, Core.entryRead_mcg _ _ _ _ _ _ hi, htab, hue, hce, b2n, if_false,
    Bool.false_eq_true, Bool.false_and, Bool.and_false, Bool.or_self, false_and]

end

/-- IND_OP_COMPLETE on the groups of pipeline `p` of die `d` ends the operation that runs there with its effect. -/
theorem completes_indOpComplete_mcg {s : State} (hlive : s.core.live = true) {d p : Fin 8} {op : IndOp}
    (hop : s.core.io.ind.find? (fun o => o.tab == Tab.HVX_MCG && o.win == dw d && o.page == mcgWin.page + p.val) = some op)
    (act : Bool) :
    Completes (.indOpComplete (Fin.ofNat 9 (dw d)) 2 (Fin.ofNat 68 p.val) .good act) s
      ((s.core.indEffect s.fuse s.sec mcgWin op (dw d) p .good act).indEnd mcgWin op (dw d) p) := by
  have hw : (Fin.ofNat 9 (dw d)).val = dw d := winOf_die d
  have hp : (Fin.ofNat 68 p.val).val = p.val := Nat.mod_eq_of_lt (by omega)
  have hdone := completes_onCore (c := .indOpComplete (Fin.ofNat 9 (dw d)) 2 (Fin.ofNat 68 p.val) .good act) _ hlive rfl
  rw [hw, hp] at hdone
  exact (Core.indDone_found winOf_mcg hop (by decide) s.fuse s.sec .good act ▸ hdone :)

/-! ### Region contents -/

/-- The window of the region contents. -/
def cxlRdWin : IndWin := ⟨Tab.CXL_RD, false, 0x90, 1, 0x200, 0, .cxl⟩

/-- It is the window of its table. -/
theorem winOf_cxlRd : winOf Tab.CXL_RD = some cxlRdWin := rfl

section
variable {k : Core} {op : IndOp}

/-- A read inside a region that takes requests, of region 0 for the MP, reaches its line. -/
theorem Core.cxlReads_line {n r : Nat} (hr : k.rd R.CXL_RD_SEL_REGION 0 0 0 = r) (hon : k.regionOn r = true)
    (hup : k.cxlUp (k.regionPort r) = true) (hline : n < k.regionLines r) (hmaster : r = 0 → op.master = 4)
    (hanswered : op.refused = false) : k.cxlReads op n = true := by
  simpa [Core.cxlReads, hr, hon, hup, hline, hanswered] using not_or_of_imp hmaster

/-- Within the budget the read in progress ends with its effect. -/
theorem Core.indDone_cxlRd
    (hop : k.io.ind.find? (fun o => o.tab == Tab.CXL_RD && o.win == 0 && o.page == cxlRdWin.page) = some op)
    (hbudget : 64 ≤ k.tokens (k.rd R.CXL_RD_SEL_REGION 0 0 0)) (fz : Fuses) (sec : Sec) (poisoned : Bool) :
    k.indDone fz sec 0 Tab.CXL_RD 0 (if poisoned then .ue else .good) false =
      (k.cxlEffect cxlRdWin op poisoned).indEnd cxlRdWin op 0 0 := by
  have hkind : cxlRdWin.kind = .cxl := rfl
  have hbad : decide ((if poisoned then Ecc.ue else Ecc.good) = .ue) = poisoned := by cases poisoned <;> rfl
  simp only [Core.indDone, winOf_cxlRd, Nat.add_zero, hop, hkind, if_true, hbad, Nat.not_lt.mpr hbudget, and_false, if_false]

/-- A read that reaches its line shows it in the data words, with FAIL where it is poisoned. -/
theorem Core.cxlEffect_reads {x : IndWin} (hwrite : op.write = false)
    (hreads : k.cxlReads op (k.rd (indAddr x) 0 0 0) = true) (poisoned : Bool) :
    k.cxlEffect x op poisoned =
      (let n := k.rd (indAddr x) 0 0 0
       let r := k.rd R.CXL_RD_SEL_REGION 0 0 0
       let k1 := k.answered r op.since
       let y := (if poisoned then k1.poisonLine r n else k1).readLine r n
       (y.1.putIndData x 0 0 y.2.1).wr (indFailed x) 0 0 0 (b2n y.2.2)) := by
  simp [Core.cxlEffect, hwrite, hreads]

end

/-- Settles O5: starts are IND_CMD on its cases; the ends are the effect on a multicast group, or on a region's line. -/
theorem indirectWindows : Obligations.IndirectWindows := by
  refine ⟨fun s m w tab p autoinc x hx hstands hserves => ?_, fun s d p x op i act hlive hx haddr hi htest hop => ?_,
    fun s x op r n poisoned hlive hx hop hwrite hr hn hbudget hon hup hline hmaster hanswered => ?_⟩
  · have hread := completes_indRead hx hstands hserves autoinc
    have hwrite := completes_indWrite hx hstands hserves autoinc
    refine ⟨fun hfree => ⟨?_, fun hstore => ?_, fun hkind hm => ?_⟩, fun hbusy => ⟨?_, ?_⟩⟩
    · rwa [Core.indCmd_starts hfree (by simp)] at hread
    · have hmp : ¬(x.kind = .store ∧ true = true ∧ m ≠ .mp) := fun ⟨hkind, _, hm⟩ => hm (hstore hkind)
      rwa [Core.indCmd_starts hfree hmp] at hwrite
    · rwa [Core.indCmd_store_refused hkind hm] at hwrite
    · rwa [Core.indCmd_busy hbusy] at hread
    · rwa [Core.indCmd_busy hbusy] at hwrite
  · obtain rfl : mcgWin = x := Option.some.inj (winOf_mcg.symm.trans hx)
    have hdone := completes_indOpComplete_mcg hlive hop act
    refine ⟨fun hop => ?_, fun hop => ?_⟩
    · rwa [Core.indEffect_mcg_write htest haddr hi hop] at hdone
    · rwa [Core.indEffect_mcg_read htest haddr hi hop, Core.entryRows_mcg] at hdone
  · obtain rfl : cxlRdWin = x := Option.some.inj (winOf_cxlRd.symm.trans hx)
    subst hr hn
    have hdone := completes_onCore (c := .cxlRdRead poisoned) _ hlive rfl
    rwa [Core.indDone_cxlRd hop hbudget,
      Core.cxlEffect_reads hwrite (Core.cxlReads_line rfl hon hup hline hmaster hanswered)] at hdone

end Sys2Proof.Machine
end

section
/-!
SUPPORT. The filter table's commands (R97, R304, R305): a write through a die's window, one through the broadcast window, and
the background pass.
-/
namespace Sys2Proof.Machine

/-- A broadcast write that passes reaches every populated die, as an operation of the window where it is late (R68). -/
theorem State.fltChange_broadcast {s : State} {m : Master} (hlive : s.core.live = true)
    (hverdict : s.core.broadcastVerdict m 0x27 0x204 true = .ok) (d late i action : Nat) (valid commit : Bool) :
    s.fltChange m d true late i action valid commit =
      { s with core := s.core.dieList.foldl (fun k x =>
          if bit late x = 1 then k.fltLate m x i action valid commit else k.fltWindow m x i action valid commit) s.core } := by
  simp [State.fltChange, State.writeVia, State.onCore_live _ hlive, hverdict]

section
variable {k : Core} {d : Nat}

/-- A filter write is discarded with ACC_ERR while the window of the die is busy (R97). -/
theorem Core.fltWindow_busy (hbusy : k.indBusy (dw d) 0x27 = true) (m : Master) (i action : Nat) (valid commit : Bool) :
    k.fltWindow m d i action valid commit = k.accErr (dw d) 0x27 m 0x204 := by
  simp [Core.fltWindow, hbusy]

/-- On a window that is not busy a filter write changes its entry. -/
theorem Core.fltWindow_free (hfree : k.indBusy (dw d) 0x27 = false) (m : Master) (i action : Nat) (valid commit : Bool) :
    k.fltWindow m d i action valid commit = k.fltWrite d i action valid commit := by
  simp [Core.fltWindow, hfree]

/-- The pass rewrites a row that differs from its shadow and counts it (R305). -/
theorem Core.fltCompare_differs {i rv rm : Nat} (hon : k.rd R.FLT_BG_CFG_EN (dw d) 0 0 ≠ 0)
    (hrow : rv ≠ (k.fltGet d i).value ∨ rm ≠ (k.fltGet d i).mask) :
    k.fltCompare d i rv rm .good =
      (((k.fltPut { k.fltGet d i with rowValue := (k.fltGet d i).value, rowMask := (k.fltGet d i).mask }).bump
        R.FLT_BG_FIX_CNT (dw d) 0 0 1).ceFound (dw d) 0x26 0 7).raise (dw d) 0x26 0 := by
  simp [Core.fltCompare, hon, hrow]

/-- The pass leaves a row that agrees with its shadow. -/
theorem Core.fltCompare_agrees {i rv rm : Nat} (hvalue : rv = (k.fltGet d i).value) (hmask : rm = (k.fltGet d i).mask) :
    k.fltCompare d i rv rm .good = k := by
  simp [Core.fltCompare, hvalue, hmask]

/-- An uncorrectable shadow costs the entry VALID, whatever the row holds (R305). -/
theorem Core.fltCompare_ue (hon : k.rd R.FLT_BG_CFG_EN (dw d) 0 0 ≠ 0) (i rv rm : Nat) :
    k.fltCompare d i rv rm .ue = k.fltShadowUe d i := by
  simp [Core.fltCompare, hon]

end

/-- Settles O24: both commands are one write of the entry, through either window; the pass goes by the shadow. That a late
die takes the broadcast as an operation of its window is the model's choice (log 135). -/
theorem filterCommands : Obligations.FilterCommands := by
  intro s m d i action valid rv rm late
  have hcommit := fun hserves => completes_write (s := s) (c := .filterKeyCommit m d false late i action valid) _ hserves rfl
  have haction := fun hserves => completes_write (s := s) (c := .filterActionWrite m d false late i action valid) _ hserves rfl
  dsimp only
  refine ⟨fun hserves hbusy => ?_, fun hlive hverdict => ?_, fun hserves hfree => ?_, fun hlive hon => ?_⟩
  · exact ⟨Core.fltWindow_busy hbusy .. ▸ hcommit hserves, Core.fltWindow_busy hbusy .. ▸ haction hserves⟩
  · exact ⟨congrArg done (State.fltChange_broadcast hlive hverdict ..),
      congrArg done (State.fltChange_broadcast hlive hverdict ..)⟩
  · exact ⟨(Core.fltWindow_free hfree .. ▸ hcommit hserves :), (Core.fltWindow_free hfree .. ▸ haction hserves :)⟩
  · have hpass (shadow) := completes_onCore (c := .filterBgCompare d i rv rm shadow) _ hlive rfl
    refine ⟨fun hrow => ?_, fun hvalue hmask => ?_, ?_⟩
    · exact Core.fltCompare_differs hon hrow ▸ hpass .good
    · exact Core.fltCompare_agrees hvalue hmask ▸ hpass .good
    · exact Core.fltCompare_ue hon .. ▸ hpass .ue

end Sys2Proof.Machine
end

section
/-!
SUPPORT. Gates (R97, R411 to R416): a swap request, its validation, EN, and the clock at a gate change.
-/
namespace Sys2Proof.Machine

/-! ### Swaps -/

/-- STATE, REASON and DETAIL of EPH_SWAP_STAT are three fields. -/
theorem ephSwapStat_key_ne (w p : Nat) :
    R.EPH_SWAP_STAT_STATE.key w p 0 ≠ R.EPH_SWAP_STAT_REASON.key w p 0 ∧
    R.EPH_SWAP_STAT_STATE.key w p 0 ≠ R.EPH_SWAP_STAT_DETAIL.key w p 0 ∧
    R.EPH_SWAP_STAT_REASON.key w p 0 ≠ R.EPH_SWAP_STAT_DETAIL.key w p 0 := by
  simp [Fld.key, R.EPH_SWAP_STAT_STATE, R.EPH_SWAP_STAT_REASON, R.EPH_SWAP_STAT_DETAIL]

section
variable (k : Core) (d p n : Nat)

/-- GO asks for the swap of the selected port, behind the requests that wait. -/
theorem Core.swapGo_swapReq : (k.swapGo d p n).egr.swapReq = k.egr.swapReq ++
    [⟨d, p, k.rd R.EPH_SWAP_SEL_PORT (dw d) p 0, n, k.rd R.EPH_SWAP_AT (dw d) p 0, k.egr.swapLast.get (d * 8 + p) + 1⟩] := rfl

/-- GO writes the fields of EPH_SWAP_STAT, and no other register field. -/
theorem Core.swapGo_rd (f : Fld) : (k.swapGo d p n).rd f (dw d) p 0 =
    (((k.wr R.EPH_SWAP_STAT_STATE (dw d) p 0 1).wr R.EPH_SWAP_STAT_REASON (dw d) p 0 0).wr
      R.EPH_SWAP_STAT_DETAIL (dw d) p 0 0).rd f (dw d) p 0 := rfl

/-- After GO, STATE reads pending. -/
theorem Core.swapGo_state : (k.swapGo d p n).rd R.EPH_SWAP_STAT_STATE (dw d) p 0 = 1 := by
  obtain ⟨hreason, hdetail, -⟩ := ephSwapStat_key_ne (dw d) p
  rw [Core.swapGo_rd, Core.rd_wr_ne _ _ hdetail, Core.rd_wr_ne _ _ hreason, Core.rd_wr_same]
  rfl

/-- After GO, REASON reads 0. -/
theorem Core.swapGo_reason : (k.swapGo d p n).rd R.EPH_SWAP_STAT_REASON (dw d) p 0 = 0 := by
  obtain ⟨-, -, hdetail⟩ := ephSwapStat_key_ne (dw d) p
  rw [Core.swapGo_rd, Core.rd_wr_ne _ _ hdetail, Core.rd_wr_same, Nat.zero_mod]

end

section
variable {k : Core} {d p : Nat} {r : EphSwap} (hr : k.egr.swapReq.find? (fun r => r.die == d && r.pipe == p) = some r)
include hr

/-- An accepted request becomes pending for its cycle (R416). -/
theorem Core.swapValidate_accepted {c : Nat} (hc : k.validate r = .accepted c) :
    k.swapValidate d p = { k with egr := { k.egr with
      swapReq := k.egr.swapReq.erase r
      swapPend := k.egr.swapPend ++ [{ r with at' := c }] } }.tw T.EPH_PORT_SWAP_STATE (dw d) p r.l 1 := by
  simp [Core.swapValidate, hr, hc]

/-- The last request asked for, refused while no swap is pending, raises the event and shows its reason (R416). -/
theorem Core.swapValidate_refused {why det : Nat} (hv : k.validate r = .refused why det)
    (hlast : k.egr.swapLast.get (d * 8 + p) = r.seq) (hpend : k.egr.swapPend = []) :
    k.swapValidate d p =
      (((((({ k with egr := { k.egr with swapReq := k.egr.swapReq.erase r } }).tw T.EPH_PORT_SWAP_STATE (dw d) p r.l
        3).raise (dw d) (0x50 + p) 1).wr R.EPH_SWAP_STAT_STATE (dw d) p 0 3).wr R.EPH_SWAP_STAT_REASON (dw d) p 0 why).wr
        R.EPH_SWAP_STAT_DETAIL (dw d) p 0 det) := by
  simp [Core.swapValidate, hr, hv, hlast, hpend]

end

/-! ### EN and the clock -/

/-- EN = 0 takes the port out of its gates' hold (R413). -/
theorem Core.ephEnable_off (k : Core) (d p l : Nat) :
    (k.ephEnable d p l false).egr.gated.get (d * 256 + 32 * p + l) = 0 := by
  simp [Core.ephEnable, SMap.get_set_same]

/-- Time that passes lengthens the cycle's elapsed part. -/
theorem Core.pass_elapsed (k : Core) (n : Nat) : (k.pass n).time.elapsed = k.time.elapsed + n := rfl

/-- GATE_CHANGE lets the time pass that is left until the entry's START. -/
theorem completes_gateChange {s : State} (hlive : s.core.live = true) {d : Fin 8} {port entry : Fin 256}
    {es : List (Nat × Nat)} (hes : s.core.ephAt d port 0 = some es) (hentry : entry.val < es.length) :
    Completes (.gateChange d port entry) s
      (s.core.pass (((es.getD entry (0, 0)).1 * s.core.time.span + 2 ^ 32 - 1) / 2 ^ 32 - s.core.time.elapsed)) := by
  have hgate := completes_onCore (c := .gateChange d port entry) _ hlive rfl
  simpa only [hes, if_pos hentry] using hgate

/-- Settles O28: each command's meaning on its case. That GATE_CHANGE brings the clock to START is the model's choice
(log 131). -/
theorem ephemerisGates : Obligations.EphemerisGates := by
  intro s m d p l n hlive
  dsimp only
  have hvalidate := completes_onCore (c := .ephSwapValidate d p) _ hlive rfl
  refine ⟨fun hserves => ?_, fun r c hr hc => ?_, fun r why det hr hv hlast hpend => ?_, fun hserves hbusy => ?_,
    fun hserves hfree => ⟨?_, ?_⟩, fun port entry es hes hentry => ⟨completes_gateChange hlive hes hentry, ?_⟩,
    fun _ => ⟨rfl, rfl, rfl, rfl⟩⟩
  · exact ⟨_, completes_write (c := .ephSwapGo m d p n) _ hserves rfl, s.core.swapGo_swapReq d p n, rfl,
      s.core.swapGo_state d p n, s.core.swapGo_reason d p n⟩
  · exact Core.swapValidate_accepted hr hc ▸ hvalidate
  · exact Core.swapValidate_refused hr hv hlast hpend ▸ hvalidate
  · exact completes_window_busy _ hserves rfl hbusy
  · exact (completes_window_free (c := .ephEnableWrite m d p l true) _ hserves rfl hfree :)
  · exact ⟨_, completes_window_free (c := .ephEnableWrite m d p l false) _ hserves rfl hfree, Core.ephEnable_off ..⟩
  · rw [Core.pass_elapsed]
    omega

end Sys2Proof.Machine
end

section
/-!
SUPPORT. A word of zeros (R127, R132) makes no lookup, and its packet notes the key of its selects all the same: a state in
which the statement StageExecute has the packet keep the key noted before.
-/
namespace Sys2Proof.Machine

/-- A packet at stage 10 of the first pipeline of die 0, at address 0, whose container 0 is 1. -/
def keyedPkt : Pkt := { freshPkt 1 0 0 0 0 false 2 [] 0 0 0 with place := .stage, stage := 10, vec := 1 :: List.replicate 63 0 }

/-- A part that runs, its stage stores all zeros, that holds this packet. -/
def keyedPart : State :=
  { State.reset with core :=
    let k := State.reset.core.wr R.PAG_BOOT_PROG_RELEASED 0 0 0 0xFF
    { k with
      pack := { k.pack with power := true }
      pipes := { k.pipes with pkts := [keyedPkt] } } }

/-- Refutes O11: in the clause on a word of zeros, where container 0 is 1. A packet notes at each word the key of that word's
selects, which WAITSEL 0x03 tests (R132, R158): here the key of container 0 four times. The statement has the packet go on with
the key noted before, though its words speak of the vector, the flags, the results and the frame alone. -/
theorem not_stageExecute : ¬ Obligations.StageExecute := by
  intro h
  obtain ⟨-, hzero⟩ := h
  have hcompletes := hzero keyedPart 1 false keyedPkt (by decide +kernel) rfl rfl (by decide +kernel) rfl rfl (by decide) rfl
    (by decide) (by decide +kernel) (by decide +kernel)
  have hnoted := congrArg (fun o => (after o keyedPart).core.pipes.pkts.map (·.waitKey)) hcompletes
  exact absurd hnoted (by decide +kernel)

end Sys2Proof.Machine
end

section
/-!
SUPPORT. Parking (R159 to R168): the outcome of each command on its case.
-/
namespace Sys2Proof.Machine

section
variable {k : Core} {id : Nat} {p : Pkt} (hp : k.pkt id = some p)
include hp

/-- A stalled packet that waits to be held is held once an entry and room are free (R160, R167). -/
theorem Core.stallRelease_held (hplace : p.place = .stalled true) (hroom : k.canPark p.die p.pipe (k.grpCells p.grp) = true) :
    k.stallRelease id = (k.parkOr p .held true).unstall p.die p.pipe := by
  simp [Core.stallRelease, hp, hplace, hroom]

/-- A parked packet whose condition holds is woken when none that parked before it is ready (R161, R162). -/
theorem Core.parkWake_first {wsel since tmo : Nat} (hplace : p.place = .parked wsel since tmo)
    (hholds : k.waitHolds p (k.wordOf p) = true) (hfirst : k.pipes.pkts.any (k.readyBefore · p) = false) :
    k.parkWake id = k.putPkt { p with place := .woken wsel k.time.now } := by
  simp only [Core.parkWake, hp, hplace, hholds, hfirst, Bool.false_eq_true, not_false_eq_true, and_self, if_true]

/-- One that is ready later is not woken (R162). -/
theorem Core.parkWake_later {wsel since tmo : Nat} (hplace : p.place = .parked wsel since tmo)
    (hlater : k.pipes.pkts.any (k.readyBefore · p) = true) : k.parkWake id = k := by
  simp only [Core.parkWake, hp, hplace, hlater, not_true, and_false, if_false]

/-- Nor does it time out. -/
theorem Core.parkTimeout_later {wsel since tmo : Nat} (hplace : p.place = .parked wsel since tmo)
    (hlater : k.pipes.pkts.any (k.readyBefore · p) = true) : k.parkTimeout id = k := by
  simp only [Core.parkTimeout, hp, hplace, hlater, or_true, if_true]

/-- A packet whose time has run out, whose condition does not hold and before which none is ready, is woken with the timed-out
mark (R162, R165); a deep lookup it waits for returns an error. -/
theorem Core.parkTimeout_first {wsel since tmo : Nat} (hplace : p.place = .parked wsel since tmo)
    (hover : since + tmo * 1000 ≤ k.time.now) (hnot : k.waitHolds p (k.wordOf p) = false)
    (hfirst : k.pipes.pkts.any (k.readyBefore · p) = false) :
    k.parkTimeout id = ((k.bump R.SEQ_PARK_TMO_CNT (dw p.die) p.pipe 0 1).raise (dw p.die) (8 + p.pipe) 2).putPkt
      { (if wsel = 1 then { p.took { Found.miss with error := true } with deep := .returned } else p) with
        place := .woken wsel k.time.now, timedOut := true } := by
  simp only [Core.parkTimeout, hp, hplace, hnot, hfirst, Nat.not_lt.mpr hover, Bool.false_eq_true, or_self, if_false]

/-- A woken packet before which none of its cclk waits re-enters its stage, its cells back in its ingress account (R161 to
R164), or is dropped when its entry is lost (R570). -/
theorem Core.parkReentry_first {wsel at' : Nat} (hplace : p.place = .woken wsel at')
    (hfirst : k.pipes.pkts.any (k.wokenBefore · p at') = false) (ue : Bool) :
    k.parkReentry id ue =
      if ue then (((k.unparkGrp p.grp).ueFound (dw p.die) 1).raise (dw p.die) (8 + p.pipe) 0).dropPkt p
      else (k.unparkGrp p.grp).moveOn { p with place := .stage, reentry := true } := by
  simp only [Core.parkReentry, hp, hplace, hfirst, Bool.false_eq_true, if_false]

/-- A held packet that no earlier packet of its port has to leave before leaves the ingress half (R168): one that recirculates,
has not been parsed or waits for Focus does not have to. -/
theorem Core.holdRelease_first (hplace : p.place = .held)
    (hfirst : ∀ x ∈ k.pipes.pkts, x.id < p.id → x.die = p.die → x.inPort = p.inPort → x.egress = false →
      x.recirculated = true ∨ x.place = .arrived ∨ x.focusParked = true) (ue : Bool) :
    k.holdRelease id ue = (k.unparkGrp p.grp).leaveIngress p ue := by
  have hnone : (k.pipes.pkts.any fun x => decide (x.id < p.id) && x.die == p.die && x.inPort == p.inPort && !x.egress &&
      !x.recirculated && x.place != .arrived && !x.focusParked) = false := by
    simpa [List.any_eq_false, imp_iff_not_or, or_assoc] using hfirst
  simp [Core.holdRelease, hp, hplace, hnone]

end

/-- A packet is held with the next parking number, its cells in the parking pool, and the hold is counted (R167). -/
theorem Core.parkOr_held {k : Core} {p : Pkt} (hroom : k.canPark p.die p.pipe (k.grpCells p.grp) = true) :
    k.parkOr p .held true =
      (((k.takeId.2.parkGrp p.grp p.pipe).putPkt { p with place := .held, parkSeq := k.pipes.nextId }).bump
        R.SEQ_ORDER_HOLD_CNT (dw p.die) p.pipe 0 1).count (dw p.die) 1 4 p.pipe 1 := by
  have htaken : k.takeId.2.canPark p.die p.pipe (k.takeId.2.grpCells p.grp) = true := hroom
  exact if_pos htaken

/-- Settles O13: each command's meaning on its case. -/
theorem parking : Obligations.Parking := by
  intro s id p ue hlive hp
  have hstall := completes_onCore (c := .parkStallRelease id) _ hlive rfl
  have hwake := completes_onCore (c := .parkWake id) _ hlive rfl
  have htimeout := completes_onCore (c := .parkTimeout id) _ hlive rfl
  have hreentry (ue) := completes_onCore (c := .parkReentry id ue) _ hlive rfl
  have hrelease := completes_onCore (c := .orderHoldRelease id ue) _ hlive rfl
  refine ⟨fun hplace hroom => ?_, fun wsel since tmo hplace hholds => ⟨fun hfirst => ?_, fun hlater => ⟨?_, ?_⟩⟩,
    fun wsel at' hplace hfirst => ⟨?_, ?_⟩, fun wsel since tmo hplace hover hnot hfirst => ?_, fun hplace hfirst => ?_⟩
  · rwa [Core.stallRelease_held hp hplace hroom, Core.parkOr_held hroom] at hstall
  · rwa [Core.parkWake_first hp hplace hholds hfirst] at hwake
  · rwa [Core.parkWake_later hp hplace hlater] at hwake
  · rwa [Core.parkTimeout_later hp hplace hlater] at htimeout
  · exact (Core.parkReentry_first hp hplace hfirst false ▸ hreentry false :)
  · exact (Core.parkReentry_first hp hplace hfirst true ▸ hreentry true :)
  · rw [Core.parkTimeout_first hp hplace hover hnot hfirst] at htimeout
    exact htimeout
  · rwa [Core.holdRelease_first hp hplace hfirst] at hrelease

end Sys2Proof.Machine
end

section
/-!
SUPPORT. The return of a deep lookup (R291 to R293) and the rewrite of a lost stage word (R190): the outcome on each case.
-/
namespace Sys2Proof.Machine

section
variable {k : Core} {id since : Nat} {p : Pkt} {ws : List Word} (hp : k.pkt id = some p)
include hp

/-- A lookup that times out returns an error and makes room (R293). -/
theorem Core.deepReturn_timeout (hissued : p.deep = .issued ws since) (poisoned : Nat) :
    k.deepReturn id poisoned true =
      ((k.deepError p.die).putPkt { p.took { Found.miss with error := true } with deep := .returned }).deepNext p.die := by
  simp [Core.deepReturn, hp, hissued, Core.deepAnswer]

/-- A lookup whose two lines are within the budget of region 1 returns what they hold and makes room (R291, R292). -/
theorem Core.deepReturn_read (hissued : p.deep = .issued ws since) (hon : k.deepOn p.die = true) (hbudget : 128 ≤ k.tokens 1)
    (poisoned : Nat) :
    k.deepReturn id poisoned false =
      ((((k.answered 1 since).deepLookup p.die (keyOf ws) poisoned).1.putPkt
        { p.took ((k.answered 1 since).deepLookup p.die (keyOf ws) poisoned).2 with deep := .returned }).deepNext p.die) := by
  simp [Core.deepReturn, hp, hissued, Core.deepAnswer, hon, Nat.not_lt.mpr hbudget]

/-- A queued lookup stays queued while its die has no place (R292). -/
theorem Core.deepReturn_queued_full (hqueued : p.deep = .queued ws) (hon : k.deepOn p.die = true)
    (hfull : k.deepFree p.die = false) (poisoned : Nat) : k.deepReturn id poisoned false = k := by
  simp [Core.deepReturn, hp, hqueued, hon, hfull]

end

/-- A read of a region leaves the pipelines as they are. -/
theorem Core.regionRead_pipes (k : Core) (r n : Nat) : (k.regionRead r n).pipes = k.pipes := by
  rw [Core.regionRead, Core.count_pipes, Core.add64Sat, Core.onIo_pipes]

/-- So does firmware's read of region 0. -/
theorem Core.firmwareRead_pipes (k : Core) : (k.firmwareRead false).pipes = k.pipes := by
  rw [Core.firmwareRead, if_neg Bool.false_ne_true, Core.regionRead_pipes, Core.spend]

/-- With region 0 readable and its budget not spent, an uncorrectable word is rewritten from the retained image (R190). -/
theorem State.storeRewrite_image {s : State} {d p st a : Nat} (hlost : storeKey d p st a ∈ s.core.pipes.storeUe)
    (hregion : s.core.regionOn 0 = true) (hbudget : s.core.tokens 0 ≠ 0) :
    s.storeRewrite d p st a false =
      { s with core := (s.core.firmwareRead false).putWord d p st a (s.core.pipes.image.get (st * 4096 + a)) } := by
  simp [State.storeRewrite, hlost, hregion, hbudget]

/-- Settles O14: each command's meaning on its case. That the image is read within the budget of region 0 rests on
log 149, a deduction. -/
theorem deepReturnAndRewrite : Obligations.DeepReturnAndRewrite := by
  intro s id p ws since poisoned d q st a hlive
  have hreturn (timeout) := completes_onCore (c := .deepLookupReturn id poisoned timeout) _ hlive rfl
  refine ⟨fun hp hissued => ⟨?_, fun hon hbudget => ?_⟩, fun hp hqueued hon hfull => ?_, fun hlost hregion hbudget => ?_⟩
  · exact (Core.deepReturn_timeout hp hissued poisoned ▸ hreturn true :)
  · exact (Core.deepReturn_read hp hissued hon hbudget poisoned ▸ hreturn false :)
  · exact Core.deepReturn_queued_full hp hqueued hon hfull poisoned ▸ hreturn false
  · have hrewrite : exec (.storeWordRewrite d q st a false) s = done (s.storeRewrite d q st a false) :=
      congrArg done (if_pos hlive)
    rwa [State.storeRewrite_image hlost hregion hbudget, Core.putWord, Core.firmwareRead_pipes] at hrewrite

end Sys2Proof.Machine
end

section
/-!
SUPPORT. Program change (R171 to R175, R181, R184, R192, R741): a service that runs, the outcomes of a verified load and of a
restore, the flips, and the reports at the end.
-/
namespace Sys2Proof.Machine

/-! ### A service that runs -/

section
variable {s s1 : State} {ch : Nat} {sv : Service} {f : State → State × Option Reply} (hruns : Runs s ch sv)
include hruns

/-- A service that firmware runs gives the state it makes, with its reply (R739, R740). -/
theorem State.serve_replies {r : Reply} (hf : f s = (s1, some r)) : s.serve ch sv f = s1.reply ch r := by
  obtain ⟨hworking, hscreen⟩ := hruns
  simp only [State.serve, hworking, hscreen, hf, not_true, if_false]

/-- A service whose reply comes later gives the state it makes (R741). -/
theorem State.serve_waits (hf : f s = (s1, none)) : s.serve ch sv f = s1 := by
  obtain ⟨hworking, hscreen⟩ := hruns
  simp only [State.serve, hworking, hscreen, hf, not_true, if_false]

end

/-! ### The load -/

/-- The manifest at the front of a buffer (R741). -/
def bufManifest (b : List Byte) : Manifest := manifestAt fun o n => (b.drop o).take n

/-- The stored bytes of an entry's program in a buffer (R741). -/
def bufProgram (b : List Byte) (e : ImgEntry) : List Byte := (b.drop (programAt (bufManifest b))).take e.length

/-- A program's load has passed every check before those on the image itself: the request names an entry that holds a program,
the manifest verifies, and the program stands whole in the buffer and verifies (R181, R741). -/
structure LoadVerified (s : State) (ch : Nat) (b : List Byte) (e : ImgEntry) : Prop where
  entry : (bufManifest b).entries[s.core.req ch 5]? = some e
  type : e.type = 4 ∨ e.type = 0x10
  manifest : s.fuse.manifestCode (min 1 (bufManifest b).kind) (bufManifest b) 0 = none
  whole : (bufProgram b e).length = e.length
  image : imageCode e (bufProgram b e) = none

/-- The flips of a program change, half by half over the live pipelines, those of a second half marked (R175). -/
def Core.changeFlips (k : Core) (halves : List Bool) : List (Nat × Bool × Bool) :=
  halves.zipIdx.flatMap fun h => k.livePipes.map fun x => (x.1 * 8 + x.2, h.1, h.2 != 0)

/-- A program change begins: the inactive halves hold the image's words, the flips are queued, each live pipeline is to report,
and LOADING is set (R175 steps 3 to 6). -/
def Core.startChange (k : Core) (ch : Nat) (m : Manifest) (e : ImgEntry) (ws : List (Nat × Nat)) : Core :=
  let halves := changeHalves (k.req ch 4)
  let k1 := halves.foldl (fun k h => k.loadInactive h ws) k
  Core.setLoading { k1 with
    pipes := { k1.pipes with flips := k1.pipes.flips ++ k.changeFlips halves }
    mbx := { k1.mbx with change := some ⟨k.livePipes.map fun x => x.1 * 8 + x.2, ch, m, e⟩ } } 1

section
variable {s : State} {ch : Nat} {b : List Byte} {e : ImgEntry} (h : LoadVerified s ch b e)
include h

/-- A verified program whose image breaks a rule is refused with its reason and place, and nothing is loaded (R181). -/
theorem State.load_refused {r : Refused} (hr : s.core.imageRefused (imagePlain e (bufProgram b e)) e.length = some r) :
    s.load ch b none = (s, some (loadRefusal r 0)) := by
  obtain ⟨hentry, htype, hmanifest, hwhole, himage⟩ := h
  have htypes : ¬(e.type ≠ 4 ∧ e.type ≠ 0x10) := by omega
  simp only [bufManifest, bufProgram] at hentry hmanifest hwhole himage hr
  simp only [State.load, hentry, hwhole, hmanifest, himage, hr, htypes, lt_irrefl, if_false]

/-- A verified program whose image keeps the rules starts the change where no packet uses an old half; its reply waits
(R174, R175). -/
theorem State.load_starts (hr : s.core.imageRefused (imagePlain e (bufProgram b e)) e.length = none)
    (hidle : (s.core.livePipes.all fun x => (changeHalves (s.core.req ch 4)).all fun h => s.core.oldUse x.1 x.2 h == 0) = true) :
    s.load ch b none =
      ({ s with core := s.core.startChange ch (bufManifest b) e (imageWords (imagePlain e (bufProgram b e))) }, none) := by
  obtain ⟨hentry, htype, hmanifest, hwhole, himage⟩ := h
  have htypes : ¬(e.type ≠ 4 ∧ e.type ≠ 0x10) := by omega
  have hunused : (s.core.livePipes.any fun x =>
      (changeHalves (s.core.req ch 4)).any fun h => decide (s.core.oldUse x.1 x.2 h ≠ 0)) = false := by
    simpa using hidle
  simp only [bufManifest, bufProgram] at hentry hmanifest hwhole himage hr
  simp only [State.load, hentry, hwhole, hmanifest, himage, hr, htypes, hunused, lt_irrefl, Bool.false_eq_true, if_false]
  rfl

end

/-- PROGRAM_CHANGE_LOAD of a buffer that the host memory returned whole is the service that loads it (R738, R741). -/
theorem programChangeLoad_service {s : State} {ch : Fin 13} {b : List Byte} (hhalves : s.core.req ch 4 ≤ 3)
    (hlen : s.core.bufLen ch ≤ b.length) :
    ∃ f, exec (.programChangeLoad ch (some b) none) s = done (s.serve ch svcLoad f) ∧
      f s = s.load ch (b.take (s.core.bufLen ch)) none :=
  ⟨_, rfl, by simp only [Core.bufIn, if_neg (Nat.not_lt.mpr hhalves), if_pos hlen, Option.map_none]⟩

/-- PROGRAM_CHANGE_LOAD of a verified program (R175, R181, R741): a refused image is answered, one that keeps the rules starts
the change. -/
theorem programChangeLoad_verified {s : State} {ch : Fin 13} {b : List Byte} {e : ImgEntry} (hruns : Runs s ch svcLoad)
    (hhalves : s.core.req ch 4 ≤ 3) (hlen : s.core.bufLen ch ≤ b.length)
    (h : LoadVerified s ch (b.take (s.core.bufLen ch)) e) :
    let plain := imagePlain e (bufProgram (b.take (s.core.bufLen ch)) e)
    (∀ r, s.core.imageRefused plain e.length = some r →
      exec (.programChangeLoad ch (some b) none) s = .next (s.reply ch (loadRefusal r 0))) ∧
    (s.core.imageRefused plain e.length = none →
      (s.core.livePipes.all fun x => (changeHalves (s.core.req ch 4)).all fun h => s.core.oldUse x.1 x.2 h == 0) = true →
      Completes (.programChangeLoad ch (some b) none) s
        (s.core.startChange ch (bufManifest (b.take (s.core.bufLen ch))) e (imageWords plain))) := by
  obtain ⟨f, hexec, hf⟩ := programChangeLoad_service hhalves hlen
  refine ⟨fun r hr => ?_, fun hr hidle => ?_⟩
  · rw [hexec, State.serve_replies hruns (hf.trans (State.load_refused h hr)), done]
  · rw [Completes, hexec, State.serve_waits hruns (hf.trans (State.load_starts h hr hidle)), done]

/-! ### The restore -/

/-- PROGRAM_CHANGE_RESTORE of a live pipeline that is not ready, with no change in progress and another one ready, restores it
from the ready ones (R184, R741). -/
theorem programChangeRestore_restores {s : State} {ch : Fin 13} {d p : Nat} {x : Nat × Nat} {t : List (Nat × Nat)}
    (hruns : Runs s ch svcRestore) (hd : bits (s.core.req ch 1) 5 3 = d) (hp : s.core.req ch 1 % 8 = p)
    (hsel : s.core.req ch 1 < 64) (hpipe : (d, p) ∈ s.core.livePipes)
    (hready : s.core.rd R.SEQ_STATUS_READY (dw d) p 0 = 0) (hchange : s.core.mbx.change = none)
    (hloading : s.core.rd R.SEQ_STATUS_LOADING (dw d) p 0 = 0) (hpipes : s.core.readyPipes d p = x :: t) :
    exec (.programChangeRestore ch) s = .next ({ s with core := s.core.restorePipe d p (x :: t) x }.reply ch ⟨0, []⟩) := by
  refine congrArg done (State.serve_replies hruns ?_)
  simp only [hd, hp, hpipe, hready, hchange, hloading, hpipes, Nat.not_le.mpr hsel, not_true, or_self, if_false,
    Option.isSome_none, Bool.false_eq_true, zero_ne_one]

/-! ### Flips -/

section
variable (k : Core) (d p : Nat)

/-- The MP's write queues a flip behind the others (R192). -/
theorem Core.flipCmd_mp (egress : Bool) :
    k.flipCmd .mp d p egress =
      { k with pipes := { k.pipes with flips := k.pipes.flips ++ [(d * 8 + p, egress, false)] } } := rfl

/-- Any other master's sets ACC_ERR (R192). -/
theorem Core.flipCmd_other {m : Master} (hm : m ≠ .mp) (egress : Bool) :
    k.flipCmd m d p egress = k.accErr (dw d) (8 + p) m 0x108 := if_neg hm

variable {k d p} {x : Nat × Bool × Bool} (hx : k.pipes.flips.find? (fun x => x.1 == d * 8 + p) = some x)
include hx

/-- The flip of a second half waits while one of a first half is queued anywhere (R175). -/
theorem Core.flipApply_waits (hsecond : x.2.2 = true) (hfirst : k.pipes.flips.any (fun y => !y.2.2) = true) :
    k.flipApply d p = k := by
  simp only [Core.flipApply, hx, hsecond, hfirst, and_self, if_true]

/-- Any other flip turns the epoch over and ends the pipeline's LOADING (R171, R175). -/
theorem Core.flipApply_turns (hturn : x.2.2 = false ∨ k.pipes.flips.any (fun y => !y.2.2) = false) :
    k.flipApply d p =
      (({ k with pipes := { k.pipes with flips := k.pipes.flips.erase x } }.wr R.SEQ_STATUS_LOADING (dw d) p 0 0).wr
        (if x.2.1 then R.SEQ_STATUS_EPOCH_EG else R.SEQ_STATUS_EPOCH_IN) (dw d) p 0 (1 - k.epoch d p x.2.1)) := by
  have hnow : ¬(x.2.2 = true ∧ k.pipes.flips.any (fun y => !y.2.2) = true) := by
    obtain h | h := hturn <;> simp only [h, Bool.false_eq_true, false_and, and_false, not_false_eq_true]
  simp only [Core.flipApply, hx, if_neg hnow]

end

/-! ### The end of a change -/

/-- OLD_HALF_IDLE without a change, or while an old half is in use, does nothing (R175). -/
theorem completes_oldHalfIdle_stays {s : State} (d p : Fin 8) (h : s.core.mbx.change = none ∨ s.core.halvesIdle = false) :
    Completes (.oldHalfIdle d p) s s.core := by
  refine congrArg done ?_
  cases hchange : s.core.mbx.change with
  | none => rfl
  | some c =>
    have hbusy : s.core.halvesIdle = false := h.resolve_left (by simp [hchange])
    simp [hbusy]

/-- A pipeline of a change whose old halves are idle everywhere raises its event, and the last one ends the change (R175). -/
theorem exec_oldHalfIdle_reports {s : State} {d p : Fin 8} {c : Change} (hlive : s.core.live = true)
    (hchange : s.core.mbx.change = some c) (hidle : s.core.halvesIdle = true) (hleft : d.val * 8 + p.val ∈ c.left) :
    let s1 : State := { s with core := s.core.raise (dw d) (8 + p) 3 }
    let left := c.left.filter (· != d.val * 8 + p.val)
    exec (.oldHalfIdle d p) s = done (if left = [] then s1.endChange c
      else { s1 with core := { s1.core with mbx := { s1.core.mbx with change := some { c with left } } } }) := by
  refine congrArg done ?_
  simp only [hchange, hlive, hidle, List.contains_eq_mem, hleft, decide_true, Bool.not_true, Bool.false_eq_true, not_true,
    or_self, if_false]

/-- Settles O39: each command's meaning on its case. That LOADING falls at a pipeline's first flip, that the second half's
flips wait for the first's, and that the last pipeline to report ends the change rest on log 79, a deduction. -/
theorem programChange : Obligations.ProgramChange := by
  intro s m ch b d p
  dsimp only
  refine ⟨fun e hruns hhalves hlen hentry htype hmanifest hwhole himage =>
      programChangeLoad_verified hruns hhalves hlen ⟨hentry, htype, hmanifest, hwhole, himage⟩,
    fun x t hruns hsel hpipe hready hchange hloading hpipes =>
      programChangeRestore_restores hruns rfl rfl hsel hpipe hready hchange hloading hpipes,
    fun hserves => ?_, fun x hlive hx => ?_, fun c hlive hchange hidle hleft => ?_, completes_oldHalfIdle_stays d p⟩
  · have hin := completes_write (c := .epochFlipIn m d p) _ hserves rfl
    have heg := completes_write (c := .epochFlipEg m d p) _ hserves rfl
    refine ⟨?_, fun hm => ?_⟩
    · rintro rfl
      rw [Core.flipCmd_mp] at hin heg
      exact ⟨hin, heg⟩
    · rw [Core.flipCmd_other _ _ _ hm] at hin heg
      exact ⟨hin, heg⟩
  · have happly := completes_onCore (c := .epochFlipApply d p) _ hlive rfl
    refine ⟨fun hsecond hfirst => ?_, fun hturn => ?_⟩
    · rwa [Core.flipApply_waits hx hsecond hfirst] at happly
    · rwa [Core.flipApply_turns hx hturn] at happly
  · have hreport := exec_oldHalfIdle_reports hlive hchange hidle hleft
    refine ⟨fun hlast => ?_, fun hmore => ?_⟩
    · exact hreport.trans (congrArg done (if_pos hlast))
    · exact hreport.trans (congrArg done (if_neg hmore))

end Sys2Proof.Machine
end

section
/-!
SUPPORT. The ALU opcodes of R214: what each forms as a number or bit by bit, the width of HASH's check value, and the refusal
of a word that holds a reserved opcode (R181).
-/
namespace Sys2Proof.Machine

/-! ### HASH: a CRC-32C register keeps its 32 bits -/

/-- One byte fed to a 32-bit CRC register leaves 32 bits. -/
theorem crcByte_lt {poly crc byte : Nat} (hpoly : poly < 2 ^ 32) (hcrc : crc < 2 ^ 32) (hbyte : byte < 2 ^ 32) :
    crcByte poly crc byte < 2 ^ 32 := by
  refine List.foldlRecOn (motive := (· < 2 ^ 32)) _ _ (Nat.xor_lt_two_pow hcrc hbyte) fun c hc _ _ => ?_
  have hhalf : c / 2 < 2 ^ 32 := by omega
  split
  · exact Nat.xor_lt_two_pow hhalf hpoly
  · exact hhalf

/-- The CRC-32C of bytes has 32 bits. -/
theorem crc32c_lt {bytes : List Nat} (hbytes : ∀ x ∈ bytes, x < 256) : crc32c bytes < 2 ^ 32 := by
  refine Nat.xor_lt_two_pow ?_ (by decide)
  refine List.foldlRecOn (motive := (· < 2 ^ 32)) _ _ (by decide) fun c hc x hx => ?_
  exact crcByte_lt (by decide) hc ((hbytes x hx).trans (by decide))

/-- The bytes of a word are bytes. -/
theorem lt_of_mem_leBytes {v x : Nat} (hx : x ∈ leBytes v) : x < 256 := by
  simp only [leBytes, List.mem_cons, List.not_mem_nil, or_false] at hx
  omega

/-- The highest byte of a 32-bit value is its quotient by 2^24. -/
theorem leBytes_of_lt {v : Nat} (hv : v < 2 ^ 32) :
    leBytes v = [v % 256, v / 2 ^ 8 % 256, v / 2 ^ 16 % 256, v / 2 ^ 24] := by
  have htop : v / 2 ^ 24 % 256 = v / 2 ^ 24 := Nat.mod_eq_of_lt (by omega)
  rw [← htop]
  rfl

/-! ### The helpers of BFX, BFI and FFS -/

/-- The mask of a field of at most 32 bits is not cut off by the word. -/
theorem toNat_ofNat_mask {w : Nat} (hw : w ≤ 32) : (BitVec.ofNat 32 (2 ^ w - 1)).toNat = 2 ^ w - 1 := by
  have hpow : 2 ^ w ≤ 2 ^ 32 := Nat.pow_le_pow_right (by decide) hw
  rw [BitVec.toNat_ofNat]
  omega

/-- BFI takes the source's bits inside the field and the destination's outside it. -/
theorem getLsbD_insertBits (d a : Word) (lo w : Nat) {i : Nat} (hi : i < 32) :
    (insertBits d a lo w).getLsbD i = if lo ≤ i ∧ i < lo + w then a.getLsbD (i - lo) else d.getLsbD i := by
  have hmask : (BitVec.ofNat 32 ((2 ^ w - 1) * 2 ^ lo)).getLsbD i = decide (lo ≤ i ∧ i < lo + w) := by
    simp only [BitVec.getLsbD_ofNat, Nat.testBit_mul_two_pow, Nat.testBit_two_pow_sub_one, hi, decide_true, Bool.true_and,
      ← Bool.decide_and, decide_eq_decide]
    omega
  simp only [insertBits, BitVec.getLsbD_or, BitVec.getLsbD_and, BitVec.getLsbD_not, BitVec.getLsbD_shiftLeft, hmask, hi]
  by_cases hin : lo ≤ i ∧ i < lo + w
  · simp [hin]
  · simp [hin]

/-- A word of zeros has no lowest 1 bit. -/
theorem lowestOne_zero : lowestOne 0 = 32 := by decide

/-- The lowest 1 bit of a word that has one: it is set, and every bit below it is clear. -/
theorem lowestOne_of_ne_zero {a : Word} (ha : a ≠ 0) :
    lowestOne a < 32 ∧ a.getLsbD (lowestOne a) = true ∧ ∀ i, i < lowestOne a → a.getLsbD i = false := by
  cases hfind : (List.range 32).find? fun i => a.getLsbD i with
  | none =>
    have hclear : ∀ i < 32, (!a.getLsbD i) = true := List.find?_range_eq_none.mp hfind
    exact absurd (BitVec.eq_of_getLsbD_eq fun i hi => by simpa using hclear i hi) ha
  | some j =>
    obtain ⟨hset, hj, hbelow⟩ := List.find?_range_eq_some.mp hfind
    have hlow : lowestOne a = j := by simp only [lowestOne, hfind, Option.getD_some]
    rw [hlow]
    exact ⟨List.mem_range.mp hj, hset, fun i hi => by simpa using hbelow i hi⟩

/-! ### The opcodes of R214 -/

/-- Every opcode of the table but NOP forms a result. -/
theorem alu_nop_of_pos (a b d : Word) {op : Nat} (hpos : 1 ≤ op) (hop : op < 0x1A) : (alu op a b d).nop = false := by
  interval_cases op <;> rfl

/-- The opcodes whose carry column is 0. -/
theorem alu_carry_false (a b d : Word) {op : Nat} (hop : op < 0x1A)
    (hcol : op ∉ [0x02, 0x03, 0x04, 0x05, 0x0A, 0x0B, 0x0C, 0x19]) : (alu op a b d).carry = false := by
  interval_cases op <;> simp [alu] at hcol ⊢

section
variable (a b d : Word)

/-- ADD wraps; its carry is the one out of bit 31. -/
theorem alu_add : (alu 0x02 a b d).res.toNat = (a.toNat + b.toNat) % 2 ^ 32 ∧
    ((alu 0x02 a b d).carry = true ↔ 2 ^ 32 ≤ a.toNat + b.toNat) :=
  ⟨BitVec.toNat_add a b, decide_eq_true_iff⟩

/-- SUB wraps; its carry is the borrow. -/
theorem alu_sub : (alu 0x03 a b d).res.toNat = (a.toNat + 2 ^ 32 - b.toNat) % 2 ^ 32 ∧
    ((alu 0x03 a b d).carry = true ↔ a.toNat < b.toNat) := by
  refine ⟨?_, decide_eq_true_iff⟩
  change (a - b).toNat = _
  have hb := b.isLt
  rw [BitVec.toNat_sub]
  omega

/-- ADDS stops at the greatest word. -/
theorem alu_adds : (alu 0x04 a b d).res.toNat = min (a.toNat + b.toNat) 0xFFFFFFFF ∧
    ((alu 0x04 a b d).carry = true ↔ 0xFFFFFFFF < a.toNat + b.toNat) := by
  refine ⟨?_, decide_eq_true_iff⟩
  change (if 2 ^ 32 ≤ a.toNat + b.toNat then 0xFFFFFFFF#32 else a + b).toNat = _
  split
  · rw [BitVec.toNat_ofNat]
    omega
  · rw [BitVec.toNat_add]
    omega

/-- SUBS stops at 0. -/
theorem alu_subs : (alu 0x05 a b d).res.toNat = a.toNat - b.toNat ∧
    ((alu 0x05 a b d).carry = true ↔ a.toNat < b.toNat) := by
  refine ⟨?_, decide_eq_true_iff⟩
  change (if decide (a.toNat < b.toNat) then 0 else a - b).toNat = _
  simp only [decide_eq_true_eq]
  split
  · change 0 = _
    omega
  · rw [BitVec.toNat_sub_of_le (BitVec.le_def.mpr (by omega))]

/-- AND, OR, XOR and ANDN, bit by bit. -/
theorem alu_bitwise (i : Nat) : (alu 0x06 a b d).res.getLsbD i = (a.getLsbD i && b.getLsbD i) ∧
    (alu 0x07 a b d).res.getLsbD i = (a.getLsbD i || b.getLsbD i) ∧
    (alu 0x08 a b d).res.getLsbD i = (a.getLsbD i != b.getLsbD i) ∧
    (alu 0x09 a b d).res.getLsbD i = (a.getLsbD i && !b.getLsbD i) := by
  refine ⟨BitVec.getLsbD_and, BitVec.getLsbD_or, BitVec.getLsbD_xor, ?_⟩
  change (a &&& ~~~b).getLsbD i = _
  by_cases hi : i < 32
  · simp [hi]
  · simp [BitVec.getLsbD_of_ge a i (by omega)]

/-- SHL: the last bit out is bit 32 − n. -/
theorem alu_shl : (alu 0x0A a b d).res.toNat = a.toNat * 2 ^ (b.toNat % 32) % 2 ^ 32 ∧
    ((alu 0x0A a b d).carry = true ↔ b.toNat % 32 ≠ 0 ∧ a.getLsbD (32 - b.toNat % 32) = true) := by
  constructor
  · change (a <<< (b.toNat % 32)).toNat = _
    rw [BitVec.toNat_shiftLeft, Nat.shiftLeft_eq]
  · change (decide (b.toNat % 32 ≠ 0) && a.getLsbD (32 - b.toNat % 32)) = true ↔ _
    rw [Bool.and_eq_true, decide_eq_true_iff]

/-- The last bit a right shift moves out is bit n − 1, when it shifts at all. -/
theorem shiftedOut_iff (n : Nat) : shiftedOut a n = true ↔ n ≠ 0 ∧ a.getLsbD (n - 1) = true := by
  rw [shiftedOut, Bool.and_eq_true, decide_eq_true_iff]

/-- SHR and ASR divide, unsigned and signed. -/
theorem alu_shr : (alu 0x0B a b d).res.toNat = a.toNat / 2 ^ (b.toNat % 32) ∧
    (alu 0x0C a b d).res.toInt = a.toInt / 2 ^ (b.toNat % 32) ∧
    ∀ op, op = 0x0B ∨ op = 0x0C →
      ((alu op a b d).carry = true ↔ b.toNat % 32 ≠ 0 ∧ a.getLsbD (b.toNat % 32 - 1) = true) := by
  refine ⟨?_, ?_, ?_⟩
  · change (a >>> (b.toNat % 32)).toNat = _
    rw [BitVec.toNat_ushiftRight, Nat.shiftRight_eq_div_pow]
  · change (a.sshiftRight (b.toNat % 32)).toInt = _
    rw [BitVec.toInt_sshiftRight, Int.shiftRight_eq_div_pow, Nat.cast_pow, Nat.cast_ofNat]
  · rintro op (rfl | rfl)
    · exact shiftedOut_iff a _
    · exact shiftedOut_iff a _

/-- ROL moves bit i to bit i + n, around the word's end. -/
theorem alu_rol {i : Nat} (hi : i < 32) :
    (alu 0x0D a b d).res.getLsbD ((i + b.toNat % 32) % 32) = a.getLsbD i := by
  change (a.rotateLeft (b.toNat % 32)).getLsbD _ = _
  have hn : b.toNat % 32 < 32 := Nat.mod_lt _ (by decide)
  generalize b.toNat % 32 = n at hn ⊢
  rw [BitVec.getLsbD_rotateLeft, Nat.mod_eq_of_lt hn]
  by_cases hwrap : i + n < 32
  · have hstay : ¬(i + n < n) := by omega
    simp [Nat.mod_eq_of_lt hwrap, hstay, hwrap]
  · have hpos : (i + n) % 32 = i + n - 32 := by omega
    have hback : 32 - n + (i + n - 32) = i := by omega
    have hlow : i + n - 32 < n := by omega
    simp [hpos, hback, hlow]

/-- MINU and MAXU compare unsigned. -/
theorem alu_min_max : (alu 0x0E a b d).res.toNat = min a.toNat b.toNat ∧
    (alu 0x0F a b d).res.toNat = max a.toNat b.toNat := by
  change (if decide (a.toNat < b.toNat) then a else b).toNat = _ ∧ (if decide (a.toNat < b.toNat) then b else a).toNat = _
  by_cases hlt : a.toNat < b.toNat
  · simp [hlt, hlt.le]
  · simp [hlt, not_lt.mp hlt]

/-- CMPEQ, CMPLTU and CMPLTS answer 1 or 0; CMPLTS compares signed. -/
theorem alu_compare : (alu 0x10 a b d).res = (if a.toNat = b.toNat then 1 else 0) ∧
    (alu 0x11 a b d).res = (if a.toNat < b.toNat then 1 else 0) ∧
    (alu 0x12 a b d).res = (if a.toInt < b.toInt then 1 else 0) := by
  refine ⟨?_, ?_, rfl⟩
  · change (if a = b then (1 : Word) else 0) = _
    simp only [BitVec.toNat_inj]
  · change (if decide (a.toNat < b.toNat) then (1 : Word) else 0) = _
    simp only [decide_eq_true_eq]

/-- BFX is the field of B[9:5] + 1 bits from bit B[4:0] up. -/
theorem alu_bfx :
    (alu 0x13 a b d).res.toNat = a.toNat / 2 ^ (b.toNat % 32) % 2 ^ (b.toNat / 32 % 32 + 1) := by
  change ((a >>> (b.toNat % 32)) &&& BitVec.ofNat 32 (2 ^ (b.toNat / 32 % 32 + 1) - 1)).toNat = _
  rw [BitVec.toNat_and, toNat_ofNat_mask (by omega), Nat.and_two_pow_sub_one_eq_mod, BitVec.toNat_ushiftRight,
    Nat.shiftRight_eq_div_pow]

/-- HASH is the CRC-32C of the eight bytes of A and B. -/
theorem alu_hash : (alu 0x14 a b d).res.toNat =
    crc32c [a.toNat % 256, a.toNat / 2 ^ 8 % 256, a.toNat / 2 ^ 16 % 256, a.toNat / 2 ^ 24,
      b.toNat % 256, b.toNat / 2 ^ 8 % 256, b.toNat / 2 ^ 16 % 256, b.toNat / 2 ^ 24] := by
  have hbytes : ∀ x ∈ leBytes a.toNat ++ leBytes b.toNat, x < 256 := fun x hx =>
    (List.mem_append.mp hx).elim lt_of_mem_leBytes lt_of_mem_leBytes
  change (BitVec.ofNat 32 (crc32c (leBytes a.toNat ++ leBytes b.toNat))).toNat = _
  rw [BitVec.toNat_ofNat, Nat.mod_eq_of_lt (crc32c_lt hbytes), leBytes_of_lt a.isLt, leBytes_of_lt b.isLt]
  rfl

/-- BFI replaces the field of the destination, the third source (R215). -/
theorem alu_bfi {i : Nat} (hi : i < 32) : (alu 0x15 a b d).res.getLsbD i =
    if b.toNat % 32 ≤ i ∧ i < b.toNat % 32 + (b.toNat / 32 % 32 + 1) then a.getLsbD (i - b.toNat % 32) else d.getLsbD i :=
  getLsbD_insertBits d a _ _ hi

/-- SCALE: the product of 33 bits, less its low 16, fits the word. -/
theorem alu_scale : (alu 0x16 a b d).res.toNat = a.toNat % 2 ^ 16 * (b.toNat % 2 ^ 17) / 2 ^ 16 := by
  change (BitVec.ofNat 32 (a.toNat % 2 ^ 16 * (b.toNat % 2 ^ 17) / 2 ^ 16)).toNat = _
  have hprod : a.toNat % 2 ^ 16 * (b.toNat % 2 ^ 17) < 2 ^ 16 * 2 ^ 17 :=
    Nat.mul_lt_mul'' (Nat.mod_lt _ (by decide)) (Nat.mod_lt _ (by decide))
  exact Nat.mod_eq_of_lt (by omega)

/-- POPCNT counts at most 32, which the word holds. -/
theorem alu_popcnt : (alu 0x17 a b d).res.toNat = (List.range 32).countP fun i => a.getLsbD i := by
  have hle : (List.range 32).countP (fun i => a.getLsbD i) ≤ 32 := List.countP_le_length
  exact Nat.mod_eq_of_lt (by omega)

/-- FFS is the index of the lowest 1 bit. -/
theorem alu_ffs : (a.toNat = 0 → (alu 0x18 a b d).res.toNat = 32) ∧
    (a.toNat ≠ 0 → (alu 0x18 a b d).res.toNat < 32 ∧ a.getLsbD (alu 0x18 a b d).res.toNat = true ∧
      ∀ i, i < (alu 0x18 a b d).res.toNat → a.getLsbD i = false) := by
  constructor
  · intro ha
    obtain rfl : a = 0 := BitVec.eq_of_toNat_eq ha
    exact congrArg (· % 2 ^ 32) lowestOne_zero
  · intro ha
    have hlow := lowestOne_of_ne_zero (a := a) fun hzero => ha (congrArg BitVec.toNat hzero)
    have hres : (alu 0x18 a b d).res.toNat = lowestOne a := Nat.mod_eq_of_lt (hlow.1.trans (by decide))
    rwa [hres]

/-- CSUM16 adds the carry of its 16-bit sum back in. -/
theorem alu_csum16 :
    (alu 0x19 a b d).res.toNat = (if a.toNat % 65536 + b.toNat % 65536 < 65536 then a.toNat % 65536 + b.toNat % 65536
      else a.toNat % 65536 + b.toNat % 65536 - 65535) ∧
    ((alu 0x19 a b d).carry = true ↔ 65536 ≤ a.toNat % 65536 + b.toNat % 65536) := by
  refine ⟨?_, decide_eq_true_iff⟩
  change (BitVec.ofNat 32 (if 2 ^ 16 ≤ a.toNat % 2 ^ 16 + b.toNat % 2 ^ 16 then
    a.toNat % 2 ^ 16 + b.toNat % 2 ^ 16 - 2 ^ 16 + 1 else a.toNat % 2 ^ 16 + b.toNat % 2 ^ 16)).toNat = _
  rw [BitVec.toNat_ofNat]
  split <;> split <;> omega

end

/-! ### Reserved opcodes -/

/-- A word with a reserved ALU opcode holds a reserved encoding. -/
theorem wordReserved_of_aluOp {w j : Nat} (hj : j < 4) (hop : 0x1A ≤ (aluField w j).op) : wordReserved w = true := by
  have hany : (List.range 4).any (fun j => decide (0x1A ≤ (aluField w j).op)) = true :=
    List.any_eq_true.mpr ⟨j, List.mem_range.mpr hj, decide_eq_true hop⟩
  simp only [wordReserved, hany, Bool.or_true, Bool.true_or]

/-- A word with a reserved encoding is refused under reason 6, unless it breaks a word rule (reason 5, the lower one). -/
theorem wordReason_of_reserved {w : Nat} (st : Nat) (hres : wordReserved w = true) :
    wordReason w st = if wordBreaks w st then some 5 else some 6 := by
  simp only [wordReason, hres, if_true]

/-- Settles O12: each opcode's result and carry, HASH's check value, and the refusal of the reserved opcodes. -/
theorem aluOperations : Obligations.AluOperations := by
  refine ⟨fun a b d => ?_, by decide +kernel, fun w st j hj hop => ?_, fun w st j hj hop hrules => ?_⟩
  · exact ⟨⟨rfl, fun _ => alu_nop_of_pos a b d⟩, rfl, alu_add a b d, alu_sub a b d, alu_adds a b d, alu_subs a b d,
      alu_bitwise a b d, alu_shl a b d, alu_shr a b d, fun _ => alu_rol a b d, alu_min_max a b d, alu_compare a b d,
      alu_bfx a b d, alu_hash a b d, fun _ => alu_bfi a b d, alu_scale a b d, alu_popcnt a b d, alu_ffs a b d,
      alu_csum16 a b d, fun _ => alu_carry_false a b d⟩
  · rw [wordReason_of_reserved st (wordReserved_of_aluOp hj hop)]
    split
    · exact .inl rfl
    · exact .inr rfl
  · rw [wordReason_of_reserved st (wordReserved_of_aluOp hj hop), hrules]
    rfl

end Sys2Proof.Machine
end

section
/-!
SUPPORT. Learns and the messages between dies (R269, R274 to R283): the outcome of each command on its case.
-/
namespace Sys2Proof.Machine

/-- The entry that a waiting learn asks for on its die (R274). -/
def CatLearn.entry (l : CatLearn) (d : Nat) : CatEnt := ⟨d, 0, l.wide, l.key, l.data, false, true, d, true, false⟩

/-- The entry that a learn message asks for on a die: its home is the sender (R282). -/
def CatMsg.entry (m : CatMsg) (d : Nat) : CatEnt :=
  ⟨d, 0, m.wide, m.key, m.data, m.static, !m.software, m.src, false, false⟩

/-- A waiting learn is taken and applied: for a key without an entry no record stands in its way (R274). -/
def Core.learnTaken (k : Core) (d : Nat) (l : CatLearn) : Core × Bool :=
  let k0 := { k with tables := { k.tables with learns := k.tables.learns.erase l } }
  (if (k0.catFind d l.wide l.key).isSome then k0 else k0.catForget d l.wide l.key).catApply (l.entry d) false l.time

section
variable {k k1 : Core} {d : Nat} {l : CatLearn} (hl : k.tables.learns.find? (·.die == d) = some l)
include hl

/-- A learn that is placed or contested is counted and announced where its entry then stands (R278). -/
theorem Core.hwLearn_applied (happ : k.learnTaken d l = (k1, true)) :
    k.hwLearn d =
      if ((k1.catFind d l.wide l.key).any fun x => x.home == d && x.data == l.data) = true then
        ((k1.bump R.CAT_LRN_CNT (dw d) 0 0 1).count (dw d) 2 2 0 1).catSend (learnMsg (l.entry d) false l.time)
      else k1 := by
  rw [Core.learnTaken, apply_ite fun k : Core => k.catApply (l.entry d) false l.time] at happ
  simp only [CatLearn.entry] at happ ⊢
  simp only [Core.hwLearn, hl, happ]

/-- A learn without a place is dropped and counted, and raises the event (R278). -/
theorem Core.hwLearn_full (happ : k.learnTaken d l = (k1, false)) :
    k.hwLearn d = (k1.bump R.CAT_LRN_FULL_CNT (dw d) 0 0 1).raise (dw d) 0x20 1 := by
  rw [Core.learnTaken, apply_ite fun k : Core => k.catApply (l.entry d) false l.time] at happ
  simp only [CatLearn.entry] at happ
  simp only [Core.hwLearn, hl, happ]

end

/-- The oldest message that waits, when it names no die, is copied to every peer of its sender (R279). -/
theorem Core.catForward_toPeers {k : Core} {m : CatMsg} (hm : k.tables.msgs.find? (·.atSender) = some m)
    (hdst : m.dst = none) :
    k.catForward = { k with tables := { k.tables with
      msgs := k.tables.msgs.erase m ++ (k.peers m.src).map fun x => { m with atSender := false, dst := some x } } } := by
  simp only [Core.catForward, hm, hdst]

section
variable {k k1 : Core} {d : Nat} {m : CatMsg} (hm : k.catInbox d = some m)
include hm

/-- A learn message that is placed or contested is counted, and a software one acknowledged (R269, R282). -/
theorem Core.learnApply_applied (hkind : m.kind = .learn)
    (happ : (k.catTake m).catApply (m.entry d) m.software m.time = (k1, true)) :
    k.learnApply d = if m.software then (k1.count (dw d) 2 3 0 1).catAck m.src d m.wide m.key false
      else k1.count (dw d) 2 3 0 1 := by
  simp only [CatMsg.entry] at happ
  simp only [Core.learnApply, hm, if_pos hkind, happ]

/-- A learn message without a place goes back to its home as a reject (R277). -/
theorem Core.learnApply_rejected (hkind : m.kind = .learn)
    (happ : (k.catTake m).catApply (m.entry d) m.software m.time = (k1, false)) :
    k.learnApply d = k1.catSend { m with kind := .reject, src := d, atSender := true, dst := some m.src } := by
  simp only [CatMsg.entry] at happ
  simp only [Core.learnApply, hm, if_pos hkind, happ]

/-- The home of a rejected learn deletes its entry everywhere, counts it, and reports by origin (R277). -/
theorem Core.learnReject_reject (hkind : m.kind = .reject) :
    let k1 := ((((k.catTake m).catRemove d m.wide m.key).catForget d m.wide m.key).bump R.CAT_LRN_FULL_CNT
      (dw d) 0 0 1).catSend (deleteMsg d m.wide m.key m.software)
    k.learnReject d = if m.software then k1.catRejected d m.wide m.key else k1.raise (dw d) 0x20 1 := by
  simp only [Core.learnReject, hm, if_pos hkind]

end

/-- Settles O18: each command's meaning on its case; a learn is applied, or has no place. -/
theorem learnMessages : Obligations.LearnMessages := by
  intro s d l m hlive
  have hlearn := completes_onCore (c := .hwLearn d) _ hlive rfl
  have hforward := completes_onCore (c := .learnMessageForward) _ hlive rfl
  have happly := completes_onCore (c := .learnMessageApply d) _ hlive rfl
  have hreject := completes_onCore (c := .learnReject d) _ hlive rfl
  refine ⟨fun hl => ?_, fun hm hdst => ?_, fun hm hkind => ?_, fun hm hkind => ?_⟩
  · dsimp only
    split
    case h_1 k1 happ => rwa [Core.hwLearn_applied hl happ] at hlearn
    case h_2 k1 happ => rwa [Core.hwLearn_full hl happ] at hlearn
  · rwa [Core.catForward_toPeers hm hdst] at hforward
  · dsimp only
    split
    case h_1 k1 happ => rwa [Core.learnApply_applied hm hkind happ] at happly
    case h_2 k1 happ => rwa [Core.learnApply_rejected hm hkind happ] at happly
  · rwa [Core.learnReject_reject hm hkind] at hreject

end Sys2Proof.Machine
end

section
/-!
SUPPORT. Hardware deletes, touches and the sweeper (R284 to R289, R314): the outcome of each command on its case.
-/
namespace Sys2Proof.Machine

/-- After a removal a lookup of the key finds nothing. -/
theorem Core.catFind_catRemove (k : Core) (d : Nat) (wide : Bool) (key : Nat) :
    (k.catRemove d wide key).catFind d wide key = none := by
  rw [Core.catFind, Core.catRemove, List.find?_eq_none]
  intro e he
  simpa only [Bool.not_eq_true, Bool.not_eq_true'] using (List.mem_filter.mp he).2

section
variable {k : Core} {d : Nat} {m : CatMsg} (hm : k.catInbox d = some m)
include hm

/-- A software delete removes the entry whatever its home, and the key's record, and is acknowledged (R269, R284). -/
theorem Core.deleteApply_software (hkind : m.kind = .delete) (hsoft : m.software = true) :
    k.deleteApply d = (((k.catTake m).catRemove d m.wide m.key).catForget d m.wide m.key).catAck m.src d m.wide m.key
      true := by
  simp only [Core.deleteApply, hm, hkind, hsoft, if_true]

/-- A hardware delete removes an entry only of its sender's, and counts as stale otherwise (R284). -/
theorem Core.deleteApply_hardware {e : CatEnt} (hkind : m.kind = .delete) (hsoft : m.software = false)
    (he : (k.catTake m).catFind d m.wide m.key = some e) :
    k.deleteApply d = if e.home = m.src then (k.catTake m).catRemove d m.wide m.key
      else (k.catTake m).bump R.CAT_STALE_DEL_CNT (dw d) 0 0 1 := by
  simp only [Core.deleteApply, hm, hkind, hsoft, he, if_true, Bool.false_eq_true, if_false]

/-- A touch sets the hit bit of the entry it names (R286). -/
theorem Core.touchApply_found {e : CatEnt} (hkind : m.kind = .touch) (he : k.catFind d m.wide m.key = some e) :
    k.touchApply d = (k.catTake m).catPut { e with hit := true } := by
  simp only [Core.touchApply, hm, hkind, he, if_true]

end

/-- The oldest queued touch goes to the entry's home, which is not fenced (R286, R314). -/
theorem Core.touchSend_oldest {k : Core} {d : Nat} {t : Nat × Nat × Bool × Nat}
    (ht : k.tables.touches.find? (·.1 == d) = some t) (hhome : k.fenced t.2.1 = false) :
    k.touchSend d = { k with tables := { k.tables with touches := k.tables.touches.erase t } }.catSend
      ⟨.touch, d, t.2.2.1, t.2.2.2, 0, false, false, 0, true, some t.2.1⟩ := by
  have hfenced (ts) : Core.fenced { k with tables := ts } t.2.1 = false := hhome
  simp only [Core.touchSend, ht, hfenced, Bool.false_eq_true, if_false]

/-- On a die that sweeps and is not paused a pass visits every entry of the die (R287). -/
theorem completes_sweepPass {s : State} (hlive : s.core.live = true) {d : Fin 8}
    (hen : s.core.rd R.CAT_SWEEP_CFG_EN (dw d) 0 0 = 1) (hpaused : s.core.rd R.CAT_STATUS_SWEEP_PAUSED (dw d) 0 0 = 0)
    (prevail : List (Fin 262176)) :
    Completes (.sweepPass d prevail) s (s.core.sweep d (prevail.map (·.val))) := by
  have hpass := completes_onCore (c := .sweepPass d prevail) _ hlive rfl
  simpa only [if_pos (And.intro hen hpaused)] using hpass

/-! ### What the sweeper does to one entry -/

/-- A static entry stays (R287). -/
theorem Core.sweepEnt_static (k : Core) (prevail : List Nat) {e : CatEnt} (hstatic : e.static = true) :
    k.sweepEnt prevail e = k := by
  simp only [Core.sweepEnt, hstatic, true_or, if_true]

section
variable {k : Core} {e : CatEnt} (hhome : e.home = e.die) (hfenced : k.fenced e.die = false) (hstatic : e.static = false)
  (prevail : List Nat)
include hhome hfenced hstatic

/-- An entry that was hit loses its hit bit and its mark (R287). -/
theorem Core.sweepEnt_hit (hhit : e.hit = true) :
    k.sweepEnt prevail e = k.catPut { e with hit := false, mark := false } := by
  simp [Core.sweepEnt, hhome, hfenced, hstatic, hhit]

/-- One not hit since the last pass is marked (R287). -/
theorem Core.sweepEnt_unmarked (hhit : e.hit = false) (hmark : e.mark = false) :
    k.sweepEnt prevail e = k.catPut { e with mark := true } := by
  simp [Core.sweepEnt, hhome, hfenced, hstatic, hhit, hmark]

/-- A marked one survives by a hit in the removal cycle itself (R289, R314). -/
theorem Core.sweepEnt_prevails (hhit : e.hit = false) (hmark : e.mark = true) (hidx : e.idx ∈ prevail) :
    k.sweepEnt prevail e = k.catPut { e with hit := true } := by
  simp [Core.sweepEnt, hhome, hfenced, hstatic, hhit, hmark, hidx]

/-- Without one it is deleted, counted and announced (R287, R288). -/
theorem Core.sweepEnt_aged (hhit : e.hit = false) (hmark : e.mark = true) (hidx : e.idx ∉ prevail) :
    k.sweepEnt prevail e = ((k.catRemove e.die e.wide e.key).bump R.CAT_AGE_DEL_CNT (dw e.die) 0 0 1).catSend
      (deleteMsg e.die e.wide e.key false) := by
  simp [Core.sweepEnt, hhome, hfenced, hstatic, hhit, hmark, hidx]

end

/-- Settles O19: each command's meaning on its case, and the sweeper's five cases of one entry. -/
theorem deletesTouchesSweeps : Obligations.DeletesTouchesSweeps := by
  refine ⟨fun s d m e t prevail hlive => ?_, fun k e prevail hhome hfenced => ?_⟩
  · have hdelete := completes_onCore (c := .deleteMessageApply d) _ hlive rfl
    have hsend := completes_onCore (c := .touchSend d) _ hlive rfl
    have htouch := completes_onCore (c := .touchApply d) _ hlive rfl
    refine ⟨fun hm hkind hsoft => ?_, fun hm hkind hsoft he => ?_, fun ht hhome => ?_, fun hm hkind he => ?_,
      completes_onCore (c := .learnRecordExpire d) _ hlive rfl, fun hen hpaused => completes_sweepPass hlive hen hpaused _⟩
    · rwa [Core.deleteApply_software hm hkind hsoft] at hdelete
    · rwa [Core.deleteApply_hardware hm hkind hsoft he] at hdelete
    · rwa [Core.touchSend_oldest ht hhome] at hsend
    · rwa [Core.touchApply_found hm hkind he] at htouch
  · refine ⟨k.sweepEnt_static prevail, (Core.sweepEnt_hit hhome hfenced · prevail),
      (Core.sweepEnt_unmarked hhome hfenced · prevail), (Core.sweepEnt_prevails hhome hfenced · prevail),
      fun hstatic hhit hmark hidx => ?_⟩
    have haged := Core.sweepEnt_aged hhome hfenced hstatic prevail hhit hmark hidx
    exact ⟨haged, haged ▸ k.catFind_catRemove e.die e.wide e.key⟩

end Sys2Proof.Machine
end

section
/-!
SUPPORT. Placing an entry (R256 to R260): the moves that make room change nothing of the entries but their places, so a placed
entry is found and no other is lost.
-/
namespace Sys2Proof.Machine

/-! ### Entries that have only moved -/

/-- An entry but for its place. -/
def CatEnt.unplaced (e : CatEnt) : CatEnt := { e with idx := 0 }

/-- The second list holds the entries of the first, in their order, each perhaps at another place. -/
def Moved (es es' : List CatEnt) : Prop := es'.map CatEnt.unplaced = es.map CatEnt.unplaced

/-- A move changes places alone (R260). -/
theorem moved_moveEnt (es : List CatEnt) (d src tgt : Nat) : Moved es (moveEnt es d src tgt) := by
  rw [Moved, moveEnt, List.map_map]
  refine List.map_congr_left fun e _ => ?_
  rw [Function.comp_apply]
  split <;> rfl

/-- Every way to make room only moves entries: one move after those that free its target, at any depth. -/
theorem moved_of_mem_makeRoom (bk : CatEnt → Nat × Nat) (d fuel : Nat) {budget : Nat} {ban : List Nat} {es : List CatEnt}
    {i : Nat} {wide : Bool} {q : List CatEnt × Nat} (hq : q ∈ makeRoom bk d fuel budget ban es i wide) : Moved es q.1 := by
  induction fuel generalizing budget ban es i wide q with
  | zero =>
    rw [makeRoom, List.mem_ite_nil_right, List.mem_singleton] at hq
    rw [hq.2, Moved]
  | succ fuel ih =>
    revert q
    rw [makeRoom]
    refine List.foldlRecOn (motive := fun ways => ∀ {q : List CatEnt × Nat}, q ∈ ways → Moved es q.1) _ _ (fun {q} hq => ?_)
      fun ways hways e _ q hq => ?_
    · rw [List.mem_singleton.mp hq, Moved]
    · obtain ⟨⟨es1, left⟩, hstart, hq⟩ := List.mem_flatMap.mp hq
      dsimp only at hq
      split at hq
      · exact absurd hq List.not_mem_nil
      · obtain ⟨p, -, hq⟩ := List.mem_flatMap.mp hq
        obtain ⟨q', hdeep, rfl⟩ := List.mem_map.mp hq
        exact (moved_moveEnt ..).trans ((ih hdeep).trans (hways hstart))

/-- Finding a place only moves entries (R260). -/
theorem moved_of_findPlace {bk : CatEnt → Nat × Nat} {es es' : List CatEnt} {d p n : Nat} {b : Nat × Nat} {wide : Bool}
    (h : findPlace bk es d b wide = some (p, es', n)) : Moved es es' := by
  simp only [findPlace] at h
  split at h
  · cases h; rfl
  · split at h
    · next r hpath =>
      cases h
      obtain ⟨n, -, hpath⟩ := List.exists_of_findSome?_eq_some hpath
      obtain ⟨p, -, hpath⟩ := List.exists_of_findSome?_eq_some hpath
      obtain ⟨q, hq, heq⟩ := Option.map_eq_some_iff.mp hpath
      cases heq
      exact moved_of_mem_makeRoom bk d _ (List.mem_of_head? hq)
    · obtain ⟨p, -, heq⟩ := Option.map_eq_some_iff.mp h
      cases heq
      rfl

section
variable {es es' : List CatEnt} (h : Moved es es')
include h

/-- Each entry stands somewhere after the moves. -/
theorem Moved.exists_after {x : CatEnt} (hx : x ∈ es) : ∃ y ∈ es', y.unplaced = x.unplaced :=
  List.mem_map.mp (h ▸ List.mem_map_of_mem hx)

/-- A key that no entry had before the moves has none after them. -/
theorem Moved.find?_key_eq_none {d : Nat} {wide : Bool} {key : Nat}
    (hnone : es.find? (fun e => e.die == d && e.wide == wide && e.key == key) = none) :
    es'.find? (fun e => e.die == d && e.wide == wide && e.key == key) = none := by
  rw [List.find?_eq_none] at hnone ⊢
  intro y hy
  obtain ⟨x, hx, hxy⟩ := Moved.exists_after (Eq.symm h) hy
  rw [CatEnt.unplaced, CatEnt.unplaced, CatEnt.mk.injEq] at hxy
  obtain ⟨hdie, -, hwide, hkey, -⟩ := hxy
  rw [← hdie, ← hwide, ← hkey]
  exact hnone x hx

end

/-! ### Placing -/

/-- When the first entry that passes a test is replaced by another that passes it, the other is the first. -/
theorem find?_map_replace {p : CatEnt → Bool} {q : CatEnt → Prop} [DecidablePred q] {l : List CatEnt} {old e : CatEnt}
    (hfirst : l.find? p = some old) (hold : q old) (he : p e = true) :
    (l.map fun x => if q x then e else x).find? p = some e := by
  induction l with
  | nil => cases hfirst
  | cons x xs ih =>
    rw [List.map_cons]
    by_cases hq : q x
    · rw [if_pos hq, List.find?_cons_of_pos he]
    · rw [if_neg hq]
      have hp : ¬p x = true := by
        intro hp
        rw [List.find?_cons_of_pos hp, Option.some.injEq] at hfirst
        exact hq (hfirst ▸ hold)
      rw [List.find?_cons_of_neg hp] at hfirst ⊢
      exact ih hfirst

section
variable {k k' : Core} {e : CatEnt}

/-- An entry whose key has one replaces it at its place (R260). -/
theorem Core.catPlace_replaces {old : CatEnt} (hold : k.catFind e.die e.wide e.key = some old) :
    k.catPlace e = some (k.catPut { e with idx := old.idx, hit := old.hit, mark := old.mark }) := by
  simp only [Core.catPlace, hold]

/-- An entry with a new key comes behind the others, which have only moved (R260). -/
theorem Core.catPlace_adds (hnone : k.catFind e.die e.wide e.key = none) (hplace : k.catPlace e = some k') :
    ∃ es i, Moved k.tables.ents es ∧ k'.tables.ents = es ++ [{ e with idx := i }] := by
  simp only [Core.catPlace, hnone] at hplace
  obtain ⟨⟨i, es, n⟩, hfound, rfl⟩ := Option.map_eq_some_iff.mp hplace
  exact ⟨es, i, moved_of_findPlace hfound, rfl⟩

/-- A placed entry is found, but perhaps for its place, hit bit and mark (R256, R258). -/
theorem Core.catFind_of_catPlace (hplace : k.catPlace e = some k') :
    ∃ i hit mark, k'.catFind e.die e.wide e.key = some { e with idx := i, hit, mark } := by
  cases hfind : k.catFind e.die e.wide e.key with
  | some old =>
    rw [Core.catPlace_replaces hfind, Option.some.injEq] at hplace
    have hkey : (old.die = e.die ∧ old.wide = e.wide) ∧ old.key = e.key := by simpa using List.find?_some hfind
    obtain ⟨⟨hdie, -⟩, -⟩ := hkey
    obtain rfl := hplace
    exact ⟨old.idx, old.hit, old.mark, find?_map_replace hfind ⟨hdie, rfl⟩ (by simp)⟩
  | none =>
    obtain ⟨es, i, hmoved, hents⟩ := Core.catPlace_adds hfind hplace
    refine ⟨i, e.hit, e.mark, ?_⟩
    rw [Core.catFind, hents, List.find?_append, hmoved.find?_key_eq_none hfind]
    simp

end

/-- Settles O21: a new entry comes behind entries that have only moved, another replaces its key's. -/
theorem placingAnEntry : Obligations.PlacingAnEntry := by
  refine ⟨fun k k' e hplace => ?_, fun k k' e x hplace hnone hx => ?_⟩
  · obtain ⟨i, hit, mark, hfind⟩ := Core.catFind_of_catPlace hplace
    exact ⟨_, hfind, rfl, rfl, rfl⟩
  · obtain ⟨es, i, hmoved, hents⟩ := Core.catPlace_adds hnone hplace
    obtain ⟨y, hy, hxy⟩ := hmoved.exists_after hx
    rw [CatEnt.unplaced, CatEnt.unplaced, CatEnt.mk.injEq] at hxy
    obtain ⟨hdie, -, hwide, hkey, hdata, -⟩ := hxy
    exact ⟨y, hents ▸ List.mem_append_left _ hy, hdie, hwide, hkey, hdata⟩

end Sys2Proof.Machine
end

section
/-!
SUPPORT. The Catalogue's command engine (R265 to R270, R294, R295, R311): the deep commands, the responses and the deep
configuration.
-/
namespace Sys2Proof.Machine

/-! ### The memory tier leaves the tables -/

/-- A read of a region leaves the tables. -/
@[simp] theorem Core.regionRead_tables (k : Core) (r n : Nat) : (k.regionRead r n).tables = k.tables := by
  rw [Core.regionRead, Core.count_tables, Core.add64Sat, Core.onIo_tables]

/-- So does the reading of a line. -/
@[simp] theorem Core.readLine_tables (k : Core) (r n : Nat) : (k.readLine r n).1.tables = k.tables := by
  have hread : ((k.spend r 64).regionRead r 64).tables = k.tables := Core.regionRead_tables ..
  rw [Core.readLine]
  split
  · rw [Core.regionPoison, Core.count_tables, Core.raise_tables, Core.bump_tables, hread]
  · exact hread

/-- So do bytes written to a region. -/
@[simp] theorem Core.regionWrote_tables (k : Core) (r n : Nat) : (k.regionWrote r n).tables = k.tables := by
  rw [Core.regionWrote]
  exact foldl_keeps Core.tables (fun k p => by rw [Core.count_tables, Core.add64Sat, Core.onIo_tables]) _ k

/-- So does the writing of a line. -/
@[simp] theorem Core.writeLine_tables (k : Core) (r n v : Nat) : (k.writeLine r n v).tables = k.tables :=
  Core.regionWrote_tables (k.spend r 64) r 64

/-- So does the poisoning of lines. -/
@[simp] theorem Core.poisonPair_tables (k : Core) (ls : Nat × Nat) (which : Nat) :
    (k.poisonPair ls which).tables = k.tables := by
  simp only [Core.poisonPair]
  split <;> split <;> rfl

/-! ### Deep commands -/

/-- The core after a deep command has read its two lines. -/
def Core.deepRead (k : Core) (c : CatCmd) : Core :=
  let ls := k.deepLines c.die c.key
  let r1 := (k.poisonPair ls c.poisoned).readLine 1 ls.1
  let r2 := r1.1.readLine 1 ls.2
  if r1.2.2 ∨ r2.2.2 then r2.1.raise (dw c.die) 0x23 1 else r2.1

/-- The two reads leave the tables. -/
theorem Core.deepRead_tables (k : Core) (c : CatCmd) : (k.deepRead c).tables = k.tables := by
  simp only [Core.deepRead, apply_ite Core.tables, Core.raise_tables, Core.readLine_tables, Core.poisonPair_tables, ite_self]

/-- A deep command changes nothing of the tables: it stops as it is, or with its lines read, or writes its entry behind the
moves that made room (R294). -/
theorem Core.runDeep_tables (k : Core) (c : CatCmd) : (k.runDeep c).1.tables = k.tables := by
  rw [← k.deepRead_tables c]
  have hread := k.deepRead_tables c
  generalize hk2 : k.deepRead c = k2 at hread ⊢
  simp only [Core.deepRead] at hk2
  simp only [Core.runDeep, hk2]
  split
  case isTrue => exact hread.symm
  split
  case isTrue => rfl
  split
  case h_1 | h_2 | h_4 => rfl
  case h_3 => exact Core.writeLine_tables ..
  case h_5 =>
    split
    · rfl
    · exact Core.writeLine_tables ..
  case h_6 =>
    split
    · exact Core.writeLine_tables ..
    · split
      · rw [Core.writeLine_tables]
        split
        · rfl
        · exact Core.regionWrote_tables (k2.spend 1 _) ..
      · rfl

/-! ### The engine -/

/-- With no command queued the engine stands still. -/
theorem Core.catDrain_idle {k : Core} (hcmds : k.tables.cmds = []) (d n : Nat) : k.catDrain d n = k := by
  have hstep : k.catStep d = k := by simp only [Core.catStep, hcmds, List.find?_nil]
  induction n with
  | zero => rfl
  | succ n ih => rw [Core.catDrain, hstep, ih]

/-- The command at the head of a die's queue, a deep one that meets no correctable error, runs and posts its response: there is
room for it, and region 1's budget for its reads (R267, R613). -/
theorem Core.catStep_deep {k : Core} {d : Nat} {c : CatCmd} (hhead : k.tables.cmds.find? (·.die == d) = some c)
    (hdeep : c.deep = true) (hnew : c.started = false) (hces : c.ces = []) (hroom : k.tables.rsps.countP (·.die == d) < 16)
    (hbudget : k.deepOn d = false ∨ 128 ≤ k.tokens 1) :
    let k1 := { k with tables := { k.tables with cmds := k.tables.cmds.erase c } }
    k.catStep d = (k1.runDeep c).1.catRespond (k1.runDeep c).2 := by
  have hstart : ¬(c.started = true ∨ 16 ≤ k.tables.rsps.countP (·.die == d)) := by
    rw [hnew]
    simpa using hroom
  have hgo : ¬(c.deep = true ∧ k.deepOn d = true ∧ k.tokens 1 < 128) := by
    rintro ⟨-, hon, hshort⟩
    obtain hoff | henough := hbudget
    · rw [hoff] at hon
      exact Bool.false_ne_true hon
    · omega
  have hfound : k.cesFound (dw d) [] = k := rfl
  simp only [Core.catStep, hhead, if_neg hstart, if_neg hgo, if_pos hdeep, hces, hfound]

/-- A deep command written to an idle engine runs at once, and nothing waits behind it (R265, R269). -/
theorem Core.catSubmit_deep {k : Core} (hcmds : k.tables.cmds = []) (hrsps : k.tables.rsps = []) {c : CatCmd}
    (hdeep : c.deep = true) (hnew : c.started = false) (hces : c.ces = [])
    (hbudget : k.deepOn c.die = false ∨ 128 ≤ k.tokens 1) (m : Master) :
    k.catSubmit m c false = (k.runDeep c).1.catRespond (k.runDeep c).2 := by
  have hstep : Core.catStep { k with tables := { k.tables with cmds := [c] } } c.die =
      (k.runDeep c).1.catRespond (k.runDeep c).2 := by
    have hsame : { k with tables := { k.tables with cmds := [c].erase c } } = k := by
      rw [List.erase_cons_head, ← hcmds]
    have hrun := Core.catStep_deep (k := { k with tables := { k.tables with cmds := [c] } }) (d := c.die) (c := c)
      (by simp) hdeep hnew hces (by simp [hrsps]) hbudget
    simpa only [hsame] using hrun
  have hidle : ((k.runDeep c).1.catRespond (k.runDeep c).2).tables.cmds = [] := by
    rw [Core.catRespond, Core.raise_tables, Core.runDeep_tables, hcmds]
  have hcount : ¬16 ≤ k.tables.cmds.countP (·.die == c.die) := by simp [hcmds]
  rw [Core.catSubmit, if_neg Bool.false_ne_true, if_neg hcount, hcmds, List.nil_append, Core.catDrain, hstep,
    Core.catDrain_idle hidle]

section
variable {k : Core} {d : Nat}

/-- A command that every die has answered posts its response and leaves its queue, behind which nothing waits (R269, R270). -/
theorem Core.catPost_answered {c : CatCmd} (hcmds : k.tables.cmds = [c]) (hdie : c.die = d) (hstarted : c.started = true)
    (hanswered : k.catAnswered c = true) :
    k.catPost d = { k with tables := { k.tables with cmds := [] } }.catRespond
      { c.rsp (if c.rejected then 6 else 0) with removed := c.removed } := by
  have hhead : [c].find? (·.die == d) = some c := by simp [hdie]
  simp only [Core.catPost, hcmds, hhead, hstarted, hanswered, and_self, if_true, List.erase_cons_head]
  exact Core.catDrain_idle rfl _ _

/-! ### The configuration of the deep catalogue -/

/-- With EN at 0 a write that keeps it so sets SEED and a SIZE_LOG2 in range (R295). -/
theorem Core.deepCfg_set (hen : k.rd R.CAT_DEEP_CFG_EN (dw d) 0 0 = 0) (m : Master) {size : Nat} (hmin : 10 ≤ size)
    (hmax : size ≤ 24) (seed : Nat) :
    k.deepCfg m d false seed size =
      let k1 := ((k.wr R.CAT_DEEP_CFG_EN (dw d) 0 0 0).wr R.CAT_DEEP_CFG_SEED (dw d) 0 0 seed).wr
        R.CAT_DEEP_CFG_SIZE_LOG2 (dw d) 0 0 size
      { k1 with cxl := { k1.cxl with deepStuck := k1.cxl.deepStuck.filter (· != d) } } := by
  have hrange : ¬(size < 10 ∨ 24 < size) := by omega
  simp [Core.deepCfg, hen, hrange, b2n]

/-- A write that would set EN without region 1 is refused (R295). -/
theorem Core.deepCfg_noRegion (hen : k.rd R.CAT_DEEP_CFG_EN (dw d) 0 0 = 0) (hregion : k.rd R.CXL_REG_EN 0 0 1 = 0)
    (m : Master) (seed size : Nat) : k.deepCfg m d true seed size = k.cfgErr (dw d) 0x23 m 0x100 := by
  simp [Core.deepCfg, hen, hregion]

end

/-! ### The commands -/

/-- A deep command served on an idle engine runs on what the staging registers hold. -/
theorem completes_deep {i : Instr} {s : State} {m : Master} {d op tag : Nat} {noReplace : Bool} {poisoned : Fin 4}
    (hserves : Serves s m (dw d) 0x21 0x154 true) (hcmds : s.core.tables.cmds = []) (hrsps : s.core.tables.rsps = [])
    (hbudget : s.core.deepOn d = false ∨ 128 ≤ s.core.tokens 1)
    (hexec : exec i s = done (catCommand m d op tag true false false noReplace false false false [] s poisoned)) :
    let c := { s.core.catStage d op tag true false false noReplace false false with poisoned := poisoned.val }
    Completes i s ((s.core.runDeep c).1.catRespond (s.core.runDeep c).2) := by
  intro c
  rw [← Core.catSubmit_deep hcmds hrsps (c := c) rfl rfl rfl hbudget m]
  exact completes_write _ hserves hexec

/-- A pop on a die whose queue is empty discards the head response (R311). -/
theorem completes_catRspPop {s : State} {m : Master} {d : Fin 8} {r : CatRsp} (hserves : Serves s m (dw d) 0x21 0x15C true)
    (hcmds : s.core.tables.cmds = []) (hr : s.core.tables.rsps.find? (·.die == d.val) = some r) :
    Completes (.catRspPop m d) s
      { s.core with tables := { s.core.tables with rsps := s.core.tables.rsps.erase r } } := by
  have hpop := completes_write (c := .catRspPop m d) _ hserves rfl
  simp only [hr] at hpop
  rw [Core.catDrain_idle] at hpop
  · exact hpop
  · exact hcmds

/-- Settles O22: each command's meaning on its case. -/
theorem deepCommandsAndResponses : Obligations.DeepCommandsAndResponses := by
  intro s m d tag noReplace c r seed size poisoned
  refine ⟨fun hserves hcmds hrsps hbudget x hx => ?_, fun hlive hcmds hdie hstarted hanswered => ?_, completes_catRspPop,
    fun hserves hen hmin hmax => ?_, fun hserves hen hregion => ?_⟩
  · simp only [List.mem_cons, List.not_mem_nil, or_false] at hx
    obtain rfl | rfl | rfl := hx <;> exact completes_deep hserves hcmds hrsps hbudget rfl
  · have hpost := completes_onCore (c := .catCmdResponsePost d) _ hlive rfl
    rwa [Core.catPost_answered hcmds hdie hstarted hanswered] at hpost
  · have hwrite := completes_write (c := .deepCfgWrite m d false false seed size) _ hserves rfl
    rwa [if_neg Bool.false_ne_true, Core.deepCfg_set hen m hmin hmax] at hwrite
  · have hwrite := completes_write (c := .deepCfgWrite m d false true seed size) _ hserves rfl
    rwa [if_neg Bool.false_ne_true, Core.deepCfg_noRegion hen hregion] at hwrite

end Sys2Proof.Machine
end

section
/-!
SUPPORT. Priority flow control and the watchdog (R327, R329 to R335, R391): what each command makes of the core on its case.
-/
namespace Sys2Proof.Machine

/-! ### XOFF (R327) -/

section
variable (k : Core) (d l g : Nat)

/-- A lossless group out of XOFF enters it when its use reaches the limit or headroom is in use. -/
theorem Core.xoffEval_enters (hlossless : k.losslessPg d l g = true) (hout : k.inXoff d l g = false)
    (hfull : overLimit (k.ingS d l g) (k.td T.BUF_PG_ALPHA (dw d) 0 (l * 8 + g)) (k.freeCells d) = true ∨ 0 < k.ingH d l g) :
    k.xoffEval d l g =
      ((k.tw T.BUF_PORT_XOFF_TX (dw d) 0 l (k.td T.BUF_PORT_XOFF_TX (dw d) 0 l ||| 2 ^ g)).count (dw d) 3 2 (l / 32)
        1).pfcDue d l 0 :=
  if_pos ⟨hlossless, by simp [hout], hfull⟩

/-- A group in XOFF leaves it when no headroom is in use and its use is at most the limit less XON_OFS. -/
theorem Core.xoffEval_leaves (hin : k.inXoff d l g = true) (hhead : k.ingH d l g = 0)
    (hlow : underLimit (k.ingS d l g) (k.td T.BUF_PG_ALPHA (dw d) 0 (l * 8 + g)) (k.freeCells d)
      (k.td T.BUF_PG_XON_OFS (dw d) 0 (l * 8 + g)) = true) :
    k.xoffEval d l g =
      (k.tw T.BUF_PORT_XOFF_TX (dw d) 0 l (k.td T.BUF_PORT_XOFF_TX (dw d) 0 l -
        (k.td T.BUF_PORT_XOFF_TX (dw d) 0 l &&& 2 ^ g))).pfcDue d l (2 ^ g) := by
  simp only [Core.xoffEval, hin, hhead, hlow, not_true, false_and, and_false, and_self, if_true, if_false]

/-- Otherwise a group in XOFF stays there. -/
theorem Core.xoffEval_stays_in (hin : k.inXoff d l g = true)
    (hkeep : k.ingH d l g ≠ 0 ∨ underLimit (k.ingS d l g) (k.td T.BUF_PG_ALPHA (dw d) 0 (l * 8 + g)) (k.freeCells d)
      (k.td T.BUF_PG_XON_OFS (dw d) 0 (l * 8 + g)) = false) :
    k.xoffEval d l g = k := by
  rcases hkeep with h | h <;> simp [Core.xoffEval, hin, h]

/-- And one out of XOFF stays out. -/
theorem Core.xoffEval_stays_out (hout : k.inXoff d l g = false)
    (hkeep : k.losslessPg d l g = false ∨
      (overLimit (k.ingS d l g) (k.td T.BUF_PG_ALPHA (dw d) 0 (l * 8 + g)) (k.freeCells d) = false ∧ k.ingH d l g = 0)) :
    k.xoffEval d l g = k := by
  rcases hkeep with h | ⟨hfull, hhead⟩
  · simp [Core.xoffEval, hout, h]
  · simp [Core.xoffEval, hout, hfull, hhead]

end

/-- Settles O9: `Core.xoffEval` on its four cases. -/
theorem xoffEvaluation : Obligations.XoffEvaluation := by
  intro s d l g hlive hport
  have heval : Completes (.xoffEval d l g) s (s.core.xoffEval d l g) := by
    have hform := completes_onCore (c := .xoffEval d l g) _ hlive rfl
    rwa [if_pos hport] at hform
  refine ⟨fun hlossless hout hfull => ?_, fun hin hhead hlow => ?_, fun hin hkeep => ?_, fun hout hkeep => ?_⟩
  · rwa [Core.xoffEval_enters _ _ _ _ hlossless hout hfull] at heval
  · rwa [Core.xoffEval_leaves _ _ _ _ hin hhead hlow] at heval
  · rwa [Core.xoffEval_stays_in _ _ _ _ hin hkeep] at heval
  · rwa [Core.xoffEval_stays_out _ _ _ _ hout hkeep] at heval

/-! ### PFC frames and pauses (R329, R331 to R333) -/

section
variable {s : State} {d : Fin 8} {l : Fin 256} (hlive : s.core.live = true)
include hlive

/-- A frame that is due leaves once no frame of the port is in transmission, and is no longer due (R329, R331). -/
theorem completes_pfcFrameSend {left : Nat}
    (hdue : s.core.buf.pfcDue.find? (·.1 == d.val * 256 + l.val) = some (d.val * 256 + l.val, left))
    (hup : s.core.linkUp d l = true) (hfree : s.core.sendingOn d l = false) (hready : s.core.macReady d l = true) :
    Completes (.pfcFrameSend d l) s
      ({ s.core with buf := { s.core.buf with
          pfcDue := s.core.buf.pfcDue.filter (·.1 != d.val * 256 + l.val) } }.pfcSend d l left) := by
  have hsent := completes_onCore (c := .pfcFrameSend d l) _ hlive rfl
  simpa only [hdue, hup, hfree, hready, Bool.false_eq_true, not_true, or_self, false_and, if_true, if_false] using hsent

/-- While a group is in XOFF the port repeats its frame (R332). -/
theorem completes_pfcRepeat (hxoff : s.core.td T.BUF_PORT_XOFF_TX (dw d) 0 l ≠ 0)
    (hen : s.core.td T.BUF_PORT_PFC_TX_EN (dw d) 0 l = 1) (hup : s.core.linkUp d l = true)
    (hfree : s.core.sendingOn d l = false) (hready : s.core.macReady d l = true) :
    Completes (.pfcRepeat d l) s (s.core.pfcSend d l 0) := by
  have hsent := completes_onCore (c := .pfcRepeat d l) _ hlive rfl
  rwa [if_pos ⟨by simp [hfree], hready, hxoff, hen, hup⟩] at hsent

/-- A MAC control frame takes effect after its statistics (R333, R761). -/
theorem completes_macControlReceive {frame : List Byte} (hreceives : s.core.receives d l = true)
    (hready : s.core.macReady d l = true) (hmin : 64 ≤ frame.length) (hfcs : fcsGood frame = true)
    (hctl : getBe frame 12 2 = 0x8808) :
    Completes (.macControlReceive d l frame) s
      (((s.core.pstat d l 10 frame.length).rxStats d l frame false true).macControl d l frame) := by
  have hreceived := completes_onCore (c := .macControlReceive d l frame) _ hlive rfl
  rwa [if_pos ⟨hreceives, hready, hmin, hfcs, hctl⟩] at hreceived

/-- A pause whose time has run out ends, for its priority alone (R333). -/
theorem completes_pfcPauseExpire {g : Fin 8}
    (hpaused : s.core.buf.pauseEnd.get ((d.val * 256 + l.val) * 8 + g.val) ≠ 0)
    (hover : s.core.buf.pauseEnd.get ((d.val * 256 + l.val) * 8 + g.val) - 1 ≤ s.core.time.now) :
    let k := s.core.notePaused d l g
    let mask := s.core.td T.BUF_PORT_PAUSED_RX (dw d) 0 l
    Completes (.pfcPauseExpire d l g) s
      (({ k with buf := { k.buf with
          pauseEnd := s.core.buf.pauseEnd.set ((d.val * 256 + l.val) * 8 + g.val) 0 } }.tw T.BUF_PORT_PAUSED_RX (dw d) 0 l
        (mask - (mask &&& 2 ^ g.val))).watchPort d l) := by
  have hended := completes_onCore (c := .pfcPauseExpire d l g) _ hlive rfl
  rwa [if_neg (not_or.mpr ⟨hpaused, Nat.not_lt.mpr hover⟩)] at hended

end

/-! ### The watchdog (R335, R391) -/

/-- A back-pressure queue whose pause still runs, that holds copies and has sent nothing for BUF_WDOG_CFG.MS enters discard. -/
theorem Core.watchdogDiscard_enters {k : Core} {d l q : Nat} (hen : k.rd R.BUF_WDOG_CFG_EN (dw d) 0 0 = 1)
    (hmarking : k.marking d l q = false) (hout : k.wdogDiscard d l q = false) (hpause : k.pauseRuns d l q = true)
    (hholds : k.queueHolds d l q = true) (hstuck : k.buf.stuckSince.get ((d * 256 + l) * 16 + q) ≠ 0)
    (hlong : k.buf.stuckSince.get ((d * 256 + l) * 16 + q) - 1 + k.rd R.BUF_WDOG_CFG_MS (dw d) 0 0 * 1000000 ≤ k.time.now) :
    k.watchdogDiscard d l q =
      (((((k.tw T.BUF_PORT_WDOG_DISCARD (dw d) 0 l (k.td T.BUF_PORT_WDOG_DISCARD (dw d) 0 l ||| 2 ^ q)).flushQueue d l
        q).stopEval d l q).bump R.BUF_WDOG_CNT (dw d) 0 0 1).raise (dw d) 0x28 1) :=
  if_pos ⟨hen, by simp [hmarking], by simp [hout], hpause, hholds, hstuck, hlong⟩

/-- A queue leaves discard when none of its priorities has been paused for BUF_WDOG_CFG.MS. -/
theorem completes_watchdogExit {s : State} {d : Fin 8} {l : Fin 256} {q : Fin 16} (hlive : s.core.live = true)
    (hin : s.core.wdogDiscard d l q = true) (hfree : s.core.paused d l q = false)
    (hlong : s.core.buf.lastPaused.get ((d.val * 256 + l.val) * 16 + q.val) - 1 +
      s.core.rd R.BUF_WDOG_CFG_MS (dw d) 0 0 * 1000000 ≤ s.core.time.now) :
    let mask := s.core.td T.BUF_PORT_WDOG_DISCARD (dw d) 0 l
    Completes (.watchdogExit d l q) s
      ((s.core.tw T.BUF_PORT_WDOG_DISCARD (dw d) 0 l (mask - (mask &&& 2 ^ q.val))).stopEval d l q) := by
  have hleft := completes_onCore (c := .watchdogExit d l q) _ hlive rfl
  rwa [if_pos ⟨hin, by simp [hfree], hlong⟩] at hleft

/-- Settles O15: each command's meaning on its case. -/
theorem flowControl : Obligations.FlowControl := by
  refine ⟨fun s d l g frame left hlive => ⟨completes_pfcFrameSend hlive, completes_pfcRepeat hlive,
    completes_macControlReceive hlive, completes_pfcPauseExpire hlive⟩, fun s d l q hlive => ⟨?_, completes_watchdogExit hlive⟩⟩
  intro hen hmarking hout hpause hholds hstuck hlong
  have hdiscard := completes_onCore (c := .watchdogDiscard d l q) _ hlive rfl
  rwa [Core.watchdogDiscard_enters hen hmarking hout hpause hholds hstuck hlong] at hdiscard

end Sys2Proof.Machine
end

section
/-!
SUPPORT. The local transfer, stop messages and spilling (R341, R343, R347, R374, R616): what each command makes of the core on
its case.
-/
namespace Sys2Proof.Machine

/-! ### Local transfer and stops -/

/-- The copy that a destination pipeline takes next: of the first source, from the one whose turn it is, that has a local VOQ
with an eligible copy for it (R343, R347). -/
def Core.localNext (k : Core) (d p : Nat) : Option Copy :=
  ((List.range 8).map fun i => (k.buf.localTurn.get (8 * d + p) + i) % 8).findSome? fun src =>
    (k.localOrder (8 * d + p) src).findSome? fun tc => k.voqHead d src (8 * d + p) tc

/-- The copy leaves its VOQ, and the turn passes to the next source and to the TC behind the copy's. -/
def Core.localTaken (k : Core) (d p : Nat) (c : Copy) : Core :=
  let k1 := k.voqServed c
  { k1 with buf := { k1.buf with
      voq := k1.buf.voq.filter (·.id != c.id)
      localTurn := k1.buf.localTurn.set (8 * d + p) ((c.pipe + 1) % 8)
      localTc := k1.buf.localTc.set ((8 * d + p) * 8 + c.pipe) (k1.tcOrder.idxOf c.tc + 1) } }

/-- A pipeline that has a copy to take takes it and enqueues it (R347). -/
theorem Core.localTransfer_takes {k k0 : Core} {d p : Nat} {lost : Option (Nat × Nat)} {ces : List (Fin 4096 × Fin 8)}
    (hread : k.voqsRead d ces (lost.map fun x => (x.1, 8 * d + p, x.2)) = k0) {c : Copy} (hnext : k0.localNext d p = some c)
    (ue : Bool) :
    k.localTransfer d p ue lost ces = (((k0.localTaken d p c).enqueue c ue).copyGone c.grp).settle c.grp := by
  rw [Core.localNext] at hnext
  simp only [Core.localTransfer, hread, hnext]
  rfl

/-- Settles O16: each command's meaning on its case. That the turn passes to the TC behind the copy's is the model's choice
(log 136). -/
theorem localTransferAndStops : Obligations.LocalTransferAndStops := by
  intro s d p v l q ue c lost ces hlive k0
  refine ⟨fun hnext => ?_, fun hviewer hdie hfence => ?_⟩
  · have hread : s.core.voqsRead d ces
        ((lost.map fun x => (x.1.val, x.2.val)).map fun x => (x.1, 8 * d.val + p.val, x.2)) = k0 := by
      rw [Option.map_map]
      rfl
    have htransfer := completes_onCore (c := .localTransfer d p ue lost ces) _ hlive rfl
    rwa [Core.localTransfer_takes hread hnext] at htransfer
  · have hseen := completes_onCore (c := .stopMessageReceive v d l q) _ hlive rfl
    rwa [if_pos ⟨hviewer, hdie, by simp [hfence]⟩] at hseen

/-! ### Spilling -/

section
variable {k : Core} {d l q : Nat}

/-- A queue with nothing spilled is evaluated by a fetch of it (R374). -/
theorem Core.spillFetch_none (hnone : k.buf.spilled.find? (fun c => c.port == d * 256 + l && c.queue == q) = none) :
    k.spillFetch d l q = k.queueEval d l q := by
  simp only [Core.spillFetch, hnone]

/-- The oldest spilled copy of a queue that holds fewer than 64 cells is fetched within the budget of region 2 and the fetch
reserve (R374). -/
theorem Core.spillFetch_fetches {c : Copy}
    (holdest : k.buf.spilled.find? (fun c => c.port == d * 256 + l && c.queue == q) = some c)
    (hcells : k.queueCells d l q < 64) (hregion : k.regionOn 2 = true)
    (hbudget : 256 * cellsOf c.frame.length ≤ k.tokens 2)
    (hreserve : k.reserveUsed d + cellsOf c.frame.length ≤ k.rd R.BUF_SPILL_RSV_FETCH_CELLS (dw d) 0 0) :
    k.spillFetch d l q =
      ({ k with buf := { k.buf with
          spilled := k.buf.spilled.filter (·.id != c.id)
          fetching := k.buf.fetching ++ [{ c with asked := k.time.now }] } }.spend 2
        (256 * cellsOf c.frame.length)).spillersEval := by
  simp only [Core.spillFetch, holdest]
  exact if_pos ⟨hcells, hregion, hbudget, hreserve⟩

end

section
variable (k : Core) (d : Nat) (c : Copy)

/-- The core when the fetch of a copy is answered: it is no longer on its way, its cells are no longer spilled, and the read of
region 2 is counted (R374, R616). -/
def Core.spillAnswered : Core :=
  (({ k with buf := { k.buf with fetching := k.buf.fetching.filter (·.id != c.id) } }.tw T.BUF_Q_SPILLED (dw d) 0
    (c.port % 256 * 16 + c.queue) (k.td T.BUF_Q_SPILLED (dw d) 0 (c.port % 256 * 16 + c.queue) -
      cellsOf c.frame.length)).answered 2 c.asked).regionRead 2 (256 * cellsOf c.frame.length)

variable {k d c} (holdest : k.buf.fetching.find? (·.die == d) = some c)
include holdest

/-- A poisoned return is dropped and counted (R616). -/
theorem Core.spillReturn_poisoned :
    k.spillReturn d true false =
      (((((k.spillAnswered d c).regionPoison 2).bump R.CXL_SPILL_POISON_CNT 0 0 0 1).noteIdle d (c.port % 256)
        c.queue).spillersEval) := by
  simp only [Core.spillReturn, holdest, Bool.false_eq_true, or_true, if_true, if_false]
  rfl

/-- A good return joins its queue from the reserve (R374). -/
theorem Core.spillReturn_good :
    k.spillReturn d false false =
      (((k.spillAnswered d c).takeId.2.addGrp { freshGrp (k.spillAnswered d c).takeId.1 d (cellsOf c.frame.length) 0 0 with
          ingress := none, reserve := true, waiting := 0 }).placeCopy d (c.port % 256) c.queue
        { c with grp := (k.spillAnswered d c).takeId.1 }).spillersEval := by
  simp only [Core.spillReturn, holdest, Bool.false_eq_true, or_self, if_false]
  rfl

end

/-- Settles O17: each command's meaning on its case. -/
theorem spilling : Obligations.Spilling := by
  intro s d l q c hlive
  have hfetch := completes_onCore (c := .spillFetch d l q) _ hlive rfl
  have hreturn (poisoned) := completes_onCore (c := .spillFetchReturn d poisoned) _ hlive rfl
  refine ⟨fun holdest hcells hregion hbudget hreserve => ?_, fun hnone => ?_, fun holdest => ⟨?_, ?_⟩⟩
  · rwa [Core.spillFetch_fetches holdest hcells hregion hbudget hreserve] at hfetch
  · rwa [Core.spillFetch_none hnone] at hfetch
  · exact Core.spillReturn_poisoned holdest ▸ hreturn true
  · exact Core.spillReturn_good holdest ▸ hreturn false

end Sys2Proof.Machine
end

section
/-!
SUPPORT. The crossbar's matching (R355, R356): the rotation is a matching, one iteration of grants and accepts adds a matching of
ports that are not matched yet, and the parcel time that is made of them changes nothing else of what the parcels wait in.
-/
namespace Sys2Proof.Machine

/-! ### Lists -/

/-- A list without its repetitions has none. -/
theorem nodup_eraseDups {α : Type} [BEq α] [LawfulBEq α] : ∀ l : List α, l.eraseDups.Nodup
  | [] => by rw [List.eraseDups_nil]; exact List.nodup_nil
  | a :: l => by
    rw [List.eraseDups_cons, List.nodup_cons]
    exact ⟨by simp [List.mem_eraseDups], nodup_eraseDups _⟩
termination_by l => l.length
decreasing_by exact Nat.lt_succ_of_le (List.length_filter_le ..)

/-- What a list without repetitions is mapped to has none in a part that gives the origin back. -/
theorem nodup_map_filterMap {α β : Type} {l : List α} (hl : l.Nodup) {f : α → Option β} {g : β → α}
    (hback : ∀ a b, f a = some b → g b = a) : ((l.filterMap f).map g).Nodup := by
  rw [List.map_filterMap]
  refine hl.filterMap fun a a' x hx hx' => ?_
  obtain ⟨b, hb, rfl⟩ := Option.map_eq_some_iff.mp hx
  obtain ⟨b', hb', hsame⟩ := Option.map_eq_some_iff.mp hx'
  rw [← hback a b hb, ← hsame, hback a' b' hb']

/-- The best of a list is of the list. -/
theorem mem_of_leastBy {α : Type} {key : α → Nat} {l : List α} {x : α} (h : leastBy key l = some x) : x ∈ l := by
  refine List.foldlRecOn (motive := fun b => ∀ x, b = some x → x ∈ l) l _ (by simp) (fun b hb a ha x hx => ?_) x h
  cases b with
  | none =>
    cases hx
    exact ha
  | some y =>
    dsimp only at hx
    split at hx
    · cases hx
      exact ha
    · exact hb x hx

/-! ### Matchings of requests -/

/-- The pairs are pairs of requests, and no port stands twice among the sources nor twice among the destinations. -/
structure Matches (rs : List Req) (ms : List (Nat × Nat)) : Prop where
  sources : (ms.map (·.1)).Nodup
  dests : (ms.map (·.2)).Nodup
  requested : ∀ m ∈ ms, ∃ r ∈ rs, m = (r.1, r.2.1)

/-- The rotation pairs each source with one destination: it is a matching of the requests, of which each pair of ports below `n`
has at most one (R355 step 1). -/
theorem matches_rotation {n t : Nat} {rs : List Req} (hpairs : (rs.map fun r => (r.1, r.2.1)).Nodup)
    (hports : ∀ r ∈ rs, r.1 < n) : Matches rs (rotation n t rs) := by
  have hmem : ∀ m ∈ rotation n t rs, m.1 < n ∧ m.2 = (m.1 + t) % n := by
    intro m hm
    obtain ⟨r, hr, rfl⟩ := List.mem_map.mp hm
    obtain ⟨hrs, hturn⟩ := List.mem_filter.mp hr
    have hn := hports r hrs
    rw [beq_iff_eq, Nat.max_eq_left (by omega)] at hturn
    exact ⟨hn, hturn⟩
  have hnodup : (rotation n t rs).Nodup := hpairs.sublist (List.filter_sublist.map _)
  refine ⟨hnodup.map_on fun m hm m' hm' h => ?_, hnodup.map_on fun m hm m' hm' h => ?_, fun m hm => ?_⟩
  · obtain ⟨-, hturn⟩ := hmem m hm
    obtain ⟨-, hturn'⟩ := hmem m' hm'
    exact Prod.ext h (by rw [hturn, hturn', h])
  · obtain ⟨hlt, hturn⟩ := hmem m hm
    obtain ⟨hlt', hturn'⟩ := hmem m' hm'
    have hsame : m.1 + t ≡ m'.1 + t [MOD n] := by rw [Nat.ModEq, ← hturn, ← hturn', h]
    exact Prod.ext ((hsame.add_right_cancel' t).eq_of_lt_of_lt hlt hlt') h
  · obtain ⟨r, hr, rfl⟩ := List.mem_map.mp hm
    exact ⟨r, List.mem_of_mem_filter hr, rfl⟩

/-- The grants of an iteration: each destination that an open request names grants one of its requesters (R355 step 3). -/
def grantsOf (n : Nat) (gp : SMap) (rs : List Req) : List Req :=
  ((rs.map (·.2.1)).eraseDups).filterMap fun j =>
    leastBy (fun r => (if r.2.2 then 0 else n) + (r.1 + n - gp.get j) % max n 1) (rs.filter (·.2.1 == j))

/-- No destination grants twice. -/
theorem nodup_dests_grantsOf (n : Nat) (gp : SMap) (rs : List Req) : ((grantsOf n gp rs).map (·.2.1)).Nodup :=
  nodup_map_filterMap (nodup_eraseDups _) fun j r hr => by
    obtain ⟨-, hdest⟩ := List.mem_filter.mp (mem_of_leastBy hr)
    exact beq_iff_eq.mp hdest

/-- A grant is of a request. -/
theorem mem_of_mem_grantsOf {n : Nat} {gp : SMap} {rs : List Req} {r : Req} (hr : r ∈ grantsOf n gp rs) : r ∈ rs := by
  obtain ⟨j, -, hj⟩ := List.mem_filterMap.mp hr
  exact List.mem_of_mem_filter (mem_of_leastBy hj)

/-- The accepts of an iteration: each source with a grant accepts one of them (R355 step 4). -/
def acceptsOf (n : Nat) (ap : SMap) (grants : List Req) : List (Nat × Nat) :=
  ((grants.map (·.1)).eraseDups).filterMap fun i =>
    (leastBy (fun r => (if r.2.2 then 0 else n) + (r.2.1 + n - ap.get i) % max n 1) (grants.filter (·.1 == i))).map
      fun r => (r.1, r.2.1)

/-- What a source accepts is a grant to it. -/
theorem acceptsOf_some {n : Nat} {ap : SMap} {grants : List Req} {i : Nat} {m : Nat × Nat}
    (hm : (leastBy (fun r : Req => (if r.2.2 then 0 else n) + (r.2.1 + n - ap.get i) % max n 1)
      (grants.filter (·.1 == i))).map (fun r => (r.1, r.2.1)) = some m) : m.1 = i ∧ ∃ r ∈ grants, m = (r.1, r.2.1) := by
  obtain ⟨r, hr, rfl⟩ := Option.map_eq_some_iff.mp hm
  obtain ⟨hgrant, hsource⟩ := List.mem_filter.mp (mem_of_leastBy hr)
  exact ⟨beq_iff_eq.mp hsource, r, hgrant, rfl⟩

/-- The accepts of grants of which no destination gives two are a matching: no source accepts twice. -/
theorem matches_acceptsOf {n : Nat} {ap : SMap} {grants : List Req} (hgrants : (grants.map (·.2.1)).Nodup) :
    Matches grants (acceptsOf n ap grants) := by
  have hrequested : ∀ m ∈ acceptsOf n ap grants, ∃ r ∈ grants, m = (r.1, r.2.1) := by
    intro m hm
    obtain ⟨i, -, hi⟩ := List.mem_filterMap.mp hm
    exact (acceptsOf_some hi).2
  have hsources : ((acceptsOf n ap grants).map (·.1)).Nodup :=
    nodup_map_filterMap (nodup_eraseDups _) fun i m hm => (acceptsOf_some hm).1
  refine ⟨hsources, hsources.of_map.map_on fun m hm m' hm' h => ?_, hrequested⟩
  obtain ⟨r, hr, rfl⟩ := hrequested m hm
  obtain ⟨r', hr', rfl⟩ := hrequested m' hm'
  rw [List.inj_on_of_nodup_map hgrants hr hr' h]

/-- One iteration is the accepts of the grants of the requests whose two ports are unmatched. -/
theorem grantAccept_eq (n : Nat) (gp ap : SMap) (rs : List Req) (ms : List (Nat × Nat)) :
    grantAccept n gp ap rs ms = acceptsOf n ap (grantsOf n gp (rs.filter (unmatched ms))) := rfl

/-- A request with no matched end shares no port with a pair of the matching. -/
theorem ne_of_unmatched {ms : List (Nat × Nat)} {r : Req} (hr : unmatched ms r = true) {m : Nat × Nat} (hm : m ∈ ms) :
    m.1 ≠ r.1 ∧ m.2 ≠ r.2.1 := by
  simp only [unmatched, Bool.not_eq_true', List.any_eq_false, Bool.or_eq_true, beq_iff_eq, not_or] at hr
  exact hr m hm

/-- A matching with an iteration's pairs added is a matching (R355 steps 2 to 5). -/
theorem Matches.grow {rs : List Req} {ms : List (Nat × Nat)} (h : Matches rs ms) (n : Nat) (gp ap : SMap) :
    Matches rs (ms ++ grantAccept n gp ap rs ms) := by
  rw [grantAccept_eq]
  generalize hnew : acceptsOf n ap (grantsOf n gp (rs.filter (unmatched ms))) = new
  have hadds : Matches _ new := hnew ▸ matches_acceptsOf (nodup_dests_grantsOf ..)
  have hopen : ∀ m ∈ new, ∃ r ∈ rs, m = (r.1, r.2.1) ∧ ∀ x ∈ ms, x.1 ≠ m.1 ∧ x.2 ≠ m.2 := by
    intro m hm
    obtain ⟨r, hr, rfl⟩ := hadds.requested m hm
    obtain ⟨hrs, hfree⟩ := List.mem_filter.mp (mem_of_mem_grantsOf hr)
    exact ⟨r, hrs, rfl, fun x hx => ne_of_unmatched hfree hx⟩
  refine ⟨?_, ?_, fun m hm => ?_⟩
  · rw [List.map_append]
    refine h.sources.append hadds.sources ?_
    simp only [List.disjoint_left, List.mem_map]
    rintro _ ⟨x, hx, rfl⟩ ⟨m, hm, hsame⟩
    obtain ⟨-, -, -, hapart⟩ := hopen m hm
    exact (hapart x hx).1 hsame.symm
  · rw [List.map_append]
    refine h.dests.append hadds.dests ?_
    simp only [List.disjoint_left, List.mem_map]
    rintro _ ⟨x, hx, rfl⟩ ⟨m, hm, hsame⟩
    obtain ⟨-, -, -, hapart⟩ := hopen m hm
    exact (hapart x hx).2 hsame.symm
  · rcases List.mem_append.mp hm with hm | hm
    · exact h.requested m hm
    · obtain ⟨r, hr, heq, -⟩ := hopen m hm
      exact ⟨r, hr, heq⟩

/-! ### One parcel time -/

section
variable (k : Core)

/-- What a request says of its ends: they are the pair's, of two dies, and both live (R354). -/
theorem Core.xRequest_some {i j : Nat} {r : Req} (h : k.xRequest i j = some r) :
    (r.1, r.2.1) = (i, j) ∧ i / 8 ≠ j / 8 ∧ k.xLive i = true ∧ k.xLive j = true := by
  simp only [Core.xRequest] at h
  split at h
  · cases h
  · next hopen =>
    simp only [not_or, not_not] at hopen
    obtain ⟨hdies, hi, hj, -⟩ := hopen
    split at h
    · cases h
      exact ⟨rfl, hdies, hi, hj⟩
    · cases h

/-- The requests of a parcel time (R354). -/
def Core.xRequests : List Req := k.xPairs.filterMap fun p => k.xRequest p.1 p.2

/-- Each pair of ports has at most one request. -/
theorem Core.nodup_xRequests : (k.xRequests.map fun r => (r.1, r.2.1)).Nodup := by
  have hpairs : k.xPairs.Nodup := nodup_eraseDups _
  exact nodup_map_filterMap hpairs fun _ _ hr => (k.xRequest_some hr).1

/-- A request joins live ports of two dies. -/
theorem Core.live_of_mem_xRequests {r : Req} (hr : r ∈ k.xRequests) :
    r.1 / 8 ≠ r.2.1 / 8 ∧ k.xLive r.1 = true ∧ k.xLive r.2.1 = true := by
  obtain ⟨p, -, hp⟩ := List.mem_filterMap.mp hr
  obtain ⟨hends, hlive⟩ := k.xRequest_some hp
  obtain ⟨hsource, hdest⟩ := Prod.mk.inj hends
  rwa [hsource, hdest]

/-- A live port is one of the ports in use. -/
theorem Core.lt_xPorts_of_xLive {p : Nat} (h : k.xLive p = true) : p < k.xPorts := by
  simp only [Core.xLive, Bool.and_eq_true, decide_eq_true_eq] at h
  obtain ⟨⟨⟨⟨hlt, -⟩, -⟩, -⟩, -⟩ := h
  exact hlt

/-- The core when the matches of the parcel time before are over: what launched nothing has given its credit back. -/
def Core.unmatchAll : Core := (k.xbar.matched.foldl (fun k m => k.creditBack m.2 16) k).onX fun x => { x with matched := [] }

/-- It differs in the matches and the credit alone. -/
theorem Core.unmatchAll_eq : ∃ c, k.unmatchAll = k.onX fun x => { x with matched := [], creditUsed := c } := by
  have hcredit : ∃ c, k.xbar.matched.foldl (fun k m => k.creditBack m.2 16) k = k.onX fun x => { x with creditUsed := c } :=
    List.foldlRecOn (motive := fun k' : Core => ∃ c, k' = k.onX fun x => { x with creditUsed := c }) _ _
      ⟨k.xbar.creditUsed, rfl⟩ fun k' h m _ => by
        obtain ⟨c, rfl⟩ := h
        exact ⟨_, rfl⟩
  obtain ⟨c, hc⟩ := hcredit
  exact ⟨c, by rw [Core.unmatchAll, hc]; rfl⟩

/-- So the parcels that are not acknowledged, the buffers and the Focus Contexts stay. -/
theorem Core.unmatchAll_keeps :
    k.unmatchAll.xbar.retained = k.xbar.retained ∧ k.unmatchAll.buf = k.buf ∧ k.unmatchAll.foc = k.foc := by
  obtain ⟨c, hc⟩ := k.unmatchAll_eq
  rw [hc]
  exact ⟨rfl, rfl, rfl⟩

/-- And the same ports are live. -/
theorem Core.xLive_unmatchAll (p : Nat) : k.unmatchAll.xLive p = k.xLive p := by
  obtain ⟨c, hc⟩ := k.unmatchAll_eq
  rw [hc]
  rfl

/-- The counting of a parcel time's matches changes the register space alone (R389, R755). -/
theorem Core.countMatches_ioOnly (rotated all : List (Nat × Nat)) :
    k.IoOnly (all.foldl (fun (k : Core) (m : Nat × Nat) => k.xcount 0 m.1 1)
      (rotated.foldl (fun (k : Core) m => (k.xstat T.MER_PORT_ROTATION_MATCHES m.1 1).xcount 1 m.1 1) k)) :=
  List.foldlRecOn all _ (List.foldlRecOn rotated _ (.refl k) fun _ h _ _ => (h.onIo _).count ..) fun _ h _ _ => h.count ..

/-- But for registers, a parcel time makes a matching of its requests, and leaves the parcels that are not acknowledged, the
buffers and the Focus Contexts (R355). -/
theorem Core.matchTime_matches : ∃ k2 : Core, k2.IoOnly k.matchTime ∧ Matches k.unmatchAll.xRequests k2.xbar.matched ∧
    k2.xbar.retained = k.xbar.retained ∧ k2.buf = k.buf ∧ k2.foc = k.foc := by
  have hrotation (t) : Matches k.unmatchAll.xRequests (rotation k.xPorts t k.unmatchAll.xRequests) :=
    matches_rotation k.unmatchAll.nodup_xRequests fun r hr => by
      obtain ⟨-, hsource, -⟩ := k.unmatchAll.live_of_mem_xRequests hr
      exact k.lt_xPorts_of_xLive (k.xLive_unmatchAll r.1 ▸ hsource)
  generalize hend : k.matchTime = last
  delta Core.matchTime at hend
  extract_lets k0 n ptime rs m0 m1 gp ap k1 iter all k2 k3 at hend
  have hk0 : k0 = k.unmatchAll := rfl
  clear_value k0 gp ap
  subst hk0 hend
  refine ⟨k2, (k2.countMatches_ioOnly m0 all).onIo _, ?_, k.unmatchAll_keeps⟩
  exact ((((hrotation _).grow _ _ _).grow _ _ _).grow _ _ _).grow _ _ _

end

/-- Settles O25: a parcel time's matching is `Core.matchTime_matches`, and what it joins is live by `Core.xRequest_some`. -/
theorem crossbarMatching : Obligations.CrossbarMatching := by
  intro s hlive
  have hslot := completes_onCore (c := .crossbarMatch) _ hlive rfl
  refine ⟨fun hgoes => ?_, fun hskipped => ?_⟩
  · rw [Core.crossbarMatch, hgoes, if_neg Bool.false_ne_true] at hslot
    obtain ⟨k2, ⟨f, hk⟩, hmatches, hretained, hbuf, hfoc⟩ :=
      (s.core.onX fun x => { x with slot := x.slot + 1 }).matchTime_matches
    rw [hk] at hslot
    refine ⟨_, hslot, hmatches.sources, hmatches.dests, fun m hm => ?_, hretained, hbuf, hfoc⟩
    obtain ⟨r, hr, rfl⟩ := hmatches.requested m hm
    have hends := Core.live_of_mem_xRequests _ hr
    simp only [Core.xLive_unmatchAll] at hends
    exact hends
  · rwa [Core.crossbarMatch, if_pos hskipped] at hslot

end Sys2Proof.Machine
end

section
/-!
SUPPORT. A port in a link-up attempt that has run 1 ms and meets what link-up takes (R541): ATTEMPT_TIMEOUT is not due, and the
statement LinkStates has it bring the link up.
-/
namespace Sys2Proof.Machine

/-- A part that runs, its clock at 1 ms, the first pipeline of die 0 ready, and an attempt of that die's port 0 that began at
time 0, with neither negotiation nor training to complete; ATTEMPT_MS is 3,000, as after reset. -/
def earlyAttempt : State :=
  { State.reset with core :=
    let k := State.reset.core.wr R.SEQ_STATUS_READY (dw 0) 0 0 1
    { k with
      pack := { k.pack with power := true }
      time := { k.time with now := 1000000 }
      link := { k.link with attempts := [⟨0, 0, false, false⟩] } } }

/-- Refutes O44: in the clause on an attempt that has all that link-up takes, where the attempt has run 1 of its 3,000 ms, with
every lane in alignment lock all that time. ATTEMPT_TIMEOUT takes effect once the attempt has run ATTEMPT_MS (R541, R542), and
before that the attempt runs on. The clause asks for no such time and has the link come up and the attempt end. -/
theorem not_linkStates : ¬ Obligations.LinkStates := by
  intro h
  obtain ⟨-, -, -, -, -, hattempt, -⟩ := h earlyAttempt .mp 0 0 0 0 [] 0 0 [] [] 0xFF 0 (by decide +kernel)
  obtain ⟨-, -, hgood, -⟩ := hattempt ⟨0, 0, false, false⟩ (by decide +kernel)
  obtain ⟨-, htimeout⟩ := hgood rfl rfl (by decide +kernel) (by decide +kernel) (by decide +kernel) (by decide +kernel)
  have hattempts := congrArg (fun o => (after o earlyAttempt).core.link.attempts) htimeout
  exact absurd hattempts (by decide +kernel)

end Sys2Proof.Machine
end

section
/-!
SUPPORT. Time (R394, R399, R405, R446): a write that counts as a PTP update only in PTP mode, the clock past a cycle boundary,
and the swaps that are left after it.
-/
namespace Sys2Proof.Machine

/-! ### Writes that may be PTP updates (R399) -/

/-- Outside PTP mode an update is no reference edge. -/
theorem Core.ptpEdge_of_ne {k : Core} (h : k.rd R.STB_CFG_TOD_SRC 0 0 0 ≠ 2) : k.ptpEdge = k := if_neg h

section
variable {s : State} {m : Master} (htod : s.core.rd R.STB_CFG_TOD_SRC 0 0 0 ≠ 2)
include htod

/-- Outside PTP mode STEP_GO has the step wait and shows it. -/
theorem completes_stepGo (hserves : Serves s m 0 stbPage 0x16C true) :
    Completes (.stepGo m) s
      ((s.core.onTime fun t => { t with
        step := some (signed (s.core.rd R.STB_STEP_SEC 0 0 0) * 1000000000 + signed (s.core.rd R.STB_STEP_NS 0 0 0)) }).wr
          R.STB_STATUS_STEP_PENDING 0 0 0 1) := by
  have hgo := completes_write (c := .stepGo m) _ hserves rfl
  rwa [Core.ptpEdge_of_ne (by rwa [Core.rd_wr_ne _ _ (by decide)])] at hgo

/-- Outside PTP mode FREQ_ADJ_WRITE writes its register alone. -/
theorem completes_freqAdjWrite (hserves : Serves s m 0 stbPage 0x160 true) (v : Word) :
    Completes (.freqAdjWrite m v) s (s.core.wr R.STB_FREQ_ADJ 0 0 0 v.toNat) := by
  have hwrite := completes_write (c := .freqAdjWrite m v) _ hserves rfl
  rw [Core.ptpEdge_of_ne (by rwa [Core.rd_onTime, Core.rd_wr_ne _ _ (by decide)])] at hwrite
  simp only [if_neg htod] at hwrite
  exact hwrite

end

/-! ### The clock at a boundary (R394, R405) -/

/-- From `t`, a clock that has reached its boundary, to `t'`: the cycle number rises, the phase wraps, and time of day takes the
step and the realignment that wait, so that none is left for the next boundary. -/
structure Time.Passes (t t' : Time) : Prop where
  cycle : t'.cycle = (t.cycle + 1) % 2 ^ 64
  elapsed : t'.elapsed = t.elapsed - t.span
  step : t'.step = none
  jump : t'.jump = 0
  reform : t'.reform = false
  span : 0 < t'.span
  tod : t'.tod = ((t.step.elim t.tod fun n => (t.tod + n * 65536).toNat : Nat) + t.jump).toNat

/-- What a boundary makes of the clock, once the clock has been brought to it. -/
theorem Core.boundaryClock_passes (k : Core) : k.toBoundary.time.Passes k.boundaryClock.time := by
  generalize hend : k.boundaryClock = last
  delta Core.boundaryClock at hend
  extract_lets k0 late tods k1 ofs moved slews k2 stepped shift k3 again at hend
  have hk1 : k1.time = k0.time := rfl
  have hk2 : k2.time =
      { k0.time with tod := k0.time.step.elim k0.time.tod fun n => (k0.time.tod + n * 65536).toNat, step := none } := by
    rw [← hk1]
    cases hwaits : k1.time.step with
    | none =>
      have hsame : k2 = k1 := by simp only [k2, hwaits]
      rw [hsame, Option.elim_none, ← hwaits]
    | some n => simp only [k2, hwaits, Option.elim_some, Core.raise_time, Core.wr_time, Core.onTime_time]
  clear_value k2
  subst hend
  exact {
    cycle := congrArg (fun t => (t.cycle + 1) % 2 ^ 64) hk2
    elapsed := rfl
    step := congrArg Time.step hk2
    jump := rfl
    reform := rfl
    span := Nat.le_max_left ..
    tod := congrArg (fun t => (t.tod + t.jump).toNat) hk2 }

section
variable (k : Core)

/-- Bringing the clock to its boundary leaves a waiting step as it is. -/
@[simp] theorem Core.toBoundary_step : k.toBoundary.time.step = k.time.step := rfl

/-- It leaves the length of the cycle as it is. -/
@[simp] theorem Core.toBoundary_span : k.toBoundary.time.span = k.time.span := rfl

/-- At its boundary the clock stands beyond the cycle's length by as much as it was late before. -/
theorem Core.toBoundary_late : k.toBoundary.time.elapsed - k.toBoundary.time.span = k.time.elapsed - k.time.span := by
  rw [Core.toBoundary_span, Core.toBoundary, Core.pass_elapsed]
  omega

/-- A boundary that is due needs no time to pass. -/
theorem Core.toBoundary_tod_of_due (hdue : k.time.span ≤ k.time.elapsed) : k.toBoundary.time.tod = k.time.tod := by
  rw [Core.toBoundary, Nat.sub_eq_zero_of_le hdue]
  rfl

end

/-! ### Swaps at a boundary (R417) -/

/-- The exchange of a port's banks leaves the clock alone. -/
@[simp] theorem Core.applySwap_time (k : Core) (x : EphSwap) : (k.applySwap x).time = k.time := by
  rw [Core.applySwap]
  split <;> rfl

/-- It leaves the swaps alone too. -/
@[simp] theorem Core.applySwap_egr (k : Core) (x : EphSwap) : (k.applySwap x).egr = k.egr := by
  rw [Core.applySwap]
  split <;> rfl

/-- The gates at a boundary leave the clock alone, and of the swaps those that are due at another. -/
theorem Core.boundaryGates_keeps (k : Core) (c : Nat) :
    (k.boundaryGates c).time = k.time ∧ (k.boundaryGates c).egr.swapPend = k.egr.swapPend.filter (·.at' != c) :=
  ⟨foldl_keeps Core.time Core.applySwap_time _ _, congrArg Egr.swapPend (foldl_keeps Core.egr Core.applySwap_egr _ _)⟩

/-- Settles O43: outside PTP mode the two writes are no reference edge (`Core.ptpEdge_of_ne`), and a boundary is what
`Core.boundaryClock_passes` says of a clock brought to it. That CYCLE_BOUNDARY brings it there is the model's choice (log 131). -/
theorem stepsCyclesAndFollowers : Obligations.StepsCyclesAndFollowers := by
  intro s m v d hlive
  refine ⟨fun hserves htod => ⟨_, completes_stepGo htod hserves, rfl, Core.rd_wr_same ..⟩,
    ⟨_, completes_onCore (c := .cycleBoundary) _ hlive rfl, ?_⟩,
    fun hserves htod => ⟨_, completes_freqAdjWrite htod hserves v, rfl, rfl⟩,
    completes_onCore (c := .followerSyncLoss d) _ hlive rfl, completes_onCore (c := .followerSyncRegain d) _ hlive rfl⟩
  obtain ⟨htime, hswaps⟩ := s.core.boundaryClock.boundaryGates_keeps s.core.boundaryClock.time.cycle
  have hpasses := s.core.boundaryClock_passes
  rw [Core.cycleBoundary, htime, hswaps]
  refine ⟨hpasses.cycle, hpasses.elapsed.trans s.core.toBoundary_late, hpasses.step, hpasses.jump, hpasses.reform,
    hpasses.span, fun hnone => ?_, fun n hsome => ?_, s.core.toBoundary_tod_of_due, fun x hx => ?_⟩
  · have htod := hpasses.tod
    rwa [Core.toBoundary_step, hnone] at htod
  · have htod := hpasses.tod
    rwa [Core.toBoundary_step, hsome] at htod
  · obtain ⟨-, hother⟩ := List.mem_filter.mp hx
    simpa using hother

end Sys2Proof.Machine
end

section
/-!
SUPPORT. The Focus engine's commands (R466, R479 to R485, R499): which branch of each one is taken.
-/
namespace Sys2Proof.Machine

/-! ### Results and their destruction (R479, R499) -/

section
variable {k : Core} {d : Nat}

/-- Without a complete chunk on the die no RESULT is due there. -/
theorem Core.resultDue_of_none_complete (hnone : k.foc.chunks.all (fun x => !(x.die == d && x.complete)) = true) :
    k.resultDue d = none := by
  rw [Core.resultDue, List.find?_eq_none]
  intro x hx hdue
  rw [Bool.and_eq_true] at hdue
  obtain ⟨hcomplete, -⟩ := hdue
  have hincomplete := List.all_eq_true.mp hnone x hx
  simp only [hcomplete, Bool.not_true, Bool.false_eq_true] at hincomplete

/-- Where no DESTROY waits, none goes on. -/
theorem Core.destroyGoOn_of_nil (hnil : k.foc.destroys = []) : k.destroyGoOn d = k := by
  rw [Core.destroyGoOn, hnil, List.find?_nil]

/-- A RESULT that finds room is injected, and a context that was to fail after its last RESULT may fail (R479, R499). -/
theorem Core.resultOf_injected {x : Chunk} {prs : Option Nat} {k1 : Core} (hroom : k.injectResult x prs = some k1) :
    k.resultOf d x false prs = k1.failAfter (d * 512 + x.slot) := by
  rw [Core.resultOf, if_neg (by simp)]
  simp only [hroom]

/-- One that finds no room keeps its slot, rounded (R482). -/
theorem Core.resultOf_no_room {x : Chunk} {prs : Option Nat} (hfull : k.injectResult x prs = none) :
    k.resultOf d x false prs = k.putChunk { x with rounded := true } := by
  rw [Core.resultOf, if_neg (by simp)]
  simp only [hfull]

/-- An uncorrectable accumulator word met in the rounding is the context's failure (R487). -/
theorem Core.resultOf_uncorrectable {x : Chunk} (hround : x.rounded = false) (prs : Option Nat) :
    k.resultOf d x true prs = k.accUe d (d * 512 + x.slot) := by
  rw [Core.resultOf, if_pos (by simp [hround])]

end

/-! ### CREATE and DESTROY (R484, R485) -/

section
variable {k : Core} {d : Nat}

/-- While no command runs, a write of FOC_CMD is the command it names; only while one runs is it discarded (log 146). -/
theorem Core.focBusy_idle (hidle : k.rd R.FOC_CMD_STAT_BUSY (dw d) 0 0 = 0) (m : Master) (go : Core → Core) :
    k.focBusy m d go = go k := by
  rw [Core.focBusy, if_neg (by simp [hidle])]

/-- CREATE with a reason against it reports the reason and changes nothing else (R484). -/
theorem Core.focCreate_refused (hreason : k.createReason d (k.rd R.FOC_CMD_CTX_CTX (dw d) 0 0) ≠ 0) (tag : Nat) :
    k.focCreate d tag = k.focDone d tag (k.createReason d (k.rd R.FOC_CMD_CTX_CTX (dw d) 0 0)) := if_pos hreason

/-- CREATE with no reason against it makes the context ACTIVE on every die of its set, with the next GEN (R484). -/
theorem Core.focCreate_created (hreason : k.createReason d (k.rd R.FOC_CMD_CTX_CTX (dw d) 0 0) = 0) (tag : Nat) :
    let slot := k.rd R.FOC_CMD_CTX_CTX (dw d) 0 0 % 512
    k.focCreate d tag =
      ((k.ctxDies d slot).foldl (fun k' z => k'.activate z slot ((k.ctx T.FOC_CTX_GEN d slot + 1) % 16) (k.ctxLines d slot))
        k).focDone d tag 0 := if_neg (not_not.mpr hreason)

/-- A DESTROY whose root is not the die is refused with reason 6: R484's table is of CREATE, and that DESTROY uses it too is the
model's reading (log 54). -/
theorem Core.focDestroy_of_not_root (hroot : k.rd R.FOC_CMD_CTX_CTX (dw d) 0 0 / 512 ≠ d) (tag : Nat) :
    k.focDestroy d tag = k.focDone d tag 6 := by
  rw [Core.focDestroy, if_pos (.inl hroot)]

/-- With no chunk open anywhere a DESTROY sends no ERROR: the slot falls IDLE on every die that holds the context, and what the
context held is forgotten. -/
theorem Core.destroyNow_of_no_chunk (hchunks : k.foc.chunks = []) (c tag : Nat) :
    let slot := c % 512
    let dies := k.dieList.filter fun z => k.ctx T.FOC_CTX_STATE z slot != 0 && k.ctx T.FOC_CTX_ROOT z slot == d
    k.destroyNow d c tag =
      ((((dies.foldl (fun k z => k.tw T.FOC_CTX_STATE (dw z) 0 slot 0) k).forgetCtx c dies).freeLines c).focDone d tag 0).wr
        R.FOC_CMD_STAT_BUSY (dw d) 0 0 0 := by
  simp only [Core.destroyNow, hchunks, List.any_nil, Bool.false_eq_true, and_false, if_false]

/-- With no chunk open anywhere a DESTROY at the context's root takes effect at once: no RESULT is due before it (R499). -/
theorem Core.focDestroy_of_no_chunk (hdie : k.rd R.FOC_CMD_CTX_CTX (dw d) 0 0 / 512 = d)
    (hroot : k.ctx T.FOC_CTX_ROOT d (k.rd R.FOC_CMD_CTX_CTX (dw d) 0 0 % 512) = d) (hchunks : k.foc.chunks = []) (tag : Nat) :
    k.focDestroy d tag = k.destroyNow d (k.rd R.FOC_CMD_CTX_CTX (dw d) 0 0) tag := by
  have hnone : k.slotDue d (k.rd R.FOC_CMD_CTX_CTX (dw d) 0 0 % 512) = false := by rw [Core.slotDue, hchunks, List.any_nil]
  rw [Core.focDestroy, if_neg (by simp [hdie, hroot])]
  simp only [hchunks, List.filter_nil, List.foldl_nil, hnone, Bool.false_eq_true, if_false]

end

/-! ### Contributions and messages (R466, R479, R480, R492) -/

section
variable {s : State} (hlive : s.core.live = true) {d : Fin 8}
include hlive

section
variable {p : Contribution} (hoffer : s.core.foc.inq.find? (·.die == d.val) = some p) (ue : Option (Fin 3))
  (ces : List (Fin 4096 × Fin 8))
include hoffer

/-- A contribution waits for the partial cells that have landed on its die and for the chunks to be rounded there (R492). -/
theorem completes_focusContribution_waits
    (hbefore : s.core.foc.landed.any (·.1 == d.val) = true ∨ s.core.roundingDue d = true) :
    Completes (.focusContribution d ue ces) s s.core := by
  have h := completes_onCore (c := .focusContribution d ue ces) _ hlive rfl
  simpa only [hoffer, if_pos hbefore] using h

/-- With none of these before it, the die's oldest contribution is handled and its cells are released (R466). -/
theorem completes_focusContribution_handled (hlanded : s.core.foc.landed.any (·.1 == d.val) = false)
    (hrounding : s.core.roundingDue d = false) :
    Completes (.focusContribution d ue ces) s
      (((((s.core.onFoc fun f => { f with inq := f.inq.eraseP (·.die == d.val) }).cesFound (dw d) ces).focRead d p.ctx
        (ue.map (·.val))).contribute p (ue == some 0)).copyGone p.grp) := by
  have h := completes_onCore (c := .focusContribution d ue ces) _ hlive rfl
  simpa only [hoffer, hlanded, hrounding, Bool.false_eq_true, or_false, if_false] using h

end

section
variable {x : FocMsg} {k1 : Core} (htaken : s.core.takeFocMsg d .openNotice = some (x, k1))
include htaken

/-- An open notice of the context that is ACTIVE at the root, in its window, opens the chunk and starts its timer (R480). -/
theorem completes_openNoticeReceive_opens (hctx : k1.ctxIs d x.ctx x.gen = true)
    (hwindow : k1.inWindow d (x.ctx % 512) x.seq = true) :
    Completes (.openNoticeReceive d) s
      ((k1.openChunk d (x.ctx % 512) x.seq 0).startTimer d (x.ctx % 512) x.seq) := by
  have h := completes_onCore (c := .openNoticeReceive d) _ hlive rfl
  simpa only [htaken, hctx, hwindow, and_self, if_true] using h

/-- An open notice of another context is taken, and opens nothing. -/
theorem completes_openNoticeReceive_stale (hctx : k1.ctxIs d x.ctx x.gen = false) :
    Completes (.openNoticeReceive d) s k1 := by
  have h := completes_onCore (c := .openNoticeReceive d) _ hlive rfl
  simpa only [htaken, hctx, Bool.false_eq_true, false_and, if_false] using h

end

/-- The close message of a chunk whose partial is acknowledged frees the chunk's slot (R479). -/
theorem completes_closeMessageReceive {x : FocMsg}
    (hfound : (s.core.foc.msgs.find? fun m => m.dst == d.val && m.kind == FocMsgKind.close &&
      !(s.core.foc.partials.any fun y => y.src == d.val && y.ctx == m.ctx && y.seq == m.seq && !y.acked)) = some x)
    (hctx : (s.core.onFoc fun f => { f with msgs := f.msgs.erase x }).ctxIs d x.ctx x.gen = true) :
    Completes (.closeMessageReceive d) s
      ((s.core.onFoc fun f => { f with msgs := f.msgs.erase x }).closeChunk d (x.ctx % 512) x.seq) := by
  have h := completes_onCore (c := .closeMessageReceive d) _ hlive rfl
  simpa only [Core.closeReceived, hfound, if_pos hctx] using h

/-! ### RESULT_INJECT (R479, R482, R492, R499) -/

section
variable {x : Chunk} (hdue : s.core.resultDue d = some x) (ue : Bool) (prs : Option (Fin 256))
include hdue

/-- A RESULT that is due waits, unrounded, while partial cells that have landed are to be added (R492). -/
theorem completes_resultInject_waits (hround : x.rounded = false) (hlanded : s.core.foc.landed.any (·.1 == d.val) = true) :
    Completes (.resultInject d ue prs) s s.core := by
  have h := completes_onCore (c := .resultInject d ue prs) _ hlive rfl
  simpa only [hdue, hround, hlanded, Bool.false_eq_true, not_false_eq_true, and_self, if_true] using h

/-- With its rounding behind it, or no partial cell before it, the RESULT is taken, and a DESTROY that waited for it goes on
(R499). -/
theorem completes_resultInject_taken (hready : x.rounded = true ∨ s.core.foc.landed.any (·.1 == d.val) = false) :
    Completes (.resultInject d ue prs) s ((s.core.resultOf d x ue (prs.map (·.val))).destroyGoOn d) := by
  have h := completes_onCore (c := .resultInject d ue prs) _ hlive rfl
  have hgoes : ¬ (¬ x.rounded = true ∧ s.core.foc.landed.any (·.1 == d.val) = true) := by
    rcases hready with hround | hlanded
    · exact fun hwaits => hwaits.1 hround
    · simp [hlanded]
  simpa only [hdue, if_neg hgoes] using h

end

/-- With no complete chunk on the die and no DESTROY waiting, RESULT_INJECT changes nothing. -/
theorem completes_resultInject_idle (hnone : s.core.foc.chunks.all (fun x => !(x.die == d.val && x.complete)) = true)
    (hnil : s.core.foc.destroys = []) (ue : Bool) (prs : Option (Fin 256)) : Completes (.resultInject d ue prs) s s.core := by
  have h := completes_onCore (c := .resultInject d ue prs) _ hlive rfl
  simpa only [Core.resultDue_of_none_complete hnone, Core.destroyGoOn_of_nil hnil] using h

end

section
variable {s : State} {m : Master} {d : Fin 8} (hserves : Serves s m (dw d) 0x60 0x114 true)
  (hidle : s.core.rd R.FOC_CMD_STAT_BUSY (dw d) 0 0 = 0) (tag : Fin 256)
include hserves hidle

/-- While no command runs, a served CREATE is carried out (R484). -/
theorem completes_focusCreate_idle : Completes (.focusCreate m d tag) s (s.core.focCreate d tag) := by
  have h := completes_write (c := .focusCreate m d tag) _ hserves rfl
  rwa [Core.focBusy_idle hidle] at h

/-- While no command runs, a served DESTROY is carried out (R485). -/
theorem completes_focusDestroy_idle : Completes (.focusDestroy m d tag) s (s.core.focDestroy d tag) := by
  have h := completes_write (c := .focusDestroy m d tag) _ hserves rfl
  rwa [Core.focBusy_idle hidle] at h

end

/-- Settles O40: each clause is the branch that its premises select. The model's own choices in them: a RESULT is due only
while its context is ACTIVE (`Core.resultDue`, log 146), and a DESTROY on a die that is not the root answers 6 (log 54). -/
theorem focusChunks : Obligations.FocusChunks := by
  intro s m d tag prs ue ces hlive k c slot dies
  refine ⟨fun p hoffer =>
      ⟨completes_focusContribution_waits hlive hoffer ue ces, completes_focusContribution_handled hlive hoffer ue ces⟩,
    fun x k1 htaken => ⟨completes_openNoticeReceive_opens hlive htaken, completes_openNoticeReceive_stale hlive htaken⟩,
    fun x hdue => ⟨completes_resultInject_waits hlive hdue false prs, ?_, ?_⟩,
    fun hnone hnil bad => completes_resultInject_idle hlive hnone hnil bad prs,
    fun x hfound => completes_closeMessageReceive hlive hfound,
    fun hserves hidle => ?_⟩
  · intro hready
    have hdone := completes_resultInject_taken hlive hdue false prs hready
    split
    next k1 hroom => rwa [Core.resultOf_injected hroom] at hdone
    next hfull => rwa [Core.resultOf_no_room hfull] at hdone
  · intro hround hlanded
    have hdone := completes_resultInject_taken hlive hdue true prs (.inr hlanded)
    rwa [Core.resultOf_uncorrectable hround] at hdone
  · have hcreate := completes_focusCreate_idle hserves hidle tag
    have hdestroy := completes_focusDestroy_idle hserves hidle tag
    refine ⟨fun hreason => ?_, fun hreason => ?_, fun hdie => ?_, fun hdie _ hroot hchunks => ?_⟩
    · rwa [Core.focCreate_refused hreason] at hcreate
    · rwa [Core.focCreate_created hreason] at hcreate
    · rwa [Core.focDestroy_of_not_root hdie] at hdestroy
    · rwa [Core.focDestroy_of_no_chunk hdie hroot hchunks, Core.destroyNow_of_no_chunk hchunks] at hdestroy

end Sys2Proof.Machine
end

section
/-!
SUPPORT. The coding of the lanes (R528, R529, R532, R533) and of the flits between dies (R30, R575): each step of the sender
and what undoes it in the receiver.
-/
namespace Sys2Proof.Machine

/-! ### PAM4 mapping (R528) -/

/-- Pieces that the list already uses up are not added by more fuel. -/
theorem chunks_succ_of_length_le {α : Type} (n : Nat) {fuel : Nat} {l : List α} (hl : l.length ≤ fuel) :
    chunks (n + 1) (fuel + 1) l = chunks (n + 1) fuel l := by
  induction fuel generalizing l with
  | zero => simp [List.length_eq_zero_iff.mp (Nat.le_zero.mp hl), chunks]
  | succ fuel ih =>
    have hdrop : (l.drop (n + 1)).length ≤ fuel := by rw [List.length_drop]; omega
    rw [chunks, ih hdrop, chunks]

/-- The pairs of bits are cut off the front one by one. -/
theorem pieces_two_cons {α : Type} (a b : α) (l : List α) : pieces 2 (a :: b :: l) = [a, b] :: pieces 2 l := by
  have hfuel := chunks_succ_of_length_le 1 (Nat.le_refl l.length)
  simp [pieces, chunks, ← hfuel]

@[simp] theorem toSymbols_pam4_nil : toSymbols true [] = [] := rfl

@[simp] theorem toSymbols_pam4_cons (a b : Bool) (bs : List Bool) :
    toSymbols true (a :: b :: bs) = gray a b :: toSymbols true bs := by
  simp [toSymbols, pieces_two_cons]

@[simp] theorem ofSymbols_pam4_nil : ofSymbols true [] = [] := rfl

@[simp] theorem ofSymbols_pam4_cons (s : Nat) (ss : List Nat) : ofSymbols true (s :: ss) = ungray s ++ ofSymbols true ss := by
  simp [ofSymbols]

theorem ungray_gray (a b : Bool) : ungray (gray a b) = [a, b] := by
  cases a <;> cases b <;> rfl

theorem gray_lt (a b : Bool) : gray a b < 4 := by
  cases a <;> cases b <;> decide

theorem ofSymbols_toSymbols {bs : List Bool} (heven : bs.length % 2 = 0) : ofSymbols true (toSymbols true bs) = bs := by
  induction bs using List.twoStepInduction with
  | nil => rfl
  | singleton a => simp at heven
  | cons_cons a b bs ih _ =>
    have heven : bs.length % 2 = 0 := by simpa [Nat.add_assoc] using heven
    rw [toSymbols_pam4_cons, ofSymbols_pam4_cons, ungray_gray, ih heven]
    rfl

theorem toSymbols_pam4_lt (bs : List Bool) : ∀ s ∈ toSymbols true bs, s < 4 := by
  intro s hs
  obtain ⟨pair, -, rfl⟩ := List.mem_map.mp hs
  exact gray_lt _ _

/-! ### Precoding (R529) -/

theorem precodeTx_lt (p : Nat) (gs : List Nat) : ∀ q ∈ precodeTx p gs, q < 4 := by
  induction gs generalizing p with
  | nil => simp [precodeTx]
  | cons g gs ih => exact List.forall_mem_cons.mpr ⟨Nat.mod_lt _ (by decide), ih _⟩

theorem precodeRx_precodeTx (p : Nat) {gs : List Nat} (hgs : ∀ g ∈ gs, g < 4) : precodeRx p (precodeTx p gs) = gs := by
  induction gs generalizing p with
  | nil => rfl
  | cons g gs ih =>
    obtain ⟨hg, hgs⟩ := List.forall_mem_cons.mp hgs
    have hhead : ((g + 4 - p % 4) % 4 + p) % 4 = g := by omega
    simp only [precodeTx, precodeRx, hhead, ih _ hgs]

/-- Each symbol is its own less the one sent before it. -/
theorem precodeTx_getD {p : Nat} (hp : p < 4) {gs : List Nat} {j : Nat} (hj : j < gs.length) :
    (precodeTx p gs).getD j 0 =
      (gs.getD j 0 + 4 - (if j = 0 then p else (precodeTx p gs).getD (j - 1) 0)) % 4 := by
  induction gs generalizing p j with
  | nil => simp at hj
  | cons g gs ih =>
    have hq : (g + 4 - p % 4) % 4 < 4 := Nat.mod_lt _ (by decide)
    cases j with
    | zero => simp [precodeTx, Nat.mod_eq_of_lt hp]
    | succ j =>
      have htail := ih hq (Nat.lt_of_succ_lt_succ hj)
      cases j <;> simpa [precodeTx] using htail

/-! ### Polarity (R532) -/

theorem invertLane_getD {ss : List Nat} {j : Nat} (hj : j < ss.length) :
    (invertLane true ss).getD j 0 = 3 - ss.getD j 0 := by
  simp [invertLane, hj]

theorem invertLane_invertLane {ss : List Nat} (hss : ∀ s ∈ ss, s < 4) : invertLane true (invertLane true ss) = ss := by
  have hback : ∀ s ∈ ss, 3 - (3 - s) = s := fun s hs => Nat.sub_sub_self (Nat.le_of_lt_succ (hss s hs))
  simpa [invertLane, Function.comp_def] using List.map_congr_left hback

/-! ### The scrambler (R533) -/

theorem scramBit_scramBit (st : Nat) (b : Bool) : scramBit st (scramBit st b) = b := by
  simp only [scramBit, Bool.xor_assoc, Bool.xor_left_comm (st.testBit 57), Bool.xor_self, Bool.xor_false]

theorem descramble_scramble (st : Nat) (bs : List Bool) : descramble st (scramble st bs).1 = (bs, (scramble st bs).2) := by
  induction bs generalizing st with
  | nil => rfl
  | cons b bs ih => simp only [scramble, descramble, ih, scramBit_scramBit]

/-! ### A lane from its sender to its receiver -/

/-- Under the sender's settings and last symbol a receiver comes back to the symbols before precoding and polarity. -/
theorem polarity_and_precoding_undone (inv pre : Prop) [Decidable inv] [Decidable pre] (p : Nat) {gs : List Nat}
    (hgs : ∀ g ∈ gs, g < 4) :
    let ps := if pre then precodeTx p gs else gs
    let sent := if inv then invertLane true ps else ps
    let qs := if inv then invertLane true sent else sent
    (if pre then precodeRx p qs else qs) = gs := by
  intro ps sent qs
  have hps : ∀ s ∈ ps, s < 4 := by
    by_cases hpre : pre
    · simpa [ps, hpre] using precodeTx_lt p gs
    · simpa [ps, hpre] using hgs
  have hqs : qs = ps := by
    by_cases hinv : inv
    · simpa [qs, sent, hinv] using invertLane_invertLane hps
    · simp [qs, sent, hinv]
  rw [hqs]
  by_cases hpre : pre
  · simpa [ps, hpre] using precodeRx_precodeTx p hgs
  · simp [ps, hpre]

/-- A lane with its sender's settings and last symbol recovers the bits sent. -/
theorem Core.laneReceive_laneSend {k : Core} {d x : Nat} {bs : List Bool} (heven : bs.length % 2 = 0)
    (hinv : k.rd R.LAN_LANE_CFG_TX_INV (dw d) (x / 8) (x % 8) = k.rd R.LAN_LANE_CFG_RX_INV (dw d) (x / 8) (x % 8))
    (hpre : k.rd R.LAN_LANE_STAT_PRE_TX_ACT (dw d) (x / 8) (x % 8) = k.rd R.LAN_LANE_STAT_PRE_RX_ACT (dw d) (x / 8) (x % 8))
    (hlast : k.link.preTx.get (d * 256 + x) = k.link.preRx.get (d * 256 + x)) :
    (k.laneReceive d x true (k.laneSend d x true bs).1).1 = bs := by
  have hundone := polarity_and_precoding_undone (k.rd R.LAN_LANE_CFG_RX_INV (dw d) (x / 8) (x % 8) = 1)
    ((true && k.rd R.LAN_LANE_STAT_PRE_RX_ACT (dw d) (x / 8) (x % 8) == 1) = true)
    (k.link.preRx.get (d * 256 + x)) (toSymbols_pam4_lt bs)
  simp only [Core.laneReceive, Core.laneSend, hinv, hpre, hlast]
  exact (congrArg (ofSymbols true) hundone).trans (ofSymbols_toSymbols heven)

/-! ### Numbers as bytes -/

theorem leSeq_succ (v n : Nat) : leSeq v (n + 1) = BitVec.ofNat 8 v :: leSeq (v / 256) n := by
  have hshift (i : Nat) : v / 2 ^ (8 * (i + 1)) = v / 256 / 2 ^ (8 * i) := by
    rw [Nat.div_div_eq_div_mul, Nat.mul_succ, Nat.pow_add, Nat.mul_comm]
  simp [leSeq, List.range_succ_eq_map, Function.comp_def, hshift]

@[simp] theorem length_leSeq (v n : Nat) : (leSeq v n).length = n := by
  simp [leSeq]

theorem leNat_leSeq (v n : Nat) : leNat (leSeq v n) = v % 256 ^ n := by
  induction n generalizing v with
  | zero => simp [leSeq, leNat, Nat.mod_one]
  | succ n ih =>
    calc leNat (leSeq v (n + 1)) = v % 256 + 256 * leNat (leSeq (v / 256) n) := by simp [leSeq_succ, leNat]
      _ = v % 256 ^ (n + 1) := by rw [ih, Nat.pow_succ', Nat.mod_mul]

/-! ### The bytes of a flit (R30; log 123) -/

@[simp] theorem length_padTo (n : Nat) (b : List Byte) : (padTo n b).length = n := by
  simp [padTo]

/-- Bytes put over as many in the middle. -/
theorem putBytes_middle {a m b : List Byte} (c : List Byte) {i : Nat} (ha : a.length = i) (hm : m.length = b.length) :
    putBytes (a ++ (m ++ c)) i b = a ++ (b ++ c) := by
  subst ha
  simp [putBytes, ← hm, List.drop_append, List.take_of_length_le]

/-- A byte before what is put over stands. -/
theorem putBytes_set {f : List Byte} {i x : Nat} (hi : x < i) (hf : x < f.length) (b : List Byte) (v : Byte) :
    putBytes (f.set x v) i b = (putBytes f i b).set x v := by
  have htake : x < (f.take i).length := by rw [List.length_take]; omega
  rw [putBytes, putBytes, List.take_set, List.drop_set_of_lt (by omega), List.length_set, List.append_assoc, List.append_assoc,
    ← List.set_append_left _ _ htake, List.take_set]

theorem putBytes_getD {f : List Byte} {i x : Nat} (hi : x < i) (hf : x < f.length) (b : List Byte) :
    (putBytes f i b).getD x 0 = f.getD x 0 := by
  have htake : x < (f.take i).length := by rw [List.length_take]; omega
  simp [putBytes, hf, hi, List.getElem?_append_left htake]

theorem length_putBytes {f : List Byte} {i : Nat} {b : List Byte} (hfits : i + b.length ≤ f.length) :
    (putBytes f i b).length = f.length := by
  simp only [putBytes, List.length_take, List.length_append, List.length_drop]
  omega

theorem flitField_middle {a m : List Byte} (c : List Byte) {i n : Nat} (ha : a.length = i) (hm : m.length = n) :
    flitField (a ++ (m ++ c)) i n = leNat m := by
  subst ha hm
  simp [flitField]

/-- A byte before a field is none of the field's. -/
theorem flitField_set {f : List Byte} {i x : Nat} (hx : x < i) (n : Nat) (v : Byte) :
    flitField (f.set x v) i n = flitField f i n := by
  rw [flitField, flitField, List.drop_set_of_lt hx]

/-- A flit by its parts: payload, parity, CRC, sequence and acknowledgement (log 123). -/
def flitBytes (payload parity crc seq ack : List Byte) : List Byte :=
  payload ++ (parity ++ (crc ++ (seq ++ (ack ++ List.replicate 6 0))))

section
variable {payload parity crc seq ack : List Byte} (hpayload : payload.length = 240) (hparity : parity.length = 4)
  (hcrc : crc.length = 2) (hseq : seq.length = 2) (hack : ack.length = 2)

include hpayload

theorem take_flitBytes : (flitBytes payload parity crc seq ack).take 240 = payload :=
  List.take_left' hpayload

include hparity

theorem flitField_parity : flitField (flitBytes payload parity crc seq ack) 240 4 = leNat parity :=
  flitField_middle _ hpayload hparity

theorem putBytes_parity {parity' : List Byte} (hparity' : parity'.length = 4) :
    putBytes (flitBytes payload parity crc seq ack) 240 parity' = flitBytes payload parity' crc seq ack :=
  putBytes_middle _ hpayload (hparity.trans hparity'.symm)

include hcrc

theorem flitField_crc : flitField (flitBytes payload parity crc seq ack) 244 2 = leNat crc := by
  rw [flitBytes, ← List.append_assoc]
  exact flitField_middle _ (by simp [hpayload, hparity]) hcrc

theorem putBytes_crc {crc' : List Byte} (hcrc' : crc'.length = 2) :
    putBytes (flitBytes payload parity crc seq ack) 244 crc' = flitBytes payload parity crc' seq ack := by
  rw [flitBytes, ← List.append_assoc, putBytes_middle _ (by simp [hpayload, hparity]) (hcrc.trans hcrc'.symm),
    List.append_assoc]
  rfl

include hseq

theorem flitField_seq : flitField (flitBytes payload parity crc seq ack) 246 2 = leNat seq := by
  rw [flitBytes, ← List.append_assoc, ← List.append_assoc]
  exact flitField_middle _ (by simp [hpayload, hparity, hcrc]) hseq

include hack

theorem length_flitBytes : (flitBytes payload parity crc seq ack).length = 256 := by
  simp [flitBytes, hpayload, hparity, hcrc, hseq, hack]

theorem flitField_ack : flitField (flitBytes payload parity crc seq ack) 248 2 = leNat ack := by
  rw [flitBytes, ← List.append_assoc, ← List.append_assoc, ← List.append_assoc]
  exact flitField_middle _ (by simp [hpayload, hparity, hcrc, hseq]) hack

end

/-! ### Word parity (R30) -/

/-- The number below 2 ^ n whose bit i is `c i`, as `flitParity` puts its bits together. -/
def withBits (c : Nat → Nat) (n : Nat) : Nat := (List.range n).foldl (fun m i => m + 2 ^ i * c i) 0

theorem withBits_succ (c : Nat → Nat) (n : Nat) : withBits c (n + 1) = 2 ^ n * c n + withBits c n := by
  rw [Nat.add_comm (2 ^ n * c n), withBits, List.range_succ, List.foldl_append]
  rfl

section
variable {c : Nat → Nat} (hc : ∀ i, c i < 2)
include hc

theorem withBits_lt (n : Nat) : withBits c n < 2 ^ n := by
  induction n with
  | zero => exact Nat.one_pos
  | succ n ih =>
    have hbit : 2 ^ n * c n ≤ 2 ^ n * 1 := Nat.mul_le_mul_left _ (Nat.le_of_lt_succ (hc n))
    rw [withBits_succ, Nat.pow_succ]
    omega

theorem testBit_withBits {n i : Nat} (hi : i < n) : (withBits c n).testBit i = (c i).testBit 0 := by
  induction n with
  | zero => omega
  | succ n ih =>
    rw [withBits_succ, Nat.testBit_two_pow_mul_add _ (withBits_lt hc n)]
    obtain hlt | rfl := Nat.lt_succ_iff_lt_or_eq.mp hi
    · rw [if_pos hlt, ih hlt]
    · rw [if_neg (Nat.lt_irrefl i), Nat.sub_self]

theorem withBits_inj {c' : Nat → Nat} (hc' : ∀ i, c' i < 2) {n i : Nat} (hi : i < n) (hsame : withBits c n = withBits c' n) :
    c i = c' i := by
  have hbit : (c i).testBit 0 = (c' i).testBit 0 := by rw [← testBit_withBits hc hi, hsame, testBit_withBits hc' hi]
  have hlt := hc i
  have hlt' := hc' i
  rw [Nat.testBit_zero, Nat.testBit_zero, decide_eq_decide] at hbit
  omega

end

/-- Bit `q` of the 64-bit word `i` of a flit. -/
def wordBit (g : List Byte) (i q : Nat) : Bool := ((g.getD (8 * i + q / 8) 0).toNat).testBit (q % 8)

/-- The parity of the 64-bit word `i` of a flit. -/
def wordParity (g : List Byte) (i : Nat) : Nat := (List.range 64).countP (wordBit g i) % 2

theorem flitParity_eq (f : List Byte) : flitParity f = withBits (wordParity (putBytes f 240 (List.replicate 6 0))) 32 := rfl

theorem wordParity_lt (g : List Byte) (i : Nat) : wordParity g i < 2 := Nat.mod_lt _ (by decide)

theorem flitParity_lt (f : List Byte) : flitParity f < 2 ^ 32 := withBits_lt (wordParity_lt _) 32

/-- The parity and CRC bytes are no part of what the parity covers. -/
theorem flitParity_flitBytes {payload parity crc seq ack : List Byte} (hpayload : payload.length = 240)
    (hparity : parity.length = 4) (hcrc : crc.length = 2) :
    flitParity (flitBytes payload parity crc seq ack) =
      flitParity (flitBytes payload (List.replicate 4 0) (List.replicate 2 0) seq ack) := by
  have hzeros (p c : List Byte) (hp : p.length = 4) (hc : c.length = 2) :
      putBytes (flitBytes payload p c seq ack) 240 (List.replicate 6 0) =
        flitBytes payload (List.replicate 4 0) (List.replicate 2 0) seq ack := by
    rw [flitBytes, ← List.append_assoc p]
    exact putBytes_middle _ hpayload (by simp [hp, hc])
  rw [flitParity_eq, flitParity_eq, hzeros _ _ hparity hcrc, hzeros _ _ (by simp) (by simp)]

/-! ### A sealed flit passes -/

/-- What the receiver checks (R30, R575). -/
theorem flitGood_iff (f : List Byte) : flitGood f = true ↔ f.length = 256 ∧ flitField f 240 4 = flitParity f ∧
    flitField f 244 2 = Config.flitCrc (putBytes f 244 (List.replicate 2 0)) % 65536 := by
  simp [flitGood, and_assoc]

section
variable (payload : List Byte) (seq ack : Nat)

/-- A flit before its parity and its CRC are set. -/
def plainFlit : List Byte :=
  flitBytes (padTo 240 payload) (List.replicate 4 0) (List.replicate 2 0) (leSeq seq 2) (leSeq ack 2)

/-- The parity bytes of a sealed flit. -/
def parityBytes : List Byte := leSeq (flitParity (plainFlit payload seq ack)) 4

/-- The CRC bytes of a sealed flit. -/
def crcBytes : List Byte :=
  leSeq (Config.flitCrc
    (flitBytes (padTo 240 payload) (parityBytes payload seq ack) (List.replicate 2 0) (leSeq seq 2) (leSeq ack 2))) 2

@[simp] theorem length_parityBytes : (parityBytes payload seq ack).length = 4 := length_leSeq _ _

@[simp] theorem length_crcBytes : (crcBytes payload seq ack).length = 2 := length_leSeq _ _

theorem sealFlit_eq : sealFlit payload seq ack =
    flitBytes (padTo 240 payload) (parityBytes payload seq ack) (crcBytes payload seq ack) (leSeq seq 2) (leSeq ack 2) := by
  have hplain : padTo 240 payload ++ List.replicate 6 0 ++ leSeq seq 2 ++ leSeq ack 2 ++ List.replicate 6 0 =
      plainFlit payload seq ack := by
    simp only [plainFlit, flitBytes, List.append_assoc]
    rfl
  have hparity := putBytes_parity (crc := List.replicate 2 0) (seq := leSeq seq 2) (ack := leSeq ack 2)
    (length_padTo 240 payload) (List.length_replicate (n := 4) (a := 0)) (length_parityBytes payload seq ack)
  rw [sealFlit, hplain, ← parityBytes, plainFlit, hparity, ← crcBytes, putBytes_crc (by simp) (by simp) (by simp) (by simp)]

theorem take_sealFlit : (sealFlit payload seq ack).take 240 = padTo 240 payload := by
  rw [sealFlit_eq, take_flitBytes (length_padTo ..)]

theorem flitField_seq_sealFlit : flitField (sealFlit payload seq ack) 246 2 = seq % 65536 := by
  rw [sealFlit_eq, flitField_seq (by simp) (by simp) (by simp) (by simp), leNat_leSeq]
  rfl

theorem flitField_ack_sealFlit : flitField (sealFlit payload seq ack) 248 2 = ack % 65536 := by
  rw [sealFlit_eq, flitField_ack (by simp) (by simp) (by simp) (by simp) (by simp), leNat_leSeq]
  rfl

theorem flitGood_sealFlit : flitGood (sealFlit payload seq ack) = true := by
  rw [sealFlit_eq, flitGood_iff]
  refine ⟨length_flitBytes (by simp) (by simp) (by simp) (by simp) (by simp), ?_, ?_⟩
  · rw [flitField_parity (by simp) (by simp), flitParity_flitBytes (by simp) (by simp) (by simp), parityBytes, leNat_leSeq]
    exact Nat.mod_eq_of_lt (flitParity_lt _)
  · rw [flitField_crc (by simp) (by simp) (by simp), putBytes_crc (by simp) (by simp) (by simp) (by simp), crcBytes, leNat_leSeq]
    rfl

end

/-! ### One wrong bit fails it -/

/-- Of two counts over the same list that differ in one place, one is odd and the other even. -/
theorem countP_mod_two_ne {l : List Nat} (hl : l.Nodup) {p q : Nat → Bool} {j : Nat} (hj : j ∈ l) (hdiffer : q j = !p j)
    (hagree : ∀ i ∈ l, i ≠ j → q i = p i) : l.countP q % 2 ≠ l.countP p % 2 := by
  induction l with
  | nil => simp at hj
  | cons a l ih =>
    obtain ⟨ha, hl⟩ := List.nodup_cons.mp hl
    obtain ⟨hhead, htail⟩ := List.forall_mem_cons.mp hagree
    obtain rfl | hj := List.mem_cons.mp hj
    · have hrest : l.countP q = l.countP p :=
        List.countP_congr fun i hi => by rw [htail i hi (ne_of_mem_of_not_mem hi ha)]
      rw [List.countP_cons, List.countP_cons, hrest, hdiffer]
      cases p j <;> simp <;> omega
    · have hrest := ih hl hj htail
      rw [List.countP_cons, List.countP_cons, hhead (ne_of_mem_of_not_mem hj ha).symm]
      omega

section
variable {g : List Byte} {x : Nat} (hx : x < g.length) (b : Fin 8)
include hx

theorem wordBit_flipped {i q : Nat} :
    wordBit (g.set x (g.getD x 0 ^^^ BitVec.twoPow 8 b)) i q =
      (wordBit g i q ^^ decide (8 * i + q / 8 = x ∧ q % 8 = b)) := by
  by_cases hbyte : 8 * i + q / 8 = x
  · subst hbyte
    simp only [wordBit, List.getD_eq_getElem?_getD, List.getElem?_set_self hx, Option.getD_some, BitVec.testBit_toNat,
      BitVec.getLsbD_xor, BitVec.getLsbD_twoPow, b.isLt, decide_true, Bool.true_and, true_and, eq_comm]
  · simp [wordBit, hbyte, Ne.symm hbyte]

theorem wordParity_flipped : wordParity (g.set x (g.getD x 0 ^^^ BitVec.twoPow 8 b)) (x / 8) ≠ wordParity g (x / 8) := by
  have hplace : 8 * (x % 8) + b ∈ List.range 64 := List.mem_range.mpr (by omega)
  refine countP_mod_two_ne List.nodup_range hplace ?_ fun q _ hq => ?_
  · have hhere : 8 * (x / 8) + (8 * (x % 8) + b) / 8 = x ∧ (8 * (x % 8) + b.val) % 8 = b := by omega
    rw [wordBit_flipped hx, decide_eq_true hhere, Bool.xor_true]
  · have helsewhere : ¬(8 * (x / 8) + q / 8 = x ∧ q % 8 = b) := by omega
    rw [wordBit_flipped hx, decide_eq_false helsewhere, Bool.xor_false]

end

theorem flitParity_flipped {f : List Byte} (hlen : f.length = 256) (x : Fin 240) (b : Fin 8) :
    flitParity (f.set x (f.getD x 0 ^^^ BitVec.twoPow 8 b)) ≠ flitParity f := by
  intro hsame
  have hf : x.val < f.length := by omega
  have hlength := length_putBytes (f := f) (i := 240) (b := List.replicate 6 0) (by simp [hlen])
  rw [flitParity_eq, flitParity_eq, putBytes_set x.isLt hf, ← putBytes_getD x.isLt hf (List.replicate 6 0)] at hsame
  exact wordParity_flipped (hf.trans_eq hlength.symm) b
    (withBits_inj (wordParity_lt _) (wordParity_lt _) (by omega) hsame)

theorem flitGood_flipped {f : List Byte} (hgood : flitGood f = true) (x : Fin 240) (b : Fin 8) :
    flitGood (f.set x (f.getD x 0 ^^^ BitVec.twoPow 8 b)) = false := by
  obtain ⟨hlen, hparity, -⟩ := (flitGood_iff f).mp hgood
  refine Bool.eq_false_iff.mpr fun hgood' => ?_
  obtain ⟨-, hparity', -⟩ := (flitGood_iff _).mp hgood'
  rw [flitField_set x.isLt, hparity] at hparity'
  exact flitParity_flipped hlen x b hparity'.symm

/-- Settles O46: each clause is the inverse of one step of the sender, or the flit by its parts (`sealFlit_eq`); a wrong bit
turns the parity of its word. Where the control bytes hold the fields, and the CRC, are the model's choice (log 123). -/
theorem laneCoding : Obligations.LaneCoding := by
  refine ⟨⟨rfl, rfl, rfl, rfl⟩, fun bs heven => ⟨ofSymbols_toSymbols heven, toSymbols_pam4_lt bs⟩,
    fun p gs hgs hp => ⟨precodeTx_lt p gs, precodeRx_precodeTx p hgs, fun j hj => precodeTx_getD hp hj⟩,
    fun ss hss => ⟨invertLane_invertLane hss, fun j hj => invertLane_getD hj⟩, descramble_scramble,
    ?_, ?_, fun f x b hgood => flitGood_flipped hgood x b⟩
  · intro k d x bs w heven hinv hpre hlast _
    exact Core.laneReceive_laneSend heven hinv hpre hlast
  · intro payload seq ack hseq hack f
    refine ⟨flitGood_sealFlit payload seq ack, take_sealFlit payload seq ack, ?_, ?_⟩
    · exact (flitField_seq_sealFlit payload seq ack).trans (Nat.mod_eq_of_lt hseq)
    · exact (flitField_ack_sealFlit payload seq ack).trans (Nat.mod_eq_of_lt hack)

end Sys2Proof.Machine
end

section
/-!
SUPPORT. The services that report, and the soft-repair map (R583, R586, R701, R725, R738, R741, R742, R747): what each reads of
the request or the buffer, and the reply and state that follow.
-/
namespace Sys2Proof.Machine

/-! ### The host buffer (R738) -/

/-- Firmware gets the buffer's bytes, no more, from a host memory that returned them all. -/
theorem Core.bufIn_whole {k : Core} {ch : Nat} {b : List Byte} (hlen : k.bufLen ch ≤ b.length) :
    k.bufIn ch (some b) = some (b.take (k.bufLen ch)) := if_pos hlen

section
variable {s : State} {ch : Fin 13}

/-! ### Start status and sensors (R741, R742, R747) -/

/-- START_STATUS_GET replies with the start's step, failed step, fenced dies, boot case, result and cause (R741). -/
theorem exec_startStatusGet (hruns : Runs s ch svcStart) :
    exec (.startStatusGet ch) s = .next (s.reply ch ⟨0, [s.core.rd R.PAG_BOOT_PROG_STEP 0 0 0 * 2 ^ 24 +
      s.core.rd R.PAG_BOOT_PROG_FAIL_STEP 0 0 0 * 2 ^ 16 + s.core.rd R.PAG_DIEMAP_FENCED 0 0 0 * 2 ^ 8 +
      s.core.boot.bootCase * 16 + s.core.boot.result, s.core.boot.stopCause]⟩) :=
  congrArg done (State.serve_replies hruns rfl)

section
variable (hruns : Runs s ch svcRead)
include hruns

/-- A count of 1 to 14 sensors is answered with a word of zero and their values in turn (R742; the words' places are log 98). -/
theorem exec_sensorsRead_values (hlow : 1 ≤ s.core.req ch 1 / 65536) (hhigh : s.core.req ch 1 / 65536 ≤ 14) :
    exec (.sensorsRead ch) s = .next (s.reply ch ⟨0, 0 :: (List.range (s.core.req ch 1 / 65536)).map fun i =>
      s.core.sensor ((s.core.req ch 1 + i) % 65536)⟩) := by
  have hcount : ¬(s.core.req ch 1 / 65536 < 1 ∨ 14 < s.core.req ch 1 / 65536) := by omega
  exact congrArg done (State.serve_replies hruns (if_neg hcount))

/-- Any other count is a bad request (R739, R742). -/
theorem exec_sensorsRead_bad (hbad : s.core.req ch 1 / 65536 = 0 ∨ 14 < s.core.req ch 1 / 65536) :
    exec (.sensorsRead ch) s = .next (s.reply ch ⟨3, []⟩) := by
  have hcount : s.core.req ch 1 / 65536 < 1 ∨ 14 < s.core.req ch 1 / 65536 := by omega
  exact congrArg done (State.serve_replies hruns (if_pos hcount))

end

/-- A period of 1 to 3,600 s becomes the logging period (R742). -/
theorem exec_sensorsLogCfg (hruns : Runs s ch svcLogCfg) (hlow : 1 ≤ s.core.req ch 1) (hhigh : s.core.req ch 1 ≤ 3600) :
    exec (.sensorsLogCfg ch) s = .next
      ({ s with core := { s.core with mbx := { s.core.mbx with period := s.core.req ch 1 } } }.reply ch ⟨0, []⟩) := by
  have hperiod : ¬(s.core.req ch 1 < 1 ∨ 3600 < s.core.req ch 1) := by omega
  exact congrArg done (State.serve_replies hruns (if_neg hperiod))

/-- A record of the Almanac leaves the mailboxes (R747). -/
@[simp] theorem Core.almRecord_mbx (k : Core) (kind bts : Nat) (data : List Nat) : (k.almRecord kind bts data).mbx = k.mbx :=
  rfl

/-- Firmware logs the sensors once the period since the last time has passed, and of the mailboxes only that time changes
(R742, R747). -/
theorem completes_sensorLogPeriod (hlive : s.core.live = true) (hrun : s.core.rd R.MBX_MP_STATUS_STATE 0 0 0 = 1)
    (hdue : s.core.mbx.loggedAt + s.core.mbx.period * 1000000000 ≤ s.core.time.now) :
    ∃ k', Completes .sensorLogPeriod s k' ∧ k'.mbx = { s.core.mbx with loggedAt := s.core.time.now } := by
  refine ⟨_, completes_onCore (c := .sensorLogPeriod) _ hlive rfl, ?_⟩
  rw [if_pos ⟨hrun, hdue⟩]
  exact congrArg (fun mbx => { mbx with loggedAt := s.core.time.now })
    (foldl_keeps Core.mbx (fun _ _ => Core.almRecord_mbx _ _ _ _) _ _)

/-! ### The repair map (R583, R586) -/

/-- The map, or the empty one where none stands, goes to a buffer that holds it (R583, R741). -/
theorem exec_repairMapRead (hruns : Runs s ch svcMapRead)
    (hroom : (withDigest (softBytes ((readSoftMap s.flash).getD []))).length ≤ s.core.bufLen ch) :
    exec (.repairMapRead ch true) s = .next ({ s with
      core := s.core.bufOut ch (withDigest (softBytes ((readSoftMap s.flash).getD []))) }.reply ch ⟨0, []⟩) := by
  refine congrArg done (State.serve_replies hruns ?_)
  simp only [not_true, Nat.not_lt.mpr hroom, or_self, if_false]

/-- Whole entries that find room in the map are appended (R583, R586). -/
theorem exec_repairMapAdd {b : List Byte} (hruns : Runs s ch svcMapAdd) (hlen : s.core.bufLen ch ≤ b.length)
    (hwhole : s.core.bufLen ch % 8 = 0) (hsome : s.core.bufLen ch ≠ 0)
    (hroom : ((readSoftMap s.flash).getD []).length + s.core.bufLen ch / 8 ≤ 36864) :
    exec (.repairMapAdd ch (some b)) s = .next ((s.putSoftMap ((readSoftMap s.flash).getD [] ++
      (List.range (s.core.bufLen ch / 8)).map fun i => leAt (b.take (s.core.bufLen ch)) (8 * i) 8)).reply ch ⟨0, []⟩) := by
  have hentries : ¬(s.core.bufLen ch % 8 ≠ 0 ∨ s.core.bufLen ch / 8 = 0) := by omega
  refine congrArg done (State.serve_replies hruns ?_)
  simp only [Core.bufIn_whole hlen, List.length_take_of_le hlen, if_neg hentries, if_neg (Nat.not_lt.mpr hroom)]
  rfl

/-- An entry of the map is taken out by its index (R586, R741). -/
theorem exec_repairMapRemove (hruns : Runs s ch svcMapRemove)
    (hentry : s.core.req ch 1 < ((readSoftMap s.flash).getD []).length) :
    exec (.repairMapRemove ch) s = .next
      ((s.putSoftMap (((readSoftMap s.flash).getD []).eraseIdx (s.core.req ch 1))).reply ch ⟨0, []⟩) :=
  congrArg done (State.serve_replies hruns (if_neg (Nat.not_le.mpr hentry)))

/-! ### Quote and certificate (R701, R725) -/

section
variable {b : List Byte} (hruns : Runs s ch svcQuote)
include hruns

/-- Without an identity there is no quote (R725, R739). -/
theorem exec_quote_not_ready (hready : s.core.rd R.SEC_STATUS_ID_READY 0 0 0 = 0) :
    exec (.quote ch (some b) true) s = .next (s.reply ch ⟨7, []⟩) :=
  congrArg done (State.serve_replies hruns (if_pos hready))

/-- With one, the body over the nonce and its signature go to a buffer that holds them; the signature takes a draw
(R725, R741). -/
theorem exec_quote_signed (hready : s.core.rd R.SEC_STATUS_ID_READY 0 0 0 ≠ 0) (hroom : 3477 ≤ s.core.bufLen ch)
    (hlen : s.core.bufLen ch ≤ b.length) :
    exec (.quote ch (some b) true) s = .next ({ s with core := s.fresh.2.core.bufOut ch (s.quoteBody (b.take 64) ++
      (List.range 3309).map (Config.mldsaSign (idSeed s.core.pack.debugOn) (s.quoteBody (b.take 64)) s.core.time.draws)) }.reply
        ch ⟨0, []⟩) := by
  have hnonce : (b.take (s.core.bufLen ch)).take 64 = b.take 64 := by
    rw [List.take_take, Nat.min_eq_left (Nat.le_trans (by decide) hroom)]
  refine congrArg done (State.serve_replies hruns ?_)
  simp only [Core.bufIn_whole hlen, hnonce, if_neg hready, Nat.not_lt.mpr hroom, not_true, or_self, if_false]
  rfl

end

/-- The certificate's record goes unchanged to a buffer that holds it (R701). -/
theorem exec_certificateGet {d : List Byte} (hruns : Runs s ch svcCert) (hrecord : readRecord s.flash certSlot = some d)
    (hroom : d.length ≤ s.core.bufLen ch) :
    exec (.certificateGet ch true) s = .next ({ s with core := s.core.bufOut ch d }.reply ch ⟨0, []⟩) := by
  refine congrArg done (State.serve_replies hruns ?_)
  simp only [hrecord, Nat.not_lt.mpr hroom, not_true, or_self, if_false]

end

/-- Settles O35: each service's meaning on its case. The places of the sensors' words, and that a rail
not yet read has no value, are the model's choice (log 98). -/
theorem statusSensorsAndRepairMap : Obligations.StatusSensorsAndRepairMap := by
  intro s ch b d k es
  exact ⟨exec_startStatusGet, fun hruns => ⟨exec_sensorsRead_values hruns, exec_sensorsRead_bad hruns⟩, exec_sensorsLogCfg,
    completes_sensorLogPeriod, exec_repairMapRead, exec_repairMapAdd, exec_repairMapRemove,
    fun hruns => ⟨exec_quote_not_ready hruns, exec_quote_signed hruns⟩, exec_certificateGet⟩

end Sys2Proof.Machine
end

section
/-!
SUPPORT. What a step keeps of the records (R696, R709 to R713, R721, R722): fuses are only blown, the flash keeps its
canonical form, the accumulator its 64 bytes and the log its room, and without a reset the log grows at its end.
-/
namespace Sys2Proof.Machine

/-! ### Bits that are only set -/

/-- A bit set stays set under more bits. -/
theorem bitsWithin_or (a x : Nat) : bitsWithin a (a ||| x) :=
  Nat.eq_of_testBit_eq fun i => by rw [Nat.testBit_and, Nat.testBit_or]; cases a.testBit i <;> rfl

/-- Every bit of a word is set in it. -/
theorem bitsWithin_refl (a : Nat) : bitsWithin a a := Nat.and_self a

/-- Set bits stay set over two changes. -/
theorem bitsWithin_trans {a b c : Nat} (hab : bitsWithin a b) (hbc : bitsWithin b c) : bitsWithin a c := by
  rw [bitsWithin, ← hab, Nat.and_assoc, hbc]

namespace Fuses.Grows

/-- Fuses that are left alone are only blown. -/
theorem refl (a : Fuses) : a.Grows a :=
  ⟨rfl, rfl, rfl, rfl, id, fun h => ⟨h, rfl⟩, bitsWithin_refl _, bitsWithin_refl _, bitsWithin_refl _, bitsWithin_refl _, le_rfl,
    le_rfl⟩

/-- Fuses that are only blown twice are only blown. -/
theorem trans {a b c : Fuses} (hab : a.Grows b) (hbc : b.Grows c) : a.Grows c where
  part := hbc.part.trans hab.part
  vendorHash := hbc.vendorHash.trans hab.vendorHash
  repairs := hbc.repairs.trans hab.repairs
  userOff := hbc.userOff.trans hab.userOff
  debugOff h := hbc.debugOff (hab.debugOff h)
  matrixLock h :=
    have hb := hab.matrixLock h
    have hc := hbc.matrixLock hb.1
    ⟨hc.1, hc.2.trans hb.2⟩
  vendorValid := bitsWithin_trans hab.vendorValid hbc.vendorValid
  vendorRevoked := bitsWithin_trans hab.vendorRevoked hbc.vendorRevoked
  ownerValid := bitsWithin_trans hab.ownerValid hbc.ownerValid
  ownerRevoked := bitsWithin_trans hab.ownerRevoked hbc.ownerRevoked
  vendorRb := hab.vendorRb.trans hbc.vendorRb
  ownerRb := hab.ownerRb.trans hbc.ownerRb

end Fuses.Grows

/-! ### The flash keeps its form -/

/-- Removing entries keeps the canonical form above a bound. -/
theorem wfFrom_filter (p : Nat × Nat → Bool) {m : SMap} {b : Nat} (h : SMap.wfFrom (some b) m = true) :
    SMap.wfFrom (some b) (m.filter p) = true := by
  induction m generalizing b with
  | nil => rfl
  | cons e t ih =>
    simp only [SMap.wfFrom, Bool.and_eq_true, decide_eq_true_eq] at h
    obtain ⟨⟨hlt, hne⟩, ht⟩ := h
    rw [List.filter_cons]
    split
    · simp only [SMap.wfFrom, Bool.and_eq_true, decide_eq_true_eq]
      exact ⟨⟨hlt, hne⟩, ih ht⟩
    · exact SMap.wfFrom_mono (ih ht) (Nat.le_of_lt hlt)

/-- Removing entries keeps the canonical form. -/
theorem wf_filter (p : Nat × Nat → Bool) {m : SMap} (h : m.wf = true) : SMap.wf (m.filter p) = true := by
  cases m with
  | nil => rfl
  | cons e t =>
    simp only [SMap.wf, SMap.wfFrom, Bool.and_eq_true] at h
    obtain ⟨hne, ht⟩ := h
    rw [List.filter_cons]
    split
    · simp only [SMap.wf, SMap.wfFrom, Bool.and_eq_true]
      exact ⟨hne, wfFrom_filter p ht⟩
    · exact SMap.wf_of_bound (wfFrom_filter p ht)

/-- Writing bytes keeps the flash in canonical form. -/
theorem flashWrite_wf {f : SMap} (a : Nat) (b : List Byte) (h : f.wf = true) : (flashWrite f a b).wf = true := by
  induction b generalizing f a with
  | nil => exact h
  | cons x t ih => exact ih (a + 1) (SMap.wf_set _ _ h)

/-- Writing a record keeps it too, whichever copy it goes to (R699). -/
theorem writeRecord_wf {f : SMap} (sl : Slot) (b : List Byte) (h : f.wf = true) : (writeRecord f sl b).wf = true := by
  have hput (a : Nat) (bs : List Byte) : (flashWrite f a bs).wf = true := flashWrite_wf a bs h
  unfold writeRecord
  split <;> try split
  all_goals exact hput _ _

/-- So does writing the selector. -/
theorem writeSelector_wf {f : SMap} (x : Selector) (h : f.wf = true) : (writeSelector f x).wf = true :=
  writeRecord_wf _ _ h

/-- So does writing the ageing record. -/
theorem writeAge_wf {f : SMap} (es : List AgeEntry) (h : f.wf = true) : (writeAge f es).wf = true := writeRecord_wf _ _ h

/-- A fold of changes that each keep the canonical form keeps it. -/
theorem foldl_wf {α : Type} {g : SMap → α → SMap} (hg : ∀ f x, f.wf = true → (g f x).wf = true) (l : List α) {f : SMap}
    (h : f.wf = true) : (l.foldl g f).wf = true := List.foldlRecOn l g h fun f hf x _ => hg f x hf

/-- Writing a part of a set to a bank keeps it. -/
theorem SetPart.write_wf (p : SetPart) {f : SMap} (bank : Nat) (h : f.wf = true) : (p.write f bank).wf = true :=
  foldl_wf (fun _ _ hf => flashWrite_wf _ _ hf) _ (flashWrite_wf _ _ h)

/-- Writing a bank keeps it, whatever cells read back otherwise. -/
theorem State.writeBank_wf (s : State) (bank : Nat) (ps : List SetPart) (flaws : List (Nat × Byte)) (h : s.flash.wf = true) :
    (s.writeBank bank ps flaws).flash.wf = true := by
  refine foldl_wf (fun f x hf => ?_) _ (foldl_wf (fun f p hf => p.write_wf bank hf) _ (wf_filter _ h))
  split
  · exact flashWrite_wf _ _ hf
  · exact hf

/-! ### The records over a change -/

/-- From `s` to `t` the records keep their form, and without a reset the log is extended at its end alone. -/
structure State.Keeps (reset : Prop) (s t : State) : Prop where
  fuse : s.fuse.Grows t.fuse
  flash : s.flash.wf = true → t.flash.wf = true
  acc : s.sec.acc.length = 64 → t.sec.acc.length = 64
  room : s.sec.log.length ≤ 2048 → t.sec.log.length ≤ 2048
  log : reset ∨ s.sec.log <+: t.sec.log

namespace State.Keeps

variable {reset : Prop} {s t u : State}

/-- A state that is left alone keeps its records. -/
theorem refl (s : State) : s.Keeps reset s := ⟨.refl _, id, id, id, .inr List.prefix_rfl⟩

/-- Records kept twice are kept. -/
theorem trans (hst : s.Keeps reset t) (htu : t.Keeps reset u) : s.Keeps reset u where
  fuse := hst.fuse.trans htu.fuse
  flash h := htu.flash (hst.flash h)
  acc h := htu.acc (hst.acc h)
  room h := htu.room (hst.room h)
  log := by
    obtain h | h := hst.log
    · exact .inl h
    · exact htu.log.imp_right h.trans

/-- A change of the core leaves the records. -/
theorem core (h : s.Keeps reset t) (k : Core) : s.Keeps reset { t with core := k } := ⟨h.fuse, h.flash, h.acc, h.room, h.log⟩

/-- A change of the flash that keeps its form keeps the records. -/
theorem withFlash (h : s.Keeps reset t) {f : SMap} (k : Core) (hf : t.flash.wf = true → f.wf = true) :
    s.Keeps reset { t with flash := f, core := k } := ⟨h.fuse, fun hs => hf (h.flash hs), h.acc, h.room, h.log⟩

/-- Fuses that are only blown keep the records. -/
theorem withFuse (h : s.Keeps reset t) {f : Fuses} (k : Core) (hf : t.fuse.Grows f) :
    s.Keeps reset { t with fuse := f, core := k } := ⟨h.fuse.trans hf, h.flash, h.acc, h.room, h.log⟩

/-- A meaning over the core keeps them. -/
theorem onCore (h : s.Keeps reset t) (f : Core → Core) : s.Keeps reset (t.onCore f) := by
  obtain ⟨-, heq⟩ | ⟨-, heq⟩ := t.onCore_cases f <;> rw [heq]
  · exact h.core _
  · exact h

/-- A fold of changes that each keep the records keeps them. -/
theorem foldl {α : Type} {g : State → α → State} (h : s.Keeps reset t) (l : List α)
    (hg : ∀ (u : State) x, u.Keeps reset (g u x)) : s.Keeps reset (l.foldl g t) := List.foldlRecOn l g h fun u hu x _ => hu.trans (hg u x)

/-- Either branch of a choice keeps the records. -/
theorem ite {p : Prop} [Decidable p] (ht : p → s.Keeps reset t) (hu : ¬p → s.Keeps reset u) :
    s.Keeps reset (if p then t else u) := by
  split
  · next h => exact ht h
  · next h => exact hu h

end State.Keeps

end Sys2Proof.Machine
end

section
/-!
SUPPORT. What each meaning keeps of the records, and that a part that does not run stands (R671, R683).
-/
namespace Sys2Proof.Machine

@[simp] theorem length_shake64 (b : List Byte) : (shake64 b).length = 64 := by simp [shake64]

namespace State.Keeps

variable {reset : Prop} {s t : State}

/-! ### Measuring (R722) -/

/-- Extending the accumulator with an entry keeps the records: the entry stands at the log's end, or finds no room. -/
theorem extend (h : s.Keeps reset t) (e : List Byte) : s.Keeps reset (t.extend e) := by
  refine h.trans ⟨.refl _, id, fun _ => length_shake64 _, fun hroom => ?_, .inr ?_⟩
  · simp only [State.extend, decide_eq_true_eq]
    split
    · next hlt => exact List.length_append.trans_le hlt
    · exact hroom
  · simp only [State.extend, decide_eq_true_eq]
    split
    · exact List.prefix_append _ _
    · exact List.prefix_rfl

/-! ### Replies -/

/-- An open code takes a draw of the core alone. -/
theorem openCode (h : s.Keeps reset t) (st : Nat) : s.Keeps reset (t.openCode st).1 := h.core _

/-- A burn is answered with a change of the core alone (R710). -/
theorem burned (h : s.Keeps reset t) (ok : Bool) : s.Keeps reset (t.burned ok).1 := by
  unfold State.burned
  split
  · exact h
  · exact (h.core _).openCode 6

/-- The selector keeps the records. -/
theorem select (h : s.Keeps reset t) (x : Selector) : s.Keeps reset (t.select x) := h.withFlash _ (writeSelector_wf x)

/-- A bank written keeps them. -/
theorem writeBank (h : s.Keeps reset t) (bank : Nat) (ps : List SetPart) (flaws : List (Nat × Byte)) :
    s.Keeps reset (t.writeBank bank ps flaws) := h.withFlash _ (t.writeBank_wf bank ps flaws)

/-! ### The start (R688) -/

/-- The boot ROM measures and writes the selector (R715, R723). -/
theorem bootRom (h : s.Keeps reset t) : s.Keeps reset t.bootRom.1 := by
  have hsel := (h.withFlash (f := if (readSelector t.flash).atStart.2.1 then
    writeSelector t.flash (readSelector t.flash).atStart.1 else t.flash)
      ((t.core.wr R.SEC_STATUS_ID_READY 0 0 0 1).wr R.SEC_STATUS_TRIAL 0 0 0 ((readSelector t.flash).atStart.1.trial % 2))
        fun hf => by
          split
          · exact writeSelector_wf _ hf
          · exact hf)
  unfold State.bootRom
  dsimp only
  split
  · exact (((hsel.extend _).extend _).extend _).core _
  · exact (hsel.extend _).core _

/-- Reading the records may begin the ageing record anew (R654). -/
theorem readRecords (h : s.Keeps reset t) : s.Keeps reset t.readRecords := by
  refine h.withFlash _ fun hf => ?_
  split
  · exact hf
  · exact writeAge_wf _ hf

/-- Loading the patches measures them (R723). -/
theorem loadPatches (h : s.Keeps reset t) : s.Keeps reset t.loadPatches.1 := by
  unfold State.loadPatches
  split
  · exact ((h.extend _).extend _).core _
  · exact h.core _

/-- The boot program's images and the owner manifest are measured (R718, R723). -/
theorem bootProgram (h : s.Keeps reset t) : s.Keeps reset t.bootProgram := by
  unfold State.bootProgram
  dsimp only
  have hmeasured (p : Prop) [Decidable p] (k : Core) (e : List Byte) :
      s.Keeps reset (if p then State.extend { t with core := k } e else { t with core := k }) :=
    .ite (fun _ => (h.core k).extend e) fun _ => h.core k
  split
  · exact (((hmeasured _ _ _).core _).extend _).core _
  · split
    · exact ((hmeasured _ _ _).extend _).core _
    · exact (hmeasured _ _ _).core _

/-- What the boot ROM leaves, by its outcome. -/
theorem of_bootRom {u : State} {ok : Bool} (hrom : t.bootRom = (u, ok)) (h : s.Keeps reset t) : s.Keeps reset u := by
  have hrun := h.bootRom
  rwa [hrom] at hrun

/-- What the loading of the patches leaves, by its outcome. -/
theorem of_loadPatches {u : State} {ok : Bool} (hload : t.loadPatches = (u, ok)) (h : s.Keeps reset t) : s.Keeps reset u := by
  have hrun := h.loadPatches
  rwa [hload] at hrun

/-- The start keeps the records, wherever it stops (R688, R691). -/
theorem start (h : s.Keeps reset t) (x : StartFacts) : s.Keeps reset (t.start x) := by
  unfold State.start
  dsimp only
  refine .ite (fun _ => h.core _) fun _ => .ite (fun _ => h.core _) fun _ => .ite (fun _ => h.core _) fun _ =>
    .ite (fun _ => h.core _) fun _ => .ite (fun _ => h.core _) fun _ => ?_
  split
  · next hrom => exact of_bootRom hrom (h.core _)
  · next s6 hrom =>
    have h6 := of_bootRom hrom (h.core _)
    have h8 : s.Keeps reset s6.readRecords.applyRepairs := h6.readRecords.core _
    refine .ite (fun _ => h6.core _) fun _ => .ite (fun _ => h6.readRecords.core _) fun _ => .ite (fun _ => h8.core _) fun _ =>
      .ite (fun _ => h8.core _) fun _ => .ite (fun _ => h8.core _) fun _ => .ite (fun _ => h8.core _) fun _ => ?_
    split
    · next hload => exact of_loadPatches hload (h8.core _)
    · next s11 hload =>
      have h11 := of_loadPatches hload (h8.core _)
      exact .ite (fun _ => h11.core _) fun _ => .ite (fun _ => h11.core _) fun _ =>
        .ite (fun _ => (h11.core _).bootProgram.core _) fun _ => (h11.core _).bootProgram.core _

end State.Keeps

end Sys2Proof.Machine
end

section
/-!
SUPPORT. Resets, trips and burns: what each keeps of the records.
-/
namespace Sys2Proof.Machine

/-! ### Burns (R709 to R713) -/

/-- A burn keeps the bits that are set. -/
theorem bitsWithin_burn (old new mask : Nat) (ok : Bool) : bitsWithin old (burn old new mask ok) := bitsWithin_or _ _

/-- A burn never lowers a counter (R712). -/
theorem le_burnCount (old new mask : Nat) (ok : Bool) : old ≤ burnCount old new mask ok := by
  unfold burnCount
  split
  · exact le_max_left _ _
  · exact Nat.le_add_right _ _

namespace State.Keeps

variable {reset : Prop} {s t : State}

/-- The fuse-lock service burns an unlocked matrix alone, and DEBUG_OFF only on (R713). -/
theorem fuseLock (h : s.Keeps reset t) (mx : Option (List Nat)) (debug ok : Bool) :
    s.Keeps reset (t.fuseLock mx debug ok).1 := by
  unfold State.fuseLock
  split
  · exact h
  split
  · exact h.openCode 2
  · next hlock =>
    refine (h.withFuse _ ?_).burned ok
    have hdebug (f : Fuses) (hf : t.fuse.Grows f) (x : Nat) :
        t.fuse.Grows (if debug then { f with debugOff := f.debugOff || ok || bit x 321 == 1 } else f) := by
      split
      · exact { hf with debugOff := fun hoff => by simp [hf.debugOff hoff] }
      · exact hf
    refine hdebug _ ?_ _
    cases mx with
    | none => exact .refl _
    | some n =>
      have hopen : t.fuse.matrixLock = false := by simp at hlock; exact hlock.1
      exact { Fuses.Grows.refl t.fuse with matrixLock := fun hlocked => absurd (hopen.symm.trans hlocked) (by decide) }

/-! ### Resets (R683, R720, R721) -/

/-- A reset of the part zeroes the measurements: it is a reset (R721). -/
theorem partReset (hreset : reset) (h : s.Keeps reset t) (cause : Nat) : s.Keeps reset (t.partReset cause) :=
  ⟨h.fuse, h.flash, fun _ => List.length_replicate, fun _ => Nat.zero_le _, .inl hreset⟩

/-- A warm reset starts the part again (R683). -/
theorem warm (hreset : reset) (h : s.Keeps reset t) (cause : Nat) (x : StartFacts) : s.Keeps reset (t.warm cause x) :=
  (h.partReset hreset cause).start x

/-- The release of cold reset clears the trip's record alone of the fuses (R694, R714). -/
theorem coldRelease (h : s.Keeps reset t) (x : StartFacts) : s.Keeps reset (t.coldRelease x) :=
  h.withFuse _ { Fuses.Grows.refl t.fuse with }

/-- A thermal trip sets its record alone of the fuses (R679). -/
theorem trip (h : s.Keeps reset t) : s.Keeps reset t.trip :=
  .ite (fun _ => h) fun _ => h.withFuse _ { Fuses.Grows.refl t.fuse with }

/-- The boot ROM after an MP reset measures and runs firmware, or halts (R720). -/
theorem mpRestart (h : s.Keeps reset t) : s.Keeps reset t.mpRestart := by
  unfold State.mpRestart
  dsimp only
  split
  · exact ((h.extend _).extend _).core _
  · exact (h.extend _).core _

/-- The end of a program change measures it (R175, R723). -/
theorem endChange (h : s.Keeps reset t) (c : Change) : s.Keeps reset (t.endChange c) :=
  have hreply : s.Keeps reset ((State.measureImage _ 4 c.man c.entry).reply c.ch ⟨0, []⟩) := (((h.core _).extend _).extend _).core _
  .ite (fun _ => hreply.core _) fun _ => hreply

/-- An ageing measurement writes the ageing record (R649). -/
theorem measureAge (h : s.Keeps reset t) (as : List AgeReading) : s.Keeps reset (t.measureAge as) :=
  h.withFlash _ fun hf => writeAge_wf _ hf

end State.Keeps

/-! ### What a command does -/

/-- From `s` to `t` a command acts: on a part that does not run it does nothing, and the records keep their form. -/
structure State.Acts (reset : Prop) (s t : State) : Prop where
  stopped : s.core.live = false → t = s
  keeps : s.Keeps reset t

namespace State.Acts

variable {reset : Prop} {s t u : State}

/-- Nothing is done. -/
theorem refl (s : State) : s.Acts reset s := ⟨fun _ => rfl, .refl s⟩

/-- One act after another is one. -/
theorem trans (hst : s.Acts reset t) (htu : t.Acts reset u) : s.Acts reset u where
  stopped hdead := by
    obtain rfl := hst.stopped hdead
    exact htu.stopped hdead
  keeps := hst.keeps.trans htu.keeps

/-- What only a part that runs does. -/
theorem ifLive {p : Prop} [Decidable p] (hp : p → s.core.live = true) (ht : p → s.Keeps reset t) :
    s.Acts reset (if p then t else s) where
  stopped hdead := if_neg fun h => absurd ((hp h).symm.trans hdead) (by decide)
  keeps := .ite ht fun _ => .refl s

/-- Either branch of a choice is an act. -/
theorem ite {p : Prop} [Decidable p] (ht : p → s.Acts reset t) (hu : ¬p → s.Acts reset u) :
    s.Acts reset (if p then t else u) := by
  split
  · next h => exact ht h
  · next h => exact hu h

/-- A meaning over the core is an act. -/
theorem onCore (s : State) (f : Core → Core) : s.Acts reset (s.onCore f) :=
  ⟨s.onCore_dead f, (Keeps.refl s).onCore f⟩

/-- So is a register write through a window or the broadcast window. -/
theorem writeVia (s : State) (m : Master) (broadcast : Bool) (d page off : Nat) (f : Core → Core) :
    s.Acts reset (s.writeVia m broadcast d page off f) := .ite (fun _ => .onCore s _) fun _ => .onCore s _

/-- A fold of acts is one. -/
theorem foldl {α : Type} {g : State → α → State} (l : List α) (hg : ∀ (u : State) x, u.Acts reset (g u x)) (s : State) :
    s.Acts reset (l.foldl g s) := List.foldlRecOn l g (.refl s) fun u hu x _ => hu.trans (hg u x)

/-- A service that keeps the records is an act: firmware works on requests of a part that runs alone. -/
theorem serve {ch : Nat} {sv : Service} {f : State → State × Option Reply} (hf : s.Keeps reset (f s).1) :
    s.Acts reset (s.serve ch sv f) where
  stopped hdead := if_pos (by simp [Core.working, hdead])
  keeps := by
    refine .ite (fun _ => .refl s) fun _ => ?_
    split
    · exact (Keeps.refl s).core _
    · split
      · next heq => rw [heq] at hf; exact hf.core _
      · next heq => rw [heq] at hf; exact hf

/-- An accepted write of PAG_RESET is an act (R693). -/
theorem resetWrite (m : Master) (key : Nat) {f : State → State} (hf : m = .mp ∨ m = .pf 0 → s.Keeps reset (f s)) :
    s.Acts reset (s.resetWrite m key f) where
  stopped hdead := if_pos (by simp [hdead])
  keeps := by
    refine .ite (fun _ => .refl s) fun _ => ?_
    split
    · exact .refl s
    · exact (Keeps.refl s).core _
    · refine .ite (fun _ => (Keeps.refl s).core _) fun hm => .ite (fun _ => (Keeps.refl s).core _) fun _ => hf ?_
      by_contra hother
      exact hm (not_or.mp hother)

end State.Acts

end Sys2Proof.Machine
end

section
/-!
SUPPORT. Register writes that are commands of their own act as those commands do (R77, R91).
-/
namespace Sys2Proof.Machine

variable {reset : Prop}

/-- What a command leaves is an act where its outcome is one. -/
theorem State.Acts.after {o : Host.Outcome State Fault Refusal} {s t : State} (ho : o = done t) (ht : s.Acts reset t) :
    s.Acts reset (after o s) := by
  rw [ho]
  exact ht

/-- So is what a command over the core leaves. -/
theorem State.Acts.afterCore {o : Host.Outcome State Fault Refusal} {s : State} {f : Core → Core} (ho : o = done (s.onCore f)) :
    s.Acts reset (Machine.after o s) := .after ho (.onCore s f)

/-- The commands of the header's registers, of scrub and self-test, and of the halves of 64-bit values. -/
theorem everyOwn_acts (m : Master) (w : Fin 9) (page off : Nat) (v : Word) (s : State) :
    s.Acts reset (everyOwn m w page off v s) := by
  unfold everyOwn
  dsimp only
  refine .ite (fun _ => .afterCore rfl) fun _ => .ite (fun _ => .afterCore rfl) fun _ => .ite (fun _ => .afterCore rfl) fun _ =>
    .ite (fun _ => ?_) fun _ => .ite (fun _ => .afterCore rfl) fun _ => ?_
  · have hgo : s.Acts reset (if bit v.toNat 31 = 1 then Machine.after (execScrubGo m w s) s else s) :=
      .ite (fun _ => .afterCore rfl) fun _ => .refl s
    exact .ite (fun _ => hgo.trans (.afterCore rfl)) fun _ => hgo
  · split
    · exact .ite (fun _ => .onCore s _) fun _ => .refl s
    · exact .ite (fun _ => .onCore s _) fun _ => .refl s
    · exact .refl s

/-- The commands of a port die's registers. -/
theorem ownWrite_acts (m : Master) (d : Fin 8) (page off : Nat) (v : Word) (s : State) :
    s.Acts reset (ownWrite m d page off v s) := by
  unfold ownWrite
  dsimp only
  refine .ite (fun _ => ?_) fun _ => .ite (fun _ => .afterCore rfl) fun _ => .ite (fun _ => .afterCore rfl) fun _ =>
    .ite (fun _ => .afterCore rfl) fun _ => .ite (fun _ => .onCore s _) fun _ => .ite (fun _ => .onCore s _) fun _ =>
    .ite (fun _ => .ite (fun _ => .afterCore rfl) fun _ => .ite (fun _ => .afterCore rfl) fun _ => .refl s) fun _ =>
    .ite (fun _ => .afterCore rfl) fun _ => .ite (fun _ => .afterCore rfl) fun _ => .ite (fun _ => .afterCore rfl) fun _ =>
    .ite (fun _ => .afterCore rfl) fun _ => .ite (fun _ => .afterCore rfl) fun _ => .ite (fun _ => .afterCore rfl) fun _ =>
    .ite (fun _ => .afterCore rfl) fun _ => everyOwn_acts m _ page off v s
  have hin : s.Acts reset
      (if bit v.toNat 0 = 1 then Machine.after (execEpochFlipIn m d (Fin.ofNat 8 (page - 0x08)) s) s else s) :=
    .ite (fun _ => .afterCore rfl) fun _ => .refl s
  exact .ite (fun _ => hin.trans (.afterCore rfl)) fun _ => hin

/-- The commands of the lookup tables' registers. -/
theorem tableOwn_acts {m : Master} {d : Fin 8} {page off v : Nat} {s t : State} (ht : tableOwn m d page off v s = some t) :
    s.Acts reset t := by
  have hvia {o : Host.Outcome State Fault Refusal} {p q : Nat} {f : Core → Core}
      (ho : o = done (s.writeVia m false d p q f)) : s.Acts reset (Machine.after o s) := .after ho (.writeVia s m false d p q f)
  unfold tableOwn at ht
  dsimp only at ht
  split at ht
  · cases ht
    exact .ite (fun _ => .writeVia s _ _ _ _ _ _) fun _ => .refl s
  split at ht
  · cases ht
    split
    case h_6 =>
      split
      · exact hvia rfl
      · exact hvia rfl
      · exact hvia rfl
      · exact .refl s
    case h_7 | h_8 | h_9 =>
      split
      · exact .refl s
      · exact hvia rfl
    case h_10 => exact .refl s
    all_goals exact hvia rfl
  split at ht
  · cases ht
    exact hvia rfl
  · cases ht

/-- An accepted write of PAG_RESET resets the MP (R693). -/
theorem mpResetWrite_acts (m : Master) (key : Nat) (s : State) :
    s.Acts reset (s.resetWrite m key fun s => ({ s with core := s.core.mpReset 0 }).mpRestart) :=
  .resetWrite m key fun _ => ((State.Keeps.refl s).core _).mpRestart

/-- The MP's MEAS_EXTEND extends the accumulator; another master's access ends in an error (R722, R729). -/
theorem measExtend_acts (m : Master) (s : State) : s.Acts reset (after (execMeasExtend m s) s) where
  stopped hdead := if_pos (by simp [hdead])
  keeps := by
    refine .ite (fun _ => .refl s) fun _ => ?_
    split
    · exact .ite (fun _ => (State.Keeps.refl s).extend _) fun _ => (State.Keeps.refl s).onCore _
    · exact .refl s
    · exact (State.Keeps.refl s).onCore _

/-- The commands of the Meridian die's registers: a reset of the part among them, of PAG_RESET by PF0 or the MP (R693). -/
theorem meridianOwn_acts (m : Master) (page off : Nat) (v : Word) (x : StartFacts) (s : State)
    (hreset : page = 0 → m = .mp ∨ m = .pf 0 → reset) : s.Acts reset (meridianOwn m page off v x s) := by
  unfold meridianOwn
  dsimp only
  refine .ite (fun hpag => .ite (fun _ => ?_) fun _ => .ite (fun _ => ?_) fun _ => .refl s) fun _ =>
    .ite (fun _ => .afterCore rfl) fun _ => .ite (fun _ => .afterCore rfl) fun _ => .ite (fun _ => .afterCore rfl) fun _ =>
    .ite (fun _ => .afterCore rfl) fun _ => .ite (fun _ => .afterCore rfl) fun _ => .ite (fun _ => .afterCore rfl) fun _ =>
    .ite (fun _ => .afterCore rfl) fun _ => .ite (fun _ => .afterCore rfl) fun _ => .ite (fun _ => .afterCore rfl) fun _ =>
    .ite (fun _ => .afterCore rfl) fun _ =>
    .ite (fun _ => .ite (fun _ => .afterCore rfl) fun _ => .afterCore rfl) fun _ => .ite (fun _ => ?_) fun _ =>
    .ite (fun _ => ?_) fun _ => .ite (fun _ => .afterCore rfl) fun _ => everyOwn_acts m 0 page off v s
  · exact .after rfl (.resetWrite m _ fun hm => (State.Keeps.refl s).warm (hreset hpag.1 hm) 3 x)
  · exact .after rfl (mpResetWrite_acts m _ s)
  · exact .after rfl (measExtend_acts m s)
  · generalize Fin.ofNat 13 (page - 0xB0) = ch
    have hbit (b : Nat) (f : State → Host.Outcome State Fault Refusal) (hf : ∀ u : State, u.Acts reset (Machine.after (f u) u))
        {u : State} (hu : s.Acts reset u) : s.Acts reset (if bit v.toNat b = 1 then Machine.after (f u) u else u) :=
      .ite (fun _ => hu.trans (hf u)) fun _ => hu
    have hgo := hbit 31 (execMbxGo m ch) (fun _ => .afterCore rfl) (.refl s)
    have hrelease := hbit 30 (execMbxRelease m ch) (fun _ => .afterCore rfl) hgo
    have htake := hbit 1 (execMbxTake m (some ch)) (fun _ => .afterCore rfl) hrelease
    exact hbit 0 (execMbxDone m ch) (fun _ => .afterCore rfl) htake

end Sys2Proof.Machine
end

section
/-!
SUPPORT. Every command but those of the pins acts: it does nothing to a part that does not run, and the records keep their form.
-/
namespace Sys2Proof.Machine

/-! ### Register writes (R77, R91) and the broadcast window (R72) -/

section
variable {reset : Prop}

/-- One register write through a die window acts. -/
theorem State.regWrite_acts (s : State) (m : Master) (w page off : Nat) (v : Word) (x : StartFacts)
    (hreset : w = 0 → page = 0 → m = .mp ∨ m = .pf 0 → reset) : s.Acts reset (s.regWrite m w page off v x) := by
  have hfields : s.Acts reset (s.write m w page off fun k => k.writeReg m w page off v.toNat) := .onCore s _
  unfold State.regWrite
  refine .ite (fun hw => hfields.trans (meridianOwn_acts m page off v x _ (hreset hw))) fun _ => ?_
  split
  · next htable => exact hfields.trans (tableOwn_acts htable)
  · exact hfields.trans (ownWrite_acts m _ page off v _)

/-- A fold that carries an offset beside the state, each step of which acts, acts. -/
theorem acts_foldl_snd {α : Type} {g : Nat × State → α → Nat × State} (hg : ∀ (y : Nat × State) (x : α), y.2.Acts reset (g y x).2) (l : List α)
    (y : Nat × State) : y.2.Acts reset (l.foldl g y).2 :=
  List.foldlRecOn (motive := fun z => y.2.Acts reset z.2) l g (.refl y.2) fun z hz x _ => hz.trans (hg z x)

/-- A command of the whole part, written through the broadcast window, acts (R72, R299). -/
theorem broadcastOnce_acts {m : Master} {page off v : Nat} {s t : State} (ht : broadcastOnce m page off v s = some t) :
    s.Acts reset t := by
  have hvia {o : Host.Outcome State Fault Refusal} {p q : Nat} {f : Core → Core}
      (ho : o = done (s.writeVia m true 0 p q f)) : s.Acts reset (after o s) := .after ho (.writeVia s m true 0 p q f)
  unfold broadcastOnce at ht
  dsimp only at ht
  split at ht
  · cases ht
    exact .writeVia s _ _ _ _ _ _
  split at ht
  · cases ht
    exact hvia rfl
  split at ht
  · cases ht
    exact hvia rfl
  · cases ht

/-- One register write through the broadcast window acts. -/
theorem State.broadcast_acts (s : State) (m : Master) (page o : Nat) (v : Word) : s.Acts reset (s.broadcast m page o v) where
  stopped hdead := if_pos (by simp [hdead])
  keeps := by
    refine .ite (fun _ => .refl s) fun _ => ?_
    split
    · exact .refl s
    · exact (State.Keeps.refl s).core _
    · split
      · next honce => exact (broadcastOnce_acts honce).keeps
      · exact (State.Acts.foldl _ (fun u d => (State.Acts.onCore u _).trans (ownWrite_acts m _ page o v _)) s).keeps

end

/-! ### All commands -/

/-- A command that may reset the part, and with it the measurements (R683, R693, R721). -/
def mayReset (c : Instr) : Prop :=
  c = .pwrGoodLoss ∨ c = .sysRstAssert ∨ (∃ by' x, c = .warmReset by' x) ∨
    ∃ m a v more x, c = .registerWrite m a v more x ∧ (m = .mp ∨ m = .pf 0) ∧
      (splitAddr a.toNat).1 = 0 ∧ (splitAddr a.toNat).2.1 = 0

/-- A command of the part's power, reset, host-port and throttle pins, which act on a part that does not run too (R692). -/
def ofPins (c : Instr) : Prop :=
  (∃ perst x, c = .powerUp perst x) ∨ c = .pwrGoodLoss ∨ c = .sysRstAssert ∨ (∃ x, c = .sysRstRelease x) ∨
    c = .extThrotAssert ∨ c = .extThrotDeassert ∨ (∃ perst, c = .hostPortReset perst) ∨ c = .perstDeassert

/-- The command leads to a next state, and acts. -/
def ActsAs (c : Instr) (s : State) : Prop := ∃ t, exec c s = .next t ∧ s.Acts (mayReset c) t

variable {c : Instr} {s : State}

/-- A command acts where its outcome is an act. -/
theorem ActsAs.of_done {t : State} (ho : exec c s = done t) (ht : s.Acts (mayReset c) t) : ActsAs c s := ⟨t, ho, ht⟩

/-- A meaning over the core acts. -/
theorem ActsAs.of_core {f : Core → Core} (ho : exec c s = done (s.onCore f)) : ActsAs c s := .of_done ho (.onCore s f)

/-- A service acts where what it does when it runs keeps the records. -/
theorem ActsAs.of_serve {ch : Nat} {sv : Service} {f : State → State × Option Reply} (ho : exec c s = done (s.serve ch sv f))
    (hf : s.Keeps (mayReset c) (f s).1) : ActsAs c s := .of_done ho (.serve hf)

/-- REGISTER_WRITE acts, a reset among what it may bring about. -/
theorem registerWrite_acts (m : Master) (a : BitVec 28) (v : Word) (more : List Word) (x : StartFacts) (s : State) :
    ActsAs (.registerWrite m a v more x) s := by
  obtain ⟨w, page, off, hsplit⟩ : ∃ w page off, splitAddr a.toNat = (w, page, off) := ⟨_, _, _, rfl⟩
  by_cases hreg : off % 4 = 0 ∧ w ≤ 8
  · have hword (off : Nat) (u : State) (v' : Word) : u.Acts (mayReset (.registerWrite m a v more x)) (u.regWrite m w page off v' x) :=
      u.regWrite_acts m w page off v' x fun hw hpage hm =>
        .inr (.inr (.inr ⟨m, a, v, more, x, rfl, hm, by rw [hsplit, hw], by rw [hsplit, hpage]⟩))
    refine .of_done (exec_registerWrite hsplit hreg.1 hreg.2 s m v more x) ((hword off s v).trans ?_)
    exact acts_foldl_snd (fun y v' => .ite (fun _ => hword y.1 y.2 v') fun _ => .refl y.2) _ (off + 4, _)
  · have hout : off % 4 ≠ 0 ∨ 9 ≤ w := by omega
    refine .of_done ?_ (.refl s)
    simp only [exec, execRegisterWrite, hsplit, if_pos hout]

/-- BROADCAST_WRITE acts. -/
theorem broadcastWrite_acts (m : Master) (a : BitVec 24) (v : Word) (more : List Word) (s : State) :
    ActsAs (.broadcastWrite m a v more) s := by
  obtain ⟨w, page, o, hsplit⟩ : ∃ w page o, splitAddr a.toNat = (w, page, o) := ⟨_, _, _, rfl⟩
  have hwords := acts_foldl_snd (reset := mayReset (.broadcastWrite m a v more))
    (g := fun (y : Nat × State) v => (y.1 + 4, if y.1 < 4096 then y.2.broadcast m page y.1 v else y.2))
    (fun y v => .ite (fun _ => y.2.broadcast_acts m page y.1 v) fun _ => .refl y.2) (more.take 15) (o + 4, s.broadcast m page o v)
  by_cases halign : o % 4 = 0
  · refine .of_done ?_ ((s.broadcast_acts m page o v).trans hwords)
    simp only [exec, execBroadcastWrite, hsplit, halign, ne_eq, not_true, if_false]
  · refine .of_done ?_ (.refl s)
    simp only [exec, execBroadcastWrite, hsplit, if_pos halign]

/-- BROADCAST_READ acts. -/
theorem broadcastRead_acts (m : Master) (a : BitVec 24) (s : State) : ActsAs (.broadcastRead m a) s := by
  simp only [ActsAs, exec, execBroadcastRead]
  split
  · exact ⟨s, rfl, .refl s⟩
  · exact ⟨_, rfl, .onCore s _⟩

/-- RC_READ_CLEAR acts. -/
theorem rcReadClear_acts (m : Master) (a : BitVec 28) (more : Fin 16) (s : State) : ActsAs (.rcReadClear m a more) s := by
  simp only [ActsAs, exec, execRcReadClear]
  split
  · exact ⟨s, rfl, .refl s⟩
  · exact ⟨_, rfl, .foldl _ (fun u _ => .ite (fun _ => .onCore u _) fun _ => .refl u) s⟩

/-- LOW_HALF_READ_LATCH acts. -/
theorem lowHalfReadLatch_acts (m : Master) (a : BitVec 28) (both : Bool) (s : State) : ActsAs (.lowHalfReadLatch m a both) s := by
  simp only [ActsAs, exec, execLowHalfReadLatch]
  split
  · exact ⟨s, rfl, .refl s⟩
  · exact ⟨_, rfl, .onCore s _⟩

/-- LOW_HALF_WRITE_HOLD acts. -/
theorem lowHalfWriteHold_acts (m : Master) (a : BitVec 28) (v : Word) (s : State) : ActsAs (.lowHalfWriteHold m a v) s := by
  simp only [ActsAs, exec, execLowHalfWriteHold]
  split
  · exact ⟨s, rfl, .refl s⟩
  split
  · exact ⟨s, rfl, .refl s⟩
  split
  · exact ⟨_, rfl, .onCore s _⟩
  · exact ⟨s, rfl, .refl s⟩

/-- HIGH_HALF_WRITE acts. -/
theorem highHalfWrite_acts (m : Master) (a : BitVec 28) (v : Word) (s : State) : ActsAs (.highHalfWrite m a v) s := by
  simp only [ActsAs, exec, execHighHalfWrite]
  split
  · exact ⟨s, rfl, .refl s⟩
  split
  · exact ⟨s, rfl, .refl s⟩
  split
  · exact ⟨_, rfl, .onCore s _⟩
  · exact ⟨s, rfl, .refl s⟩

/-- A start of an indirect operation acts. -/
theorem indStart_acts {reset : Prop} (m : Master) (w tab p : Nat) (write autoinc : Bool) (s : State) :
    s.Acts reset (indStart m w tab p write autoinc s) := by
  unfold indStart
  split
  · exact .ite (fun _ => .onCore s _) fun _ => .refl s
  · exact .refl s

/-- MBX_TAKE acts. -/
theorem mbxTake_acts (m : Master) (ch : Option (Fin 13)) (s : State) : ActsAs (.mbxTake m ch) s := by
  cases ch with
  | some ch => exact .of_core rfl
  | none =>
    refine .of_done rfl ?_
    dsimp only
    split
    · exact .onCore s _
    · exact .refl s

end Sys2Proof.Machine
end

section
/-!
SUPPORT. The services keep the records (R740), and with them every command but those of the pins acts.
-/
namespace Sys2Proof.Machine

variable {reset : Prop}

/-! ### Changes of the core alone -/

/-- The second state differs from the first in the core alone. -/
def State.CoreOnly (s t : State) : Prop := ∃ k, t = { s with core := k }

/-- Such a change keeps the records. -/
theorem State.CoreOnly.keeps {s t : State} (h : s.CoreOnly t) : s.Keeps reset t := by
  obtain ⟨k, rfl⟩ := h
  exact (State.Keeps.refl s).core k

/-- An open code takes a draw of the core alone. -/
theorem State.openCode_coreOnly (s : State) (st : Nat) : s.CoreOnly (s.openCode st).1 := ⟨_, rfl⟩

/-- PROGRAM_CHANGE_LOAD changes the core alone, whether it is refused, fails or starts (R175). -/
theorem State.load_coreOnly (s : State) (ch : Nat) (b : List Byte) (bad : Option (Nat × Nat)) :
    s.CoreOnly (s.load ch b bad).1 := by
  unfold State.load
  dsimp only
  repeat' split
  all_goals exact ⟨_, rfl⟩

/-- Staging changes the core alone (R726). -/
theorem State.stage_coreOnly {s t : State} {o : Nat} {b : List Byte} (ht : s.stage o b = some t) : s.CoreOnly t := by
  unfold State.stage at ht
  split at ht
  · cases ht
  · exact ⟨_, (Option.some.inj ht).symm⟩

variable (s : State)

/-! ### Services that change the core alone -/

/-- PROGRAM_CHANGE_LOAD acts. -/
theorem programChangeLoad_acts (ch : Fin 13) (buf : Option (List Byte)) (bad : Option (Fin 18 × Fin 2048)) :
    ActsAs (.programChangeLoad ch buf bad) s := by
  refine .of_serve rfl (State.CoreOnly.keeps ?_)
  split
  · exact ⟨_, rfl⟩
  split
  · exact ⟨_, rfl⟩
  · exact s.load_coreOnly _ _ _

/-- PROGRAM_CHANGE_RESTORE acts. -/
theorem programChangeRestore_acts (ch : Fin 13) : ActsAs (.programChangeRestore ch) s := by
  refine .of_serve rfl (State.CoreOnly.keeps ?_)
  dsimp only
  repeat' split
  all_goals exact ⟨_, rfl⟩

/-- SENSORS_READ acts. -/
theorem sensorsRead_acts (ch : Fin 13) : ActsAs (.sensorsRead ch) s := by
  refine .of_serve rfl (State.CoreOnly.keeps ?_)
  dsimp only
  split <;> exact ⟨_, rfl⟩

/-- SENSORS_LOG_CFG acts. -/
theorem sensorsLogCfg_acts (ch : Fin 13) : ActsAs (.sensorsLogCfg ch) s := by
  refine .of_serve rfl (State.CoreOnly.keeps ?_)
  dsimp only
  split <;> exact ⟨_, rfl⟩

/-- REPAIR_MAP_READ acts. -/
theorem repairMapRead_acts (ch : Fin 13) (writeOk : Bool) : ActsAs (.repairMapRead ch writeOk) s := by
  refine .of_serve rfl (State.CoreOnly.keeps ?_)
  dsimp only
  split <;> exact ⟨_, rfl⟩

/-- QUOTE acts. -/
theorem quote_acts (ch : Fin 13) (buf : Option (List Byte)) (writeOk : Bool) : ActsAs (.quote ch buf writeOk) s := by
  refine .of_serve rfl (State.CoreOnly.keeps ?_)
  dsimp only
  repeat' split
  all_goals exact ⟨_, rfl⟩

/-- CERTIFICATE_GET acts. -/
theorem certificateGet_acts (ch : Fin 13) (writeOk : Bool) : ActsAs (.certificateGet ch writeOk) s := by
  refine .of_serve rfl (State.CoreOnly.keeps ?_)
  split
  · exact s.openCode_coreOnly 6
  · split <;> exact ⟨_, rfl⟩

/-- UPDATE_STAGE acts. -/
theorem updateStage_acts (ch : Fin 13) (buf : Option (List Byte)) : ActsAs (.updateStage ch buf) s := by
  refine .of_serve rfl (State.CoreOnly.keeps ?_)
  split
  · exact s.openCode_coreOnly 2
  split
  · exact ⟨_, rfl⟩
  split
  · exact s.openCode_coreOnly 2
  · next ht => exact s.stage_coreOnly ht

/-- RECOVERY_STAGE acts. -/
theorem recoveryStage_acts (ch : Fin 13) (buf : Option (List Byte)) : ActsAs (.recoveryStage ch buf) s := by
  refine .of_serve rfl ?_
  split
  · exact .refl s
  split
  · exact (s.openCode_coreOnly 2).keeps
  · next ht =>
    have hstaged : s.Keeps (mayReset (.recoveryStage ch buf)) _ := (State.stage_coreOnly ht).keeps
    split
    · exact hstaged.core _
    · exact hstaged

/-! ### Services that write the flash -/

/-- REPAIR_MAP_ADD acts. -/
theorem repairMapAdd_acts (ch : Fin 13) (buf : Option (List Byte)) : ActsAs (.repairMapAdd ch buf) s := by
  refine .of_serve rfl ?_
  split
  · exact .refl s
  dsimp only
  split
  · exact .refl s
  split
  · exact (s.openCode_coreOnly 2).keeps
  · exact (State.Keeps.refl s).withFlash _ (writeRecord_wf _ _)

/-- REPAIR_MAP_REMOVE acts. -/
theorem repairMapRemove_acts (ch : Fin 13) : ActsAs (.repairMapRemove ch) s := by
  refine .of_serve rfl ?_
  dsimp only
  split
  · exact (s.openCode_coreOnly 2).keeps
  · exact (State.Keeps.refl s).withFlash _ (writeRecord_wf _ _)

/-- UPDATE_APPLY acts. -/
theorem updateApply_acts (ch : Fin 13) (flaws : List (Nat × Byte)) : ActsAs (.updateApply ch flaws) s := by
  refine .of_serve rfl ?_
  split
  · exact (s.openCode_coreOnly 2).keeps
  split
  · exact .refl s
  · have hbank := (State.Keeps.refl (reset := mayReset (.updateApply ch flaws)) s).writeBank
    dsimp only
    split
    · exact hbank _ _ _
    · exact ((hbank _ _ _).select _).core _

/-- CONFIRM acts. -/
theorem confirm_acts (ch : Fin 13) : ActsAs (.confirm ch) s := by
  refine .of_serve rfl ?_
  dsimp only
  split
  · exact (State.Keeps.refl s).select _
  · exact (s.openCode_coreOnly 2).keeps

/-- BOARD_DESCRIPTION_WRITE acts. -/
theorem boardDescriptionWrite_acts (ch : Fin 13) (buf : Option (List Byte)) : ActsAs (.boardDescriptionWrite ch buf) s := by
  refine .of_serve rfl ?_
  split
  · exact .refl s
  split
  · exact (State.Keeps.refl s).withFlash _ (writeRecord_wf _ _)
  · exact (s.openCode_coreOnly 2).keeps

/-- RECOVERY_WRITE acts. -/
theorem recoveryWrite_acts (ch : Fin 13) (flaws : List (Nat × Byte)) : ActsAs (.recoveryWrite ch flaws) s := by
  refine .of_serve rfl ?_
  dsimp only
  split
  · exact (State.Keeps.refl s).core _
  · have hbank := ((State.Keeps.refl (reset := mayReset (.recoveryWrite ch flaws)) s).writeBank 0 [s.recoveryPart] flaws).core
    split
    · exact (hbank _).select _
    · exact hbank _

/-! ### Services that burn fuses -/

/-- OWNER_KEY_ADD acts. -/
theorem ownerKeyAdd_acts (ch : Fin 13) (buf : Option (List Byte)) (ok : Bool) : ActsAs (.ownerKeyAdd ch buf ok) s := by
  refine .of_serve rfl ?_
  split
  · exact .refl s
  split
  · exact .refl s
  split
  · exact (s.openCode_coreOnly 2).keeps
  · refine ((State.Keeps.refl s).withFuse _ ?_).burned ok
    exact { Fuses.Grows.refl s.fuse with ownerValid := bitsWithin_burn _ _ _ _ }

/-- OWNER_KEY_REVOKE acts. -/
theorem ownerKeyRevoke_acts (ch : Fin 13) (ok : Bool) : ActsAs (.ownerKeyRevoke ch ok) s := by
  refine .of_serve rfl ?_
  dsimp only
  split
  · exact .refl s
  · refine ((State.Keeps.refl s).withFuse _ ?_).burned ok
    exact { Fuses.Grows.refl s.fuse with ownerRevoked := bitsWithin_burn _ _ _ _ }

/-- ROLLBACK_COMMIT acts. -/
theorem rollbackCommit_acts (ch : Fin 13) (ok : Bool) : ActsAs (.rollbackCommit ch ok) s := by
  refine .of_serve rfl ?_
  dsimp only
  generalize hman : (if s.core.req ch.val 1 % 2 = 0 then s.core.boot.vendor else s.core.boot.owner) = man
  split
  · exact (s.openCode_coreOnly 2).keeps
  split
  · exact .refl s
  split
  · exact .refl s
  split
  · exact (s.openCode_coreOnly 2).keeps
  · refine ((State.Keeps.refl s).withFuse _ ?_).burned ok
    split
    · exact { Fuses.Grows.refl s.fuse with
        vendorRb := le_burnCount _ _ _ _
        vendorRevoked := bitsWithin_burn _ _ _ _ }
    · exact { Fuses.Grows.refl s.fuse with ownerRb := le_burnCount _ _ _ _ }

/-- FUSE_LOCK_MATRIX acts. -/
theorem fuseLockMatrix_acts (ch : Fin 13) (buf : Option (List Byte)) (ok : Bool) : ActsAs (.fuseLockMatrix ch buf ok) s := by
  refine .of_serve rfl ?_
  split
  · exact .refl s
  split
  · exact .refl s
  · exact (State.Keeps.refl s).fuseLock _ false ok

/-- FUSE_LOCK_BOTH acts. -/
theorem fuseLockBoth_acts (ch : Fin 13) (buf : Option (List Byte)) (ok : Bool) : ActsAs (.fuseLockBoth ch buf ok) s := by
  refine .of_serve rfl ?_
  split
  · exact .refl s
  split
  · exact .refl s
  · exact (State.Keeps.refl s).fuseLock _ true ok

end Sys2Proof.Machine
end

section
/-!
SUPPORT. The power, reset, ageing and measurement commands act, and so every command but those of the pins.
-/
namespace Sys2Proof.Machine

variable (s : State)

/-- STORE_WORD_REWRITE changes the core alone, wherever the word comes from (R190, R619). -/
theorem State.storeRewrite_coreOnly (d p st a : Nat) (poisoned : Bool) : s.CoreOnly (s.storeRewrite d p st a poisoned) := by
  unfold State.storeRewrite
  dsimp only
  repeat' split
  all_goals exact ⟨_, rfl⟩

/-- STORE_WORD_REWRITE acts. -/
theorem storeWordRewrite_acts (d p : Fin 8) (st : Fin 18) (a : Fin 4096) (poisoned : Bool) :
    ActsAs (.storeWordRewrite d p st a poisoned) s :=
  .of_done rfl (.ifLive id fun _ => (s.storeRewrite_coreOnly d p st a poisoned).keeps)

/-- OLD_HALF_IDLE acts: the end of a program change is measured. -/
theorem oldHalfIdle_acts (d p : Fin 8) : ActsAs (.oldHalfIdle d p) s := by
  refine .of_done rfl ?_
  split
  · exact .refl s
  · next c _ =>
    refine ⟨fun hdead => if_pos (.inl (by simp [hdead])), .ite (fun _ => .refl s) fun _ => .ite (fun _ => ?_) fun _ => ?_⟩
    · exact ((State.Keeps.refl s).core _).endChange c
    · exact (State.Keeps.refl s).core _

/-- DIE_REPORT acts. -/
theorem dieReport_acts (d : Fin 8) : ActsAs (.dieReport d) s :=
  .of_done rfl (.ifLive And.left fun _ => (State.Keeps.refl s).core _)

/-- MEAS_EXTEND acts. -/
theorem measExtendCmd_acts (m : Master) : ActsAs (.measExtend m) s := .of_done rfl (measExtend_acts m s)

/-- PMU_EPOCH acts: a trip sets its record alone of the fuses (R679). -/
theorem pmuEpoch_acts (rs : List Reading) : ActsAs (.pmuEpoch rs) s := by
  have hepoch : s.Acts (mayReset (.pmuEpoch rs)) (s.onCore fun k => k.epochEnd rs) := .onCore s _
  refine .of_done rfl (.ite (fun _ => hepoch.trans ⟨fun hdead => if_pos (by simp [hdead]), (State.Keeps.refl _).trip⟩) fun _ => hepoch)

/-- Firmware runs on a part that runs alone. -/
theorem live_of_firmware {k : Core} (h : k.firmware = true) : k.live = true := (Bool.and_eq_true_iff.mp h).1

/-- AGEING_MEASURE acts. -/
theorem ageingMeasure_acts (as : List AgeReading) : ActsAs (.ageingMeasure as) s :=
  .of_done rfl (.ifLive (fun h => live_of_firmware h.1) fun _ => (State.Keeps.refl s).measureAge as)

/-- AGE_MEASURE_RETRY acts. -/
theorem ageMeasureRetry_acts (as : List AgeReading) : ActsAs (.ageMeasureRetry as) s :=
  .of_done rfl (.ifLive (fun h => live_of_firmware h.1) fun _ => (State.Keeps.refl s).measureAge as)

/-- LIFE_RECORD_WRITE acts. -/
theorem lifeRecordWrite_acts : ActsAs .lifeRecordWrite s := by
  refine .of_done rfl (.ifLive (fun h => live_of_firmware h.1) fun _ => ?_)
  split
  · exact (State.Keeps.refl s).withFlash _ (writeAge_wf _)
  · exact .refl s

/-- WARM_RESET acts: it is a reset of the part. -/
theorem warmReset_acts (by' : Option (Master × BitVec 16 × Bool)) (x : StartFacts) : ActsAs (.warmReset by' x) s := by
  have hwarm (cause : Nat) : s.Keeps (mayReset (.warmReset by' x)) (s.warm cause x) :=
    (State.Keeps.refl s).warm (.inr (.inr (.inl ⟨by', x, rfl⟩))) cause x
  refine .of_done rfl ?_
  split
  · exact .resetWrite _ _ fun _ => hwarm 3
  · exact .ifLive id fun _ => hwarm 4

/-- MP_RESET acts: the MP's restart is measured. -/
theorem mpReset_acts (by' : Option (Master × BitVec 16)) (why : MpCause) : ActsAs (.mpReset by' why) s := by
  refine .of_done rfl ?_
  split
  · exact mpResetWrite_acts _ _ s
  · refine ⟨fun hdead => if_pos (by simp [hdead]), .ite (fun _ => .refl s) fun _ => ?_⟩
    have hrestart (k : Core) : s.Keeps (mayReset (.mpReset none why)) ({ s with core := k }.mpRestart) :=
      ((State.Keeps.refl s).core k).mpRestart
    cases why with
    | watchdog => exact hrestart _
    | sram => exact hrestart _
    | poison => exact .ite (fun _ => hrestart _) fun _ => .refl s

/-- THERMAL_TRIP acts. -/
theorem thermalTrip_acts : ActsAs .thermalTrip s :=
  .of_done rfl ⟨fun hdead => if_pos (by simp [hdead]), (State.Keeps.refl s).trip⟩

/-- A whole write through an indirect window acts. -/
theorem window_acts {reset : Prop} (m : Master) (w page off : Nat) (f : Core → Core) : s.Acts reset (s.window m w page off f) := by
  rw [State.window, State.write]
  exact .onCore s _

/-- A command is one of the pins', or acts: the register writes, the services and the resets by their own lemmas, and the others
because they are meanings over the core. -/
theorem ofPins_or_acts (c : Instr) : ofPins c ∨ ActsAs c s := by
  cases c
  case powerUp perst x => exact .inl (.inl ⟨perst, x, rfl⟩)
  case pwrGoodLoss => exact .inl (.inr (.inl rfl))
  case sysRstAssert => exact .inl (.inr (.inr (.inl rfl)))
  case sysRstRelease x => exact .inl (.inr (.inr (.inr (.inl ⟨x, rfl⟩))))
  case extThrotAssert => exact .inl (.inr (.inr (.inr (.inr (.inl rfl)))))
  case extThrotDeassert => exact .inl (.inr (.inr (.inr (.inr (.inr (.inl rfl))))))
  case hostPortReset perst => exact .inl (.inr (.inr (.inr (.inr (.inr (.inr (.inl ⟨perst, rfl⟩)))))))
  case perstDeassert => exact .inl (.inr (.inr (.inr (.inr (.inr (.inr (.inr rfl)))))))
  all_goals refine .inr ?_
  case registerWrite m a v more x => exact registerWrite_acts m a v more x s
  case broadcastWrite m a v more => exact broadcastWrite_acts m a v more s
  case broadcastRead m a => exact broadcastRead_acts m a s
  case rcReadClear m a more => exact rcReadClear_acts m a more s
  case lowHalfReadLatch m a both => exact lowHalfReadLatch_acts m a both s
  case lowHalfWriteHold m a v => exact lowHalfWriteHold_acts m a v s
  case highHalfWrite m a v => exact highHalfWrite_acts m a v s
  case indRead m w tab p autoinc => exact .of_done rfl (indStart_acts m w tab p false autoinc s)
  case indWrite m w tab p autoinc => exact .of_done rfl (indStart_acts m w tab p true autoinc s)
  case mbxTake m ch => exact mbxTake_acts m ch s
  case storeWordRewrite d p st a poisoned => exact storeWordRewrite_acts s d p st a poisoned
  case oldHalfIdle d p => exact oldHalfIdle_acts s d p
  case dieReport d => exact dieReport_acts s d
  case measExtend m => exact measExtendCmd_acts s m
  case pmuEpoch rs => exact pmuEpoch_acts s rs
  case ageingMeasure as => exact ageingMeasure_acts s as
  case ageMeasureRetry as => exact ageMeasureRetry_acts s as
  case lifeRecordWrite => exact lifeRecordWrite_acts s
  case warmReset by' x => exact warmReset_acts s by' x
  case mpReset by' why => exact mpReset_acts s by' why
  case thermalTrip => exact thermalTrip_acts s
  case userPageWrite => exact .of_done rfl (.refl s)
  case startStatusGet => exact .of_serve rfl (.refl s)
  case sensorsRead ch => exact sensorsRead_acts s ch
  case sensorsLogCfg ch => exact sensorsLogCfg_acts s ch
  case programChangeLoad ch buf bad => exact programChangeLoad_acts s ch buf bad
  case programChangeRestore ch => exact programChangeRestore_acts s ch
  case repairMapRead ch writeOk => exact repairMapRead_acts s ch writeOk
  case repairMapAdd ch buf => exact repairMapAdd_acts s ch buf
  case repairMapRemove ch => exact repairMapRemove_acts s ch
  case quote ch buf writeOk => exact quote_acts s ch buf writeOk
  case certificateGet ch writeOk => exact certificateGet_acts s ch writeOk
  case ownerKeyAdd ch buf ok => exact ownerKeyAdd_acts s ch buf ok
  case ownerKeyRevoke ch ok => exact ownerKeyRevoke_acts s ch ok
  case rollbackCommit ch ok => exact rollbackCommit_acts s ch ok
  case fuseLockMatrix ch buf ok => exact fuseLockMatrix_acts s ch buf ok
  case fuseLockDebugOff ch ok => exact .of_serve rfl ((State.Keeps.refl s).fuseLock none true ok)
  case fuseLockBoth ch buf ok => exact fuseLockBoth_acts s ch buf ok
  case updateStage ch buf => exact updateStage_acts s ch buf
  case updateApply ch flaws => exact updateApply_acts s ch flaws
  case confirm ch => exact confirm_acts s ch
  case boardDescriptionWrite ch buf => exact boardDescriptionWrite_acts s ch buf
  case recoveryStage ch buf => exact recoveryStage_acts s ch buf
  case recoveryWrite ch flaws => exact recoveryWrite_acts s ch flaws
  case catInsert | catDelete | catSearch | catNext | catFlushByPort | sweepPause | sweepResume | sweepStartNow | catDeepInsert |
      catDeepDelete | catDeepSearch | deepCfgWrite | lpmInsert | lpmDelete | lpmSearch | lpmLookupCmd | filterKeyCommit |
      filterActionWrite =>
    all_goals exact .of_done rfl (.writeVia s _ _ _ _ _ _)
  case polCtxWrite | ephEnableWrite | portEnable | portDisable | laneStateRequest =>
    all_goals exact .of_done rfl (window_acts s _ _ _ _ _)
  all_goals exact .of_core rfl

/-! ### The pins -/

/-- The commands of the pins keep the records too, as far as they are no reset. -/
theorem ofPins_keeps {c : Instr} (hc : ofPins c) : ∃ t, exec c s = .next t ∧ s.Keeps (mayReset c) t := by
  have hself {reset : Prop} : s.Keeps reset s := .refl s
  obtain ⟨perst, x, rfl⟩ | rfl | rfl | ⟨x, rfl⟩ | rfl | rfl | ⟨perst, rfl⟩ | rfl := hc
  · exact ⟨_, rfl, .ite (fun _ => hself) fun _ => .ite (fun _ => hself.core _) fun _ => ((hself.core _).coldRelease x).start x⟩
  · exact ⟨_, rfl, .ite (fun _ => (hself.partReset (.inl rfl) 1).core _) fun _ => hself⟩
  · exact ⟨_, rfl, .ite (fun _ => (hself.partReset (.inr (.inl rfl)) 2).core _) fun _ => hself.core _⟩
  · exact ⟨_, rfl, .ite (fun _ => ((hself.core _).coldRelease x).start x) fun _ => hself.core _⟩
  · exact ⟨_, rfl, hself.core _⟩
  · exact ⟨_, rfl, hself.core _⟩
  · exact ⟨_, rfl, State.Keeps.onCore (.ite (fun _ => hself.core _) fun _ => hself) _⟩
  · exact ⟨_, rfl, hself.core _⟩

/-! ### A step -/

/-- Every command keeps the records, as far as it is no reset. -/
theorem exec_keeps {c : Instr} {t : State} (ht : exec c s = .next t) : s.Keeps (mayReset c) t := by
  have hkeeps : ∃ t, exec c s = .next t ∧ s.Keeps (mayReset c) t := by
    obtain hpins | ⟨u, hu, hacts⟩ := ofPins_or_acts s c
    · exact ofPins_keeps s hpins
    · exact ⟨u, hu, hacts.keeps⟩
  obtain ⟨u, hu, hkeeps⟩ := hkeeps
  rw [ht] at hu
  cases hu
  exact hkeeps

/-- A step keeps the records, as far as the command at the front is no reset. -/
theorem step_keeps {s t : State} (ht : step s = .next t) : s.Keeps (∃ c, s.pending.head? = some c ∧ mayReset c) t := by
  unfold step at ht
  split at ht
  · cases ht
    exact (State.Keeps.refl s).onCore _
  · next c rest hpending =>
    obtain ⟨hfuse, hflash, hacc, hroom, hlog⟩ := exec_keeps _ ht
    exact ⟨hfuse, hflash, hacc, hroom, hlog.imp_left fun h => ⟨c, by rw [hpending, List.head?_cons], h⟩⟩

/-- Settles O58: every step keeps the records, the fuses among them. -/
theorem fusesOnlyGrow : Obligations.FusesOnlyGrow := fun _ _ ht => (step_keeps ht).fuse

/-- Settles O59: every step keeps the records. -/
theorem recordsKeepTheirForm : Obligations.RecordsKeepTheirForm := by
  refine ⟨fun s t ht hflash hacc hroom => ?_, fun s t ht => ?_⟩
  · have h := step_keeps ht
    exact ⟨h.flash hflash, h.acc hacc, h.room hroom⟩
  · obtain ⟨c, hc, rfl | rfl | ⟨by', x, rfl⟩ | ⟨m, a, v, more, x, rfl, hm, hw, hpage⟩⟩ | ⟨es, hes⟩ := (step_keeps ht).log
    · exact .inr (.inl hc)
    · exact .inr (.inr (.inl hc))
    · exact .inr (.inr (.inr (.inl ⟨by', x, hc⟩)))
    · exact .inr (.inr (.inr (.inr ⟨m, a, v, more, x, hc, hm, hw, hpage⟩)))
    · exact .inl ⟨es, hes.symm⟩

/-- Settles O57: every command but those of the pins acts, and on a part that does not run an act does nothing. -/
theorem stoppedPartStands : Obligations.StoppedPartStands := by
  intro c s hdead
  have hstands : ofPins c ∨ exec c s = .next s := by
    obtain hpins | ⟨t, ht, hacts⟩ := ofPins_or_acts s c
    · exact .inl hpins
    · exact .inr (hacts.stopped hdead ▸ ht)
  simpa only [ofPins, or_assoc] using hstands

end Sys2Proof.Machine
end

section
/-!
SUPPORT. What a nanosecond of the reference clock changes: its two followers, the filling of the open codewords and the LPM
commands that are due, and what each leaves.
-/
namespace Sys2Proof.Machine

/-! ### The filling of the open codewords -/

/-- Sending blocks changes the links and what goes out. -/
theorem Core.sendBlocks_eq (k : Core) (d l : Nat) (bs : List PcsBlock) :
    k.sendBlocks d l bs = { k with link := (k.sendBlocks d l bs).link, out := (k.sendBlocks d l bs).out } := by
  unfold Core.sendBlocks
  split <;> rfl

/-- What stands outside the links and the output in the filling of the codewords. -/
structure Core.SameButLines (k k' : Core) : Prop where
  io : k'.io = k.io
  tables : k'.tables = k.tables
  buf : k'.buf = k.buf
  time : k'.time = k.time

/-- A port's open codewords filled and sent change the links and the output. -/
theorem Core.fillTail_same (k : Core) (t : LineTail) : k.SameButLines
    ((k.sendBlocks (t.port / 256) (t.port % 256) (fillBlocks (k.lineForm (t.port / 256) (t.port % 256)).ways
      (k.markersNow (t.port / 256) (t.port % 256)).length t.blocks)).setTail t.port []) := by
  rw [Core.sendBlocks_eq]
  exact ⟨rfl, rfl, rfl, rfl⟩

/-- So does the filling of all that are due. -/
theorem Core.fillTails_same (k : Core) : k.SameButLines k.fillTails := by
  unfold Core.fillTails
  exact ⟨foldl_keeps Core.io (fun k t => (k.fillTail_same t).io) _ k,
    foldl_keeps Core.tables (fun k t => (k.fillTail_same t).tables) _ k,
    foldl_keeps Core.buf (fun k t => (k.fillTail_same t).buf) _ k,
    foldl_keeps Core.time (fun k t => (k.fillTail_same t).time) _ k⟩

/-! ### The LPM commands that are due -/

/-- The second core has the buffers and the time base of the first. -/
def Core.SameBufTime (k k' : Core) : Prop := k'.buf = k.buf ∧ k'.time = k.time

/-- It is transitive. -/
theorem Core.SameBufTime.trans {a b c : Core} (h : a.SameBufTime b) (h' : b.SameBufTime c) : a.SameBufTime c :=
  ⟨h'.1.trans h.1, h'.2.trans h.2⟩

/-- An LPM command leaves the buffers and the time base. -/
theorem Core.lpmRun_same (k : Core) (c : LpmCmd) : k.SameBufTime (k.lpmRun c) := by
  unfold Core.lpmRun
  extract_lets
  split
  · exact ⟨rfl, rfl⟩
  · repeat' split
    all_goals exact ⟨rfl, rfl⟩

/-- So do the queued ones of a die. -/
theorem Core.lpmDrain_same (d n : Nat) : ∀ k : Core, k.SameBufTime (k.lpmDrain d n) := by
  induction n with
  | zero => exact fun k => ⟨rfl, rfl⟩
  | succ n ih =>
    intro k
    rw [Core.lpmDrain]
    split
    · exact ⟨rfl, rfl⟩
    · split
      · exact ⟨rfl, rfl⟩
      · rename_i c _ _
        have hrun := Core.lpmRun_same { k with tables := { k.tables with lpmCmds := k.tables.lpmCmds.erase c } } c
        exact Core.SameBufTime.trans ⟨hrun.1, hrun.2⟩ (ih _)

/-- And the ones that are due. -/
theorem Core.lpmDue_same (k : Core) : k.SameBufTime k.lpmDue := by
  have hstep (k : Core) (d : Nat) : k.SameBufTime (match k.tables.lpmCmds.find? (·.die == d) with
      | some c => if c.since + 5000 ≤ k.time.now then k.lpmDrain d 8 else k
      | none => k) := by
    split
    · split
      · exact Core.lpmDrain_same d 8 k
      · exact ⟨rfl, rfl⟩
    · exact ⟨rfl, rfl⟩
  exact ⟨foldl_keeps Core.buf (fun k d => (hstep k d).1) _ k, foldl_keeps Core.time (fun k d => (hstep k d).2) _ k⟩

/-- None is due where none waits. -/
theorem Core.lpmDue_of_empty {k : Core} (h : k.tables.lpmCmds = []) : k.lpmDue = k := by
  have hstay (ds : List Nat) : ds.foldl (fun k d => match k.tables.lpmCmds.find? (·.die == d) with
      | some c => if c.since + 5000 ≤ k.time.now then k.lpmDrain d 8 else k
      | none => k) k = k := by
    induction ds with
    | nil => rfl
    | cons d ds ih => rw [List.foldl_cons, h]; exact ih
  exact hstay _

/-! ### The time base -/

/-- A source with no slew in progress removes nothing. -/
theorem slewStep_of_zero (ppm : Nat) {s : TimeSrc} (hslew : s.slew = 0) (hrem : 0 ≤ s.slewRem) : (slewStep ppm s).1 = 0 := by
  simp only [slewStep, hslew, le_refl, if_true]
  omega

/-- The clock does not run back. -/
theorem Time.now_le_nowAt (t : Time) (flow : Nat) : t.now ≤ t.nowAt flow := Nat.le_add_right _ _

/-- The time base after a nanosecond. -/
theorem Core.nanosecond_time (k : Core) : k.nanosecond.time = k.tick.time :=
  (Core.lpmDue_same _).2.trans (Core.fillTails_same _).time

/-- A nanosecond at the nominal rate with no slew brings the clock and the time of day a nanosecond on. -/
theorem Core.tick_nominal {k : Core} (hfreq : k.freqAdj = 0) (hrem : k.time.todRem = 0) (hslew : k.time.todSrc.slew = 0)
    (hslewRem : 0 ≤ k.time.todSrc.slewRem) :
    k.tick.time.now = k.time.now + 1 ∧ k.tick.time.tod = k.time.tod + 65536 := by
  simp only [Core.tick, hfreq, hrem, slewStep_of_zero _ hslew hslewRem, Time.nowAt]
  omega

/-- Settles O60: each is a value of the reset state. -/
theorem resetState : Obligations.ResetState := by
  unfold Obligations.ResetState
  exact ⟨rfl, rfl, rfl, rfl, rfl, rfl, rfl, by decide +kernel, by decide +kernel, rfl, by decide +kernel, rfl, by decide +kernel,
    by decide +kernel, by decide +kernel⟩

/-- A step with no command waiting is a nanosecond of the reference clock. -/
theorem step_of_empty {s : State} (h : s.pending = []) : step s = .next (s.onCore Core.nanosecond) := by
  unfold step
  rw [h]

/-- Settles O55: the queue's front is what a step means, and a nanosecond is the time base, the filling of the open codewords
and the LPM commands that are due. -/
theorem stepRunsFront : Obligations.StepRunsFront := by
  unfold Obligations.StepRunsFront
  refine ⟨fun c rest s h => ?_, fun s h hlive => ?_, fun s h hdead => ?_, fun k => ⟨fun hnone => ?_, ?_, ?_, ?_⟩⟩
  · rw [step, h]
  · rw [step_of_empty h, State.onCore_live _ hlive]
  · rw [step_of_empty h, State.onCore_dead _ hdead]
  · have hfill := Core.fillTails_same k.tick
    have hstay : k.nanosecond = k.tick.fillTails :=
      Core.lpmDue_of_empty ((congrArg Tables.lpmCmds hfill.tables).trans hnone)
    exact hstay ▸ ⟨hfill.io, hfill.tables⟩
  · exact (Core.lpmDue_same _).1.trans (Core.fillTails_same _).buf
  · rw [Core.nanosecond_time]
    exact Time.now_le_nowAt _ _
  · intro hfreq hrem hslew hslewRem
    rw [Core.nanosecond_time]
    exact Core.tick_nominal hfreq hrem hslew hslewRem

end Sys2Proof.Machine
end

section
/-!
SUPPORT. The ageing commands, the measurements a master extends, the counters and the user pages.
-/
namespace Sys2Proof.Machine

/-! ### Ageing -/

/-- A measurement asked for on a window of the part makes the part's measurement due. -/
theorem exec_ageingMeasure_asked {s : State} {w : Nat} (as : List AgeReading) (hfirmware : s.core.firmware = true)
    (hw : w ∈ s.core.units) (hasked : s.core.rd (pick w R.M_PMU_AGE_CMD R.PMU_AGE_CMD) w 0 0 = 1)
    (hretry : s.core.pmu.retryAt = 0) : exec (.ageingMeasure as) s = .next (s.measureAge as) := by
  refine congrArg done (if_pos ⟨hfirmware, List.any_eq_true.mpr ⟨w, hw, ?_⟩, hretry⟩)
  simp only [hasked, beq_self_eq_true, Bool.or_true]

/-- Settles O51: each command's condition, as its meaning reads it. -/
theorem ageingCommands : Obligations.AgeingCommands := by
  unfold Obligations.AgeingCommands
  intro s m w as k page cmd
  refine ⟨fun hserves => completes_write (c := .ageMeasureCmd m w) _ hserves rfl, exec_ageingMeasure_asked as,
    fun hstill => ⟨?_, ?_, ?_⟩, fun hfirmware hretry hdue => congrArg done (if_pos ⟨hfirmware, hretry, hdue⟩),
    ⟨rfl, rfl, rfl, rfl⟩, fun es hfirmware hday hes => ?_⟩
  · exact congrArg done (if_neg fun h => Bool.false_ne_true (hstill.symm.trans h.1))
  · exact congrArg done (if_neg fun h => Bool.false_ne_true (hstill.symm.trans h.1))
  · exact congrArg done (if_neg fun h => Bool.false_ne_true (hstill.symm.trans h.1))
  · refine (congrArg done (if_pos ⟨hfirmware, hday⟩)).trans ?_
    rw [hes]
    rfl

/-! ### The measurements a master extends -/

/-- While the log has room an entry goes to its end and is counted. -/
theorem State.extend_of_room {s : State} (e : List Byte) (h : s.sec.log.length < 2048) :
    s.extend e = { s with
      sec := { acc := shake64 (s.sec.acc ++ e), log := s.sec.log ++ [e] }
      core := s.core.wr R.SEC_LOG_COUNT 0 0 0 (s.core.rd R.SEC_LOG_COUNT 0 0 0 + 1) } := by
  simp only [State.extend, decide_eq_true h, if_true]

/-- Beyond that nothing is stored. -/
theorem State.extend_sec_of_full {s : State} (e : List Byte) (h : 2048 ≤ s.sec.log.length) :
    (s.extend e).sec = { acc := shake64 (s.sec.acc ++ e), log := s.sec.log } := by
  simp [State.extend, Nat.not_lt.mpr h]

/-- The MP's extension is that of SEC_MEAS_EXT. -/
theorem exec_measExtend_mp {s : State} (hserves : Serves s .mp 0 0xA0 0x200 true) :
    exec (.measExtend .mp) s =
      .next (s.extend ((List.range 32).flatMap fun j => leOf (s.core.rd R.SEC_MEAS_EXT 0 0 j) 4)) := by
  obtain ⟨hlive, hverdict⟩ := hserves
  simp [exec, execMeasExtend, hlive, hverdict, done]

/-- Another master's is an access error. -/
theorem completes_measExtend_other {s : State} {m : Master} (hserves : Serves s m 0 0xA0 0x200 true) (hm : m ≠ .mp) :
    Completes (.measExtend m) s (s.core.accErr 0 0xA0 m 0x200) := by
  obtain ⟨hlive, hverdict⟩ := hserves
  simp [Completes, exec, execMeasExtend, hlive, hverdict, hm, State.onCore_live, done]

/-! ### The user pages -/

/-- A counter that its function may not read, or what stands beside the counters, reads zero. -/
theorem Core.userRead_of_forbidden {k : Core} (userOff : Bool) (f : Fin 4) (addr : Nat) (hup : k.pack.hostUp = true)
    (hoff : userOff = true) : k.userRead userOff f addr = k.emit (.readData f (2 ^ 28 + addr) 0) := by
  simp [Core.userRead, Core.serves, hup, hoff, Core.userMayRead]

/-- A function reads the configuration of a counter it may read. -/
theorem Core.userRead_cntCfg {k : Core} {userOff : Bool} {f : Fin 4} {addr c : Nat} (hup : k.pack.hostUp = true) (hc : c < 64)
    (hplace : addr % 4096 = 0x200 + 4 * c) (hmay : k.userMayRead userOff f (addr / 4096) c = true) :
    k.userRead userOff f addr = k.emit (.readData f (2 ^ 28 + addr) (k.cntCfg (addr / 4096) c)) := by
  have hlo : addr % 4096 < 0x400 := by omega
  have hcount : (addr % 4096 - 0x200) / 4 = c := by omega
  have hinside : ¬ (addr % 4096 % 4 ≠ 0 ∨ addr % 4096 < 0x200 ∨ 0x600 ≤ addr % 4096 ∨
      (0x300 ≤ addr % 4096 ∧ addr % 4096 < 0x400) ∨ ¬ k.userMayRead userOff f (addr / 4096) c = true) := by
    simp only [hmay, not_true, or_false]
    omega
  simp only [Core.userRead, if_pos hlo, hcount, if_neg hinside]
  simp [Core.serves, hup]

/-! ### The statistics of a port -/

/-- Zeroing an entry leaves those that are zero. -/
theorem Core.td_tw_zero {k : Core} {f : TFld} {w p i j : Nat} (h : k.td f w p j = 0) : (k.tw f w p i 0).td f w p j = 0 := by
  by_cases hj : j = i
  · rw [hj, Core.td_tw_same, Nat.zero_mod]
  · rwa [Core.td_tw_ne]
    simp only [TFld.key]
    omega

/-- Entries zeroed one after another are zero, and so are those that were. -/
theorem Core.td_foldl_tw_zero {f : TFld} {w p b i : Nat} (ns : List Nat) :
    ∀ k : Core, (i ∈ ns ∨ k.td f w p (b + i) = 0) →
      (ns.foldl (fun k n => k.tw f w p (b + n) 0) k).td f w p (b + i) = 0 := by
  induction ns with
  | nil => exact fun k h => h.resolve_left List.not_mem_nil
  | cons n ns ih =>
    intro k h
    refine ih _ ?_
    rcases h with h | h
    · rcases List.mem_cons.mp h with rfl | h
      · exact .inr (by rw [Core.td_tw_same, Nat.zero_mod])
      · exact .inl h
    · exact .inr (Core.td_tw_zero h)

/-- Settles O54: a command each, with what the condition of its clause selects. -/
theorem measurementsAndCounters : Obligations.MeasurementsAndCounters := by
  unfold Obligations.MeasurementsAndCounters
  intro s m w c n f a v d hlive k e
  refine ⟨fun hserves => ⟨fun hroom => ?_, fun hfull => ?_⟩, completes_measExtend_other, fun hon => ?_, fun hoff => ?_, rfl,
    fun hup hoff => ?_, fun hup hplace hmay => ?_, fun hserves hgo => ?_, fun l i hi => ?_⟩
  · rw [exec_measExtend_mp hserves, State.extend_of_room _ hroom]
  · rw [exec_measExtend_mp hserves]
    have hsec := State.extend_sec_of_full e hfull
    exact ⟨_, rfl, by rw [hsec], by rw [hsec]⟩
  · have hform := completes_onCore (c := .counterWrap w c n) _ hlive rfl
    rwa [if_pos hon] at hform
  · have hform := completes_onCore (c := .counterWrap w c n) _ hlive rfl
    rwa [if_neg (Bool.eq_false_iff.mp hoff)] at hform
  · have hform := completes_onCore (c := .userPageRead f a) _ hlive rfl
    rwa [Core.userRead_of_forbidden _ _ _ hup hoff] at hform
  · have hform := completes_onCore (c := .userPageRead f a) _ hlive rfl
    rwa [Core.userRead_cntCfg hup c.isLt hplace hmay] at hform
  · have hform := completes_write (c := .pstatClear m d v) _ hserves rfl
    rwa [Core.pstatClr, if_pos hgo] at hform
  · exact Core.td_foldl_tw_zero _ k (.inl (List.mem_range.mpr hi))

end Sys2Proof.Machine
end

section
/-!
SUPPORT. The resets: the three answers to a write of PAG_RESET, and what a reset of the part shows as its cause.
-/
namespace Sys2Proof.Machine

/-! ### A write of PAG_RESET -/

/-- From PF0 or the MP with the key, the reset is made. -/
theorem State.resetWrite_accepted {s : State} {m : Master} {key : BitVec 16} (f : State → State)
    (hserves : Serves s m 0 0 0x200 true) (hm : m = .mp ∨ m = .pf 0) (hkey : key = 0xA5C3) :
    s.resetWrite m key.toNat f = f s := by
  obtain ⟨hlive, hverdict⟩ := hserves
  rcases hm with rfl | rfl <;> simp [State.resetWrite, hlive, hverdict, hkey]

/-- From either without the key, it is a configuration error. -/
theorem State.resetWrite_badKey {s : State} {m : Master} {key : BitVec 16} (f : State → State)
    (hserves : Serves s m 0 0 0x200 true) (hm : m = .mp ∨ m = .pf 0) (hkey : key ≠ 0xA5C3) :
    s.resetWrite m key.toNat f = { s with core := s.core.cfgErr 0 0 m 0x200 } := by
  obtain ⟨hlive, hverdict⟩ := hserves
  have hnat : key.toNat ≠ 0xA5C3 := fun h => hkey (BitVec.eq_of_toNat_eq h)
  rcases hm with rfl | rfl <;> simp [State.resetWrite, hlive, hverdict, hnat]

/-- From another master, it is an access error. -/
theorem State.resetWrite_other {s : State} {m : Master} (key : Nat) (f : State → State)
    (hserves : Serves s m 0 0 0x200 true) (hmp : m ≠ .mp) (hpf : m ≠ .pf 0) :
    s.resetWrite m key f = { s with core := s.core.accErr 0 0 m 0x200 } := by
  obtain ⟨hlive, hverdict⟩ := hserves
  simp [State.resetWrite, hlive, hverdict, hmp, hpf]

/-! ### Firmware's own causes of a reset of the MP -/

/-- A poisoned read of region 0 within its budget. -/
theorem exec_mpReset_poison {s : State} (hlive : s.core.live = true) (hregion : s.core.regionOn 0 = true)
    (htokens : s.core.tokens 0 ≠ 0) :
    exec (.mpReset none .poison) s = .next ({ s with core := (s.core.firmwareRead true).mpReset 3 }.mpRestart) := by
  simp [exec, execMpReset, hlive, hregion, htokens, done]

/-- FATAL_N is driven while the watchdog holds the MP. -/
theorem Core.rd_fatal_watchdogHold (k : Core) : k.watchdogHold.rd R.PAG_PINS_FATAL 0 0 0 = 1 := by
  unfold Core.watchdogHold
  split
  · assumption
  · exact Core.rd_wr_same k R.PAG_PINS_FATAL 0 0 0 1

/-! ### A reset of the part -/

/-- It shows its cause. -/
theorem State.partReset_cause (s : State) {cause : Nat} (h : cause < 8) :
    (s.partReset cause).core.rd R.PAG_RESET_CAUSE_CAUSE 0 0 0 = cause := by
  refine (Core.rd_wr_ne _ _ (by decide)).trans ((Core.rd_wr_same _ _ _ _ _ _).trans ?_)
  exact Nat.mod_eq_of_lt (h.trans (by decide))

/-- The start stops at step 2 where the Meridian die fails there. -/
theorem State.start_fails2 (s : State) {x : StartFacts} (h : x.meridianFails = 2) :
    s.start x = { s with core := (s.core.wr R.SEC_STATUS_DEBUG_ACTIVE 0 0 0 (b2n s.core.pack.debugOn)).stopAt 2 4 } :=
  if_pos (beq_iff_eq.mpr h)

/-- Settles O52: the pins and the writes of PAG_RESET, each in the state its clause names. The poisoned read within the budget of
region 0 and the form of the watchdog are the model's choice (log 149, 106). -/
theorem resetsAndStart : Obligations.ResetsAndStart := by
  unfold Obligations.ResetsAndStart
  intro s m key perst mpBit x why cause k up up1
  have hoff {b : Bool} (h : b = false) : ¬ b = true := Bool.eq_false_iff.mp h
  refine ⟨fun hpower hrst => ?_, fun hpower hrst => ?_, fun hpower => congrArg done (if_pos hpower), s.start_fails2,
    fun hpower => congrArg done (if_pos hpower), fun hpower hrst => congrArg done (if_pos ⟨hpower, hoff hrst⟩),
    fun hpower hrst => congrArg done (if_pos ⟨hpower, hrst⟩),
    fun hserves => ⟨fun hm hkey => ?_, fun hm hkey => ?_, fun hmp hpf => ?_⟩,
    fun hlive => ⟨congrArg done (if_pos hlive), congrArg done (if_neg (not_not.mpr hlive)),
      congrArg done (if_neg (not_not.mpr hlive)), exec_mpReset_poison hlive, k.rd_fatal_watchdogHold, ?_⟩,
    rfl, rfl, rfl, rfl, s.partReset_cause⟩
  · exact congrArg done ((if_neg (hoff hpower)).trans (if_neg (hoff hrst)))
  · exact congrArg done ((if_neg (hoff hpower)).trans (if_pos hrst))
  · exact ⟨congrArg done (State.resetWrite_accepted _ hserves hm hkey),
      congrArg done (State.resetWrite_accepted _ hserves hm hkey)⟩
  · exact ⟨congrArg done (State.resetWrite_badKey _ hserves hm hkey),
      congrArg done (State.resetWrite_badKey _ hserves hm hkey)⟩
  · exact ⟨congrArg done (State.resetWrite_other _ _ hserves hmp hpf),
      congrArg done (State.resetWrite_other _ _ hserves hmp hpf)⟩
  · exact congrArg done (if_neg (not_not.mpr hlive))

end Sys2Proof.Machine
end

section
/-!
SUPPORT. What an epoch of the governor leaves as it was: each of its operations changes the registers, the governor's own
state and the stall counts of the pipelines alone.
-/
namespace Sys2Proof.Machine

/-! ### Changes of the registers, the governor and the stall counts -/

/-- The second core has the pins, the time base, the tables, the buffers and the FOCUS state of the first. -/
structure Core.GovOnly (k k' : Core) : Prop where
  pack : k'.pack = k.pack
  time : k'.time = k.time
  tables : k'.tables = k.tables
  buf : k'.buf = k.buf
  foc : k'.foc = k.foc

namespace Core.GovOnly

variable {k k1 k2 : Core}

/-- Nothing is changed. -/
theorem refl (k : Core) : k.GovOnly k := ⟨rfl, rfl, rfl, rfl, rfl⟩

/-- One such change after another is one. -/
theorem trans (h : k.GovOnly k1) (h' : k1.GovOnly k2) : k.GovOnly k2 :=
  ⟨h'.pack.trans h.pack, h'.time.trans h.time, h'.tables.trans h.tables, h'.buf.trans h.buf, h'.foc.trans h.foc⟩

/-- A change of the registers is one. -/
theorem onIo (h : k.GovOnly k1) (f : Io → Io) : k.GovOnly (k1.onIo f) := h.trans ⟨rfl, rfl, rfl, rfl, rfl⟩

/-- So is a register written. -/
theorem wr (h : k.GovOnly k1) (f : Fld) (w p i v : Nat) : k.GovOnly (k1.wr f w p i v) := h.onIo _

/-- So is an entry written. -/
theorem tw (h : k.GovOnly k1) (f : TFld) (w p i v : Nat) : k.GovOnly (k1.tw f w p i v) := h.onIo _

/-- So is an event raised. -/
theorem raise (h : k.GovOnly k1) (w page b : Nat) : k.GovOnly (k1.raise w page b) := h.onIo _

/-- So is an event counted. -/
theorem count (h : k.GovOnly k1) (w cls code inst n : Nat) : k.GovOnly (k1.count w cls code inst n) := h.onIo _

/-- So is time accounted to a reason. -/
theorem throttledFor (h : k.GovOnly k1) (w r n : Nat) : k.GovOnly (k1.throttledFor w r n) := by
  unfold Core.throttledFor Core.sat64
  exact h.onIo _

/-- So is a change of the governor's state. -/
theorem withPmu (h : k.GovOnly k1) (x : Pmu) : k.GovOnly { k1 with pmu := x } := h.trans ⟨rfl, rfl, rfl, rfl, rfl⟩

/-- So is a unit put back. -/
theorem putUnit (h : k.GovOnly k1) (u : PmuDie) : k.GovOnly (k1.putUnit u) := h.withPmu _

/-- So is one of two of them. -/
theorem ite {c : Prop} [Decidable c] (h1 : k.GovOnly k1) (h2 : k.GovOnly k2) : k.GovOnly (if c then k1 else k2) := by
  split
  · exact h1
  · exact h2

/-- So is one after another of them. -/
theorem foldl {α : Type} (h : k.GovOnly k1) {f : Core → α → Core} (hstep : ∀ (k : Core) (a : α), k.GovOnly (f k a)) (l : List α) :
    k.GovOnly (l.foldl f k1) :=
  List.foldlRecOn l f h fun k' h' a _ => h'.trans (hstep k' a)

/-- So are the stalls of a die's pipelines noted. -/
theorem noteStalls (h : k.GovOnly k1) (d : Nat) : k.GovOnly (k1.noteStalls d) := by
  unfold Core.noteStalls
  refine h.foldl (fun k p => ?_) _
  split
  · exact refl k
  · exact ⟨rfl, rfl, rfl, rfl, rfl⟩

end Core.GovOnly

/-! ### The operations of the epoch -/

section
variable (k : Core)

/-- The stretch of a die, accounted. -/
theorem Core.stretched_govOnly (d : Nat) : k.GovOnly (k.stretched d) := by
  unfold Core.stretched
  extract_lets w u ns idx ms raised k1 k2
  have hk2 : k.GovOnly k2 := (((Core.GovOnly.refl k).putUnit _).throttledFor _ _ _).count _ _ _ _ _
  exact .ite (.refl k) (.ite (hk2.raise _ _ _) hk2)

/-- The counters' clock cycles. -/
theorem Core.epochCounts_govOnly (from' : Nat) : k.GovOnly (k.epochCounts from') := by
  unfold Core.epochCounts
  extract_lets held k1
  have hk1 : k.GovOnly k1 := .ite ((Core.GovOnly.refl k).onIo _) (.refl k)
  exact hk1.foldl (fun k _ => (((Core.GovOnly.refl k).putUnit _).count _ _ _ _ _).count _ _ _ _ _) _

/-- The power readings. -/
theorem Core.power_govOnly (w : Nat) (r : Reading) : k.GovOnly (k.power w r) := by
  unfold Core.power
  extract_lets _ _ _ _ _ _ _ _ _ _ _ u1 _ k1 k2 k3
  have hk2 : k.GovOnly k2 := ((((Core.GovOnly.refl k).putUnit u1).wr _ _ _ _ _).wr _ _ _ _ _).wr _ _ _ _ _ |>.wr _ _ _ _ _
  have hk3 : k.GovOnly k3 := .ite (hk2.raise _ _ _) hk2
  exact .ite ((hk3.onIo _).raise _ _ _) hk3

/-- The temperatures and the life. -/
theorem Core.heat_govOnly (w : Nat) (r : Reading) : k.GovOnly (k.heat w r) := by
  unfold Core.heat
  extract_lets _ _ _ _ _ u1 _ k1 k2 k3 k4 k5 k6 k7
  have hk2 : k.GovOnly k2 := (((Core.GovOnly.refl k).putUnit u1).wr _ _ _ _ _).wr _ _ _ _ _
  have hk3 : k.GovOnly k3 := .ite (hk2.wr _ _ _ _ _) hk2
  have hk5 : k.GovOnly k5 := (hk3.wr _ _ _ _ _).wr _ _ _ _ _
  have hk6 : k.GovOnly k6 := hk5.foldl (fun k _ => (Core.GovOnly.refl k).tw _ _ _ _ _) _
  have hk7 : k.GovOnly k7 := .ite (hk6.raise _ _ _) hk6
  exact .ite (hk7.raise _ _ _) hk7

/-- The ageing monitors. -/
theorem Core.ageMonitors_govOnly (w : Nat) (slack : List Nat) (ppm : List Int) : k.GovOnly (k.ageMonitors w slack ppm) :=
  ((Core.GovOnly.refl k).foldl (fun k _ => (Core.GovOnly.refl k).tw _ _ _ _ _) _).foldl
    (fun k _ => (Core.GovOnly.refl k).tw _ _ _ _ _) _

/-- The caps on the package's power. -/
theorem Core.capState_govOnly : k.GovOnly k.capState := by
  unfold Core.capState
  extract_lets _ _ k1 _ _ _ _ _ _ _ _ _ k2 k3 k4
  have hk2 : k.GovOnly k2 := ((Core.GovOnly.refl k).withPmu _).withPmu _
  exact ((((hk2.wr _ _ _ _ _).wr _ _ _ _ _).wr _ _ _ _ _).wr _ _ _ _ _ |>.onIo _).onIo _

/-- A die's limits. -/
theorem Core.dieLimits_govOnly (d : Nat) (r : Reading) (sust fast : List Allowance) :
    k.GovOnly (k.dieLimits d r sust fast) := ((Core.GovOnly.refl k).putUnit _).wr _ _ _ _ _

/-- A microsecond of throttling, for the reasons of a mask. -/
theorem Core.reasons_govOnly (mask w : Nat) :
    k.GovOnly ((List.range 8).foldl (fun k i => if bit mask i = 1 then k.throttledFor w i 1 else k) k) :=
  (Core.GovOnly.refl k).foldl (fun k _ => .ite ((Core.GovOnly.refl k).throttledFor _ _ _) (.refl k)) _

/-- The steps a die applies. -/
theorem Core.applyDie_govOnly (gs : List Nat) (d : Nat) (r : Reading) (sust fast : List Allowance) :
    k.GovOnly (k.applyDie gs d r sust fast) := by
  unfold Core.applyDie
  extract_lets w s u mask
  split
  extract_lets k1 k2 k3 k4
  have hk2 : k.GovOnly k2 :=
    (((((Core.GovOnly.refl k).noteStalls d).putUnit _).wr _ _ _ _ _).wr _ _ _ _ _).wr _ _ _ _ _ |>.wr _ _ _ _ _
  have hk3 : k.GovOnly k3 := hk2.trans (k2.reasons_govOnly mask w)
  have hk4 : k.GovOnly k4 := .ite (hk3.onIo _) hk3
  exact .ite (hk4.onIo _) hk4

/-- The steps the Meridian die applies. -/
theorem Core.applyMeridian_govOnly : k.GovOnly k.applyMeridian := by
  unfold Core.applyMeridian
  extract_lets u s mask k1 k2 k3
  have hk1 : k.GovOnly k1 := ((Core.GovOnly.refl k).wr _ _ _ _ _).wr _ _ _ _ _
  have hk2 : k.GovOnly k2 := hk1.trans (k1.reasons_govOnly mask 0)
  have hk3 : k.GovOnly k3 := .ite (hk2.onIo _) hk2
  exact .ite (hk3.onIo _) hk3

/-- After the clock is brought to its end, an epoch changes the registers, the governor and the stall counts. -/
theorem Core.epochEnd_govOnly (rs : List Reading) : k.toEpoch.GovOnly (k.epochEnd rs) := by
  unfold Core.epochEnd
  extract_lets k0 k' r second ring k1 k2 sust fast k3 k4 gs k5 k6
  have hk' : k0.GovOnly k' := ((Core.GovOnly.refl k0).foldl (fun k d => k.stretched_govOnly d) _).trans
    (Core.epochCounts_govOnly _ _)
  have hk1 : k0.GovOnly k1 := hk'.foldl (fun k w =>
    ((k.power_govOnly w _).trans (Core.heat_govOnly _ w _)).trans (Core.ageMonitors_govOnly _ w _ _)) _
  have hk2 : k0.GovOnly k2 := (hk1.trans k1.capState_govOnly).withPmu _
  have hk3 : k0.GovOnly k3 := hk2.foldl (fun k d => k.dieLimits_govOnly d _ _ _) _
  have hk5 : k0.GovOnly k5 := (hk3.putUnit _).wr _ _ _ _ _
  have hk6 : k0.GovOnly k6 := (hk5.foldl (fun k d => k.applyDie_govOnly gs d _ _ _) _).trans (Core.applyMeridian_govOnly _)
  exact hk6.withPmu _

end

/-! ### The instant of an epoch -/

/-- An epoch begins at a whole microsecond of time of day. -/
theorem Core.toEpoch_wholeMicrosecond (k : Core) : (k.pass k.epochAhead).time.tod % 65536000 = 0 := by
  show (k.time.tod + k.epochAhead) % 65536000 = 0
  unfold Core.epochAhead
  extract_lets part
  have hpart : part = k.time.tod % 65536000 := rfl
  split <;> omega

end Sys2Proof.Machine
end

section
/-!
SUPPORT. The power commands: the throttle pin, droop, the core rail, the regulators, the epoch and the gain.
-/
namespace Sys2Proof.Machine

/-! ### The governor's units -/

/-- A unit is that of its window. -/
theorem Core.unit_w (k : Core) (w : Nat) : (k.unit w).w = w := by
  unfold Core.unit
  cases h : k.pmu.dies.find? (·.w == w) with
  | none => rfl
  | some u => exact eq_of_beq (List.find?_some (p := fun x : PmuDie => x.w == w) h)

/-- A unit put back is read again. -/
theorem Core.unit_putUnit (k : Core) (u : PmuDie) {w : Nat} (h : u.w = w) : (k.putUnit u).unit w = u := by
  simp [Core.unit, Core.putUnit, h]

/-- A register write leaves the units. -/
theorem Core.unit_wr (k : Core) (f : Fld) (w p i v x : Nat) : (k.wr f w p i v).unit x = k.unit x := rfl

/-! ### The throttle pin -/

/-- The pin EXT_THROT_N as a level of the board. -/
def Core.throttlePin (k : Core) (on : Bool) : Core :=
  { k with pack := { k.pack with ext := on } }.wr R.PAG_PINS_EXT_THROT 0 0 0 (b2n on)

/-- The pin leaves the step of the start. -/
theorem Core.throttlePin_step (k : Core) (on : Bool) :
    (k.throttlePin on).rd R.PAG_BOOT_PROG_STEP 0 0 0 = k.rd R.PAG_BOOT_PROG_STEP 0 0 0 := Core.rd_wr_ne _ _ (by decide)

/-- Before step 3 it is shown alone. -/
theorem State.extThrot_early {s : State} (on : Bool) (h : s.core.rd R.PAG_BOOT_PROG_STEP 0 0 0 < 3) :
    s.extThrot on = { s with core := s.core.throttlePin on } := by
  have hstep : ¬ ((s.core.throttlePin on).live = true ∧ 3 ≤ (s.core.throttlePin on).rd R.PAG_BOOT_PROG_STEP 0 0 0) := by
    rw [Core.throttlePin_step]
    omega
  exact congrArg (fun k => { s with core := k }) (if_neg hstep)

/-- From step 3 the governor takes it on a part that runs. -/
theorem State.extThrot_late {s : State} (on : Bool) (hlive : s.core.live = true)
    (h : 3 ≤ s.core.rd R.PAG_BOOT_PROG_STEP 0 0 0) :
    s.extThrot on = { s with core := (s.core.throttlePin on).extPin on } := by
  have hstep : (s.core.throttlePin on).live = true ∧ 3 ≤ (s.core.throttlePin on).rd R.PAG_BOOT_PROG_STEP 0 0 0 :=
    ⟨hlive, h.trans_eq (Core.throttlePin_step _ _).symm⟩
  exact congrArg (fun k => { s with core := k }) (if_pos hstep)

/-! ### Droop -/

/-- A mask less its bit 4 shows no bit 4 in a register of eight bits. -/
theorem bit4_sub_and (mask : Nat) : bit ((mask - (mask &&& 16)) % 2 ^ 8) 4 = 0 := by
  have hand : mask &&& 16 = mask / 16 % 2 * 16 :=
    (Nat.and_two_pow mask 4).trans (congrArg (· * 16) (Nat.toNat_testBit mask 4))
  rw [hand, bit]
  omega

/-- The core at the end of a stretch. -/
def Core.stretchEnd (k : Core) (d : Nat) : Core :=
  (((k.stretched d).noteStalls d).putUnit { (k.stretched d).unit (dw d) with stretch := 0 }).wr R.PMU_STATUS_REASONS (dw d) 0 0
    (k.rd R.PMU_STATUS_REASONS (dw d) 0 0 - (k.rd R.PMU_STATUS_REASONS (dw d) 0 0 &&& 16))

/-- The end of a stretch frees the die. -/
theorem Core.stretchEnd_stretch (k : Core) (d : Nat) : ((k.stretchEnd d).unit (dw d)).stretch = 0 := by
  rw [Core.stretchEnd, Core.unit_wr, Core.unit_putUnit]
  exact Core.unit_w _ _

/-- And clears the mark of the droop. -/
theorem Core.stretchEnd_mark (k : Core) (d : Nat) :
    bit ((k.stretchEnd d).rd R.PMU_STATUS_REASONS (dw d) 0 0) 4 = 0 := by
  rw [Core.stretchEnd, Core.rd_wr_same]
  exact bit4_sub_and _

/-! ### The epoch -/

/-- The sensors of a part without a reading of 120 °C leave it running into the next epoch. -/
theorem exec_pmuEpoch_runs {s : State} {rs : List Reading} (hlive : s.core.live = true)
    (hcool : s.core.units.any (fun x => decide (1200 ≤ hottest (rs.getD x noReading))) = false) :
    Completes (.pmuEpoch rs) s (s.core.epochEnd rs) := by
  simp only [Completes, exec, execPmuEpoch, hcool, Bool.false_eq_true, if_false, State.onCore_live _ hlive, done]

/-- One of 120 °C trips it. -/
theorem exec_pmuEpoch_trips {s : State} {rs : List Reading}
    (hhot : s.core.units.any (fun x => decide (1200 ≤ hottest (rs.getD x noReading))) = true) :
    exec (.pmuEpoch rs) s = .next (s.onCore fun k => k.epochEnd rs).trip := by
  simp only [exec, execPmuEpoch, hhot, if_true, done]

/-- The thermal trip is recorded and stops the clocks. -/
theorem State.trip_spec {s : State} (hlive : s.core.live = true) :
    s.trip.fuse = { s.fuse with trip := true } ∧ s.trip.core.pack.tripped = true ∧ s.trip.core.live = false ∧
      s.trip.core.rd R.PAG_PINS_TRIP 0 0 0 = 1 := by
  have htrip : s.trip = _ := if_neg (not_not.mpr hlive)
  rw [htrip]
  exact ⟨rfl, rfl, Bool.and_false _, Core.rd_wr_same s.core R.PAG_PINS_TRIP 0 0 0 1⟩

/-- An epoch leaves the part running. -/
theorem Core.epochEnd_live (k : Core) (rs : List Reading) : (k.epochEnd rs).live = k.live := by
  rw [Core.live, (k.epochEnd_govOnly rs).pack]
  rfl

/-- So does one that the part runs through. -/
theorem State.onCore_epochEnd_live (s : State) (rs : List Reading) (hlive : s.core.live = true) :
    (s.onCore fun k => k.epochEnd rs).core.live = true := by
  simp only [State.onCore_live _ hlive, Core.epochEnd_live, hlive]

/-! ### The regulators -/

/-- A regulator's third miss in a row is a fault. -/
theorem Core.regRead_third {k : Core} {i : Nat} (h : k.pmu.missed.get i = 2) :
    k.regRead i none = { k with pmu := { k.pmu with missed := k.pmu.missed.set i 3 } }.raise 0 0x80 3 := by
  simp only [Core.regRead, h]
  rfl

/-- Settles O50: a clause each by the lemma of its command. -/
theorem powerCommands : Obligations.PowerCommands := by
  unfold Obligations.PowerCommands
  intro s rs d w n hlive k pin volt mine tripped
  refine ⟨fun hcool => ?_, fun hhot => ?_, fun hearly => ⟨?_, ?_⟩, fun hlate => ⟨?_, ?_⟩, fun hpop hfree => ?_, fun hbusy => ?_,
    ⟨k.stretchEnd d, completes_onCore (c := .droopStretchEnd d) (·.stretchEnd d) hlive rfl, k.stretchEnd_stretch d,
      k.stretchEnd_mark d⟩, fun htrim hlow => ?_, fun htrim hhigh => ?_, fun hfixed => ?_, fun e hboard hmissed => ?_,
    fun hnone => ?_, fun hmine htrim hn => ?_⟩
  · have hgov := k.epochEnd_govOnly rs
    refine ⟨_, exec_pmuEpoch_runs hlive hcool, hgov.buf, hgov.tables, hgov.foc, hgov.time, ?_⟩
    rw [hgov.time]
    exact k.toEpoch_wholeMicrosecond
  · have hrun := s.onCore_epochEnd_live rs hlive
    obtain ⟨hfuse, htrip, hstop, hshown⟩ := State.trip_spec hrun
    exact ⟨_, exec_pmuEpoch_trips hhot, by rw [hfuse, State.onCore_fuse], htrip, hstop, hshown⟩
  · exact congrArg done (State.extThrot_early true hearly)
  · exact congrArg done (State.extThrot_early false hearly)
  · exact congrArg done (State.extThrot_late true hlive hlate)
  · exact congrArg done (State.extThrot_late false hlive hlate)
  · have hform := completes_onCore (c := .droopDetect d) _ hlive rfl
    rwa [if_pos ⟨hpop, hfree⟩] at hform
  · have hform := completes_onCore (c := .droopDetect d) _ hlive rfl
    rwa [if_neg fun h => hbusy h.2] at hform
  · have hform := completes_onCore (c := .voltageStep w) _ hlive rfl
    rwa [if_pos htrim, if_pos hlow] at hform
  · have hform := completes_onCore (c := .voltageStep w) _ hlive rfl
    rwa [if_pos htrim, if_neg (Nat.not_lt.mpr hhigh)] at hform
  · have hform := completes_onCore (c := .voltageStep w) _ hlive rfl
    rwa [if_neg (Bool.eq_false_iff.mp hfixed)] at hform
  · have hform := completes_onCore (c := .pmbusPoll [none]) _ hlive rfl
    have hpoll : (List.range s.core.pmu.board.length).foldl (fun k i => k.regRead i ([none].getD i none)) s.core =
        s.core.regRead 0 none := by
      rw [hboard]
      rfl
    rwa [hpoll, Core.regRead_third hmissed] at hform
  · have hform := completes_onCore (c := .senseGainCorrect w n) _ hlive rfl
    have hstay : (mine.isEmpty = true ∨ n = 0 ∨ ¬ (k.unit w).trimmed = true) := by
      rcases hnone with h | h
      · exact .inl (List.isEmpty_iff.mpr h)
      · exact .inr (.inr (Bool.eq_false_iff.mp h))
    rwa [if_pos hstay] at hform
  · have hform := completes_onCore (c := .senseGainCorrect w n) _ hlive rfl
    have hset : ¬ (mine.isEmpty = true ∨ n = 0 ∨ ¬ (k.unit w).trimmed = true) := by
      rintro (h | h | h)
      · exact hmine (List.isEmpty_iff.mp h)
      · exact hn.ne' h
      · exact h htrim
    rwa [if_neg hset] at hform

end Sys2Proof.Machine
end

section
/-!
SUPPORT. The services that burn fuses or write the flash (R672, R710 to R713, R716, R726, R727), and the die reports (R740):
what each does on a request that it takes.
-/
namespace Sys2Proof.Machine

/-! ### A burn (R710) -/

/-- A burn that reads back sets its bits. -/
theorem burn_good (old new mask : Nat) : burn old new mask true = old ||| new := rfl

/-- One that does not sets none but its own. -/
theorem burn_or (old new mask : Nat) (ok : Bool) : burn old new mask ok ||| new = old ||| new := by
  cases ok with
  | true => rw [burn_good, Nat.or_assoc, Nat.or_self]
  | false =>
    refine Nat.eq_of_testBit_eq fun i => ?_
    simp only [burn, Bool.false_eq_true, if_false, Nat.testBit_or, Nat.testBit_and]
    cases new.testBit i <;> simp

/-- A counter burnt to a larger number reads that number. -/
theorem burnCount_good {old new : Nat} (mask : Nat) (h : old < new) : burnCount old new mask true = new :=
  Nat.max_eq_right h.le

/-- A key hash that reads back owes nothing to the draw of the burn. -/
theorem burnBytes_good (old new : List Byte) (mask mask' : Nat) : burnBytes old new mask true = burnBytes old new mask' true := rfl

/-- The lowest owner slot that is not valid. -/
theorem find_range_of_lowest {p : Nat → Bool} {n i : Nat} (hi : i < n) (hp : p i = true) (hlow : ∀ j, j < i → p j = false) :
    (List.range n).find? p = some i := by
  rw [List.find?_range_eq_some]
  exact ⟨hp, List.mem_range.mpr hi, fun j hj => by rw [hlow j hj]; rfl⟩

/-- A draw leaves the fuses. -/
theorem State.fresh_fuse (s : State) : s.fresh.2.fuse = s.fuse := rfl

section
variable {s : State} {ch : Fin 13}

/-! ### Owner keys (R711) -/

/-- The hash of the buffer goes to the lowest owner slot that is not valid. -/
theorem exec_ownerKeyAdd {b : List Byte} {i : Nat} (hruns : Runs s ch svcKeyAdd) (hkey : 64 ≤ s.core.bufLen ch)
    (hlen : s.core.bufLen ch ≤ b.length) (hslot : (List.range 4).find? (fun i => bit s.fuse.ownerValid i == 0) = some i) :
    exec (.ownerKeyAdd ch (some b) true) s = .next ({ s.fresh.2 with fuse := { s.fuse with
      ownerHash := s.fuse.ownerHash.set i (burnBytes (s.fuse.ownerHash.getD i []) (b.take 64) 0 true)
      ownerValid := s.fuse.ownerValid ||| 2 ^ i } }.reply ch ⟨0, []⟩) := by
  have hhash : (b.take (s.core.bufLen ch)).take 64 = b.take 64 := by
    rw [List.take_take, Nat.min_eq_left hkey]
  refine congrArg done (State.serve_replies hruns ?_)
  simp only [Core.bufIn_whole hlen, List.length_take_of_le hlen, if_neg (Nat.not_lt.mpr hkey), hslot, hhash]
  rfl

/-- The slot that word 1 names is revoked. -/
theorem exec_ownerKeyRevoke (hruns : Runs s ch svcKeyRevoke) (hslot : s.core.req ch 1 ≤ 3) :
    exec (.ownerKeyRevoke ch true) s = .next ({ s.fresh.2 with fuse := { s.fuse with
      ownerRevoked := s.fuse.ownerRevoked ||| 2 ^ s.core.req ch 1 } }.reply ch ⟨0, []⟩) :=
  congrArg done (State.serve_replies hruns (if_neg (Nat.not_lt.mpr hslot)))

/-- A revocation that does not read back raises its event, answers a failure, and burns no bit but the slot's. -/
theorem exec_ownerKeyRevoke_failed (hruns : Runs s ch svcKeyRevoke) (hslot : s.core.req ch 1 ≤ 3) :
    ∃ (t : State) (c : Nat), exec (.ownerKeyRevoke ch false) s = .next (t.reply ch ⟨6, [c]⟩) ∧
      t.core.io = (s.fresh.2.core.raise 0 0xA0 4).io ∧ t.fuse = { s.fuse with ownerRevoked := t.fuse.ownerRevoked } ∧
      t.fuse.ownerRevoked ||| 2 ^ s.core.req ch 1 = s.fuse.ownerRevoked ||| 2 ^ s.core.req ch 1 :=
  ⟨_, _, congrArg done (State.serve_replies hruns (if_neg (Nat.not_lt.mpr hslot))), rfl, rfl, burn_or _ _ _ false⟩

/-! ### Rollback counters (R712) -/

section
variable {man : Manifest} (hruns : Runs s ch svcCommit)
include hruns

/-- With ALLOW_SINGLE the owner counter rises to the running owner set's number. -/
theorem exec_rollbackCommit_owner (hreq : s.core.req ch 1 = 3) (hman : s.core.boot.owner = some man)
    (hnew : s.fuse.ownerRb < man.svn) :
    exec (.rollbackCommit ch true) s = .next ({ s.fresh.2 with fuse := { s.fuse with ownerRb := man.svn } }.reply ch ⟨0, []⟩) := by
  have hrb : ¬ man.svn ≤ s.fuse.rollback (3 % 2) := Nat.not_le.mpr hnew
  have hsingle : bit 3 1 ≠ 0 := by decide
  refine congrArg done (State.serve_replies hruns ?_)
  simp only [hreq, Nat.reduceMod, Nat.one_ne_zero, if_false, hman, if_neg hrb, hsingle, false_and, State.fresh_fuse, burnCount_good _ hnew]
  rfl

/-- With it the vendor counter rises to the running vendor set's number, and the slots its manifest revokes are revoked but its
own. -/
theorem exec_rollbackCommit_vendor (hreq : s.core.req ch 1 = 2) (hman : s.core.boot.vendor = some man)
    (hnew : s.fuse.vendorRb < man.svn) :
    exec (.rollbackCommit ch true) s = .next ({ s.fresh.2 with fuse := { s.fuse with
      vendorRb := man.svn
      vendorRevoked := s.fuse.vendorRevoked ||| (man.revoke % 16 - (man.revoke % 16 &&& 2 ^ man.slot)) } }.reply ch ⟨0, []⟩) := by
  have hrb : ¬ man.svn ≤ s.fuse.rollback (2 % 2) := Nat.not_le.mpr hnew
  have hsingle : bit 2 1 ≠ 0 := by decide
  refine congrArg done (State.serve_replies hruns ?_)
  simp only [hreq, Nat.reduceMod, if_true, hman, if_neg hrb, hsingle, false_and, if_false, State.fresh_fuse,
    burnCount_good _ hnew]
  rfl

/-- A counter that has the number already is left. -/
theorem exec_rollbackCommit_done (hreq : s.core.req ch 1 = 2) (hman : s.core.boot.vendor = some man)
    (hold : man.svn ≤ s.fuse.vendorRb) : exec (.rollbackCommit ch true) s = .next (s.reply ch ⟨0, []⟩) := by
  have hrb : man.svn ≤ s.fuse.rollback (2 % 2) := hold
  refine congrArg done (State.serve_replies hruns ?_)
  simp only [hreq, Nat.reduceMod, if_true, hman, if_pos hrb]
  rfl

end

/-! ### Locks (R713) -/

/-- The matrix in the buffer is one the services take. -/
structure State.Lockable (s : State) (ch : Nat) (b : List Byte) : Prop where
  whole : 64 ≤ s.core.bufLen ch
  returned : s.core.bufLen ch ≤ b.length
  unlocked : s.fuse.matrixLock = false
  rights : matrixOk (matrixOf (b.take (s.core.bufLen ch))) = true
  codes : ∀ w ∈ matrixOf (b.take (s.core.bufLen ch)), w < 2 ^ 20

/-- The fuses after the matrix is burnt, with DEBUG_OFF where asked. -/
def Fuses.lockedWith (fz : Fuses) (mx : List Nat) (debug : Bool) : Fuses :=
  { fz with
    matrix := (List.range 16).map fun i => fz.matrix.getD i 0 ||| mx.getD i 0
    matrixLock := true
    debugOff := fz.debugOff || debug }

/-- Codes that fit their fields are none that do not. -/
theorem any_code_eq_false {mx : List Nat} (h : ∀ w ∈ mx, w < 2 ^ 20) : mx.any (fun w => decide (2 ^ 20 ≤ w)) = false :=
  List.any_eq_false.mpr fun w hw => by simpa using h w hw

/-- A lock with a matrix that reads back burns the matrix and MATRIX_LOCK, and DEBUG_OFF where asked. -/
theorem State.fuseLock_good {mx : List Nat} (debug : Bool) (hlock : s.fuse.matrixLock = false) (hrights : matrixOk mx = true)
    (hcodes : ∀ w ∈ mx, w < 2 ^ 20) :
    s.fuseLock (some mx) debug true = ({ s.fresh.2 with fuse := s.fuse.lockedWith mx debug }, some ⟨0, []⟩) := by
  have hfree : (s.fuse.matrixLock || !matrixOk mx) = false := by rw [hlock, hrights]; rfl
  simp only [State.fuseLock, Option.any_some, any_code_eq_false hcodes, hfree, Bool.false_eq_true, if_false, State.burned, if_true,
    State.answer, Fuses.lockedWith, burn_good, Bool.or_true, Bool.true_or, State.fresh_fuse]
  cases debug with
  | true => simp only [if_true, Bool.or_true]
  | false => simp only [Bool.false_eq_true, if_false, Bool.or_false]

/-- One on a locked matrix is refused, and burns nothing. -/
theorem State.fuseLock_locked {mx : List Nat} (debug ok : Bool) (hlock : s.fuse.matrixLock = true)
    (hcodes : ∀ w ∈ mx, w < 2 ^ 20) : s.fuseLock (some mx) debug ok = s.openCode 2 := by
  have hheld : (s.fuse.matrixLock || !matrixOk mx) = true := by rw [hlock, Bool.true_or]
  simp only [State.fuseLock, Option.any_some, any_code_eq_false hcodes, hheld, Bool.false_eq_true, if_false, if_true]

/-- FUSE_LOCK_MATRIX with an acceptable matrix burns it and MATRIX_LOCK. -/
theorem exec_fuseLockMatrix {b : List Byte} (hruns : Runs s ch svcMatrix) (h : s.Lockable ch b) :
    exec (.fuseLockMatrix ch (some b) true) s = .next ({ s.fresh.2 with
      fuse := s.fuse.lockedWith (matrixOf (b.take (s.core.bufLen ch))) false }.reply ch ⟨0, []⟩) := by
  refine congrArg done (State.serve_replies hruns ?_)
  simp only [Core.bufIn_whole h.returned, List.length_take_of_le h.returned, if_neg (Nat.not_lt.mpr h.whole)]
  exact State.fuseLock_good _ h.unlocked h.rights h.codes

/-- On a locked matrix it is refused. -/
theorem exec_fuseLockMatrix_locked {b : List Byte} (hruns : Runs s ch svcMatrix) (hwhole : 64 ≤ s.core.bufLen ch)
    (hlen : s.core.bufLen ch ≤ b.length) (hlock : s.fuse.matrixLock = true)
    (hcodes : ∀ w ∈ matrixOf (b.take (s.core.bufLen ch)), w < 2 ^ 20) :
    ∃ (t : State) (c : Nat), exec (.fuseLockMatrix ch (some b) true) s = .next (t.reply ch ⟨2, [c]⟩) ∧ t.fuse = s.fuse := by
  refine ⟨s.fresh.2, s.fresh.1 % 256, congrArg done (State.serve_replies hruns ?_), rfl⟩
  simp only [Core.bufIn_whole hlen, List.length_take_of_le hlen, if_neg (Nat.not_lt.mpr hwhole)]
  exact State.fuseLock_locked _ _ hlock hcodes

/-- FUSE_LOCK_DEBUG_OFF burns DEBUG_OFF. -/
theorem exec_fuseLockDebugOff (hruns : Runs s ch svcDebugOff) :
    exec (.fuseLockDebugOff ch true) s = .next ({ s.fresh.2 with fuse := { s.fuse with debugOff := true } }.reply ch ⟨0, []⟩) := by
  refine congrArg done (State.serve_replies hruns ?_)
  simp only [State.fuseLock, Option.any_none, Bool.false_eq_true, if_false, if_true, Bool.or_true, Bool.true_or]
  rfl

/-- FUSE_LOCK_BOTH burns the three. -/
theorem exec_fuseLockBoth {b : List Byte} (hruns : Runs s ch svcBoth) (h : s.Lockable ch b) :
    exec (.fuseLockBoth ch (some b) true) s = .next ({ s.fresh.2 with
      fuse := s.fuse.lockedWith (matrixOf (b.take (s.core.bufLen ch))) true }.reply ch ⟨0, []⟩) := by
  refine congrArg done (State.serve_replies hruns ?_)
  simp only [Core.bufIn_whole h.returned, List.length_take_of_le h.returned, if_neg (Nat.not_lt.mpr h.whole)]
  exact State.fuseLock_good _ h.unlocked h.rights h.codes

end

/-- Settles O36: the fuse services, and a revocation and a lock that are not made. The code of a failed burn and the layout of
the matrix in the buffer are the model's choice (log 87 to 89). -/
theorem fuseServices : Obligations.FuseServices := by
  unfold Obligations.FuseServices
  intro s ch b s1 fz mx locked acceptable
  exact ⟨fun i => exec_ownerKeyAdd, fun hruns hslot => ⟨exec_ownerKeyRevoke hruns hslot, exec_ownerKeyRevoke_failed hruns hslot⟩,
    fun man => exec_rollbackCommit_owner, fun man => exec_rollbackCommit_done,
    fun hruns hwhole hlen ⟨hlock, hrights, hcodes⟩ => exec_fuseLockMatrix hruns ⟨hwhole, hlen, hlock, hrights, hcodes⟩, exec_fuseLockDebugOff,
    fun hruns hwhole hlen ⟨hlock, hrights, hcodes⟩ => exec_fuseLockBoth hruns ⟨hwhole, hlen, hlock, hrights, hcodes⟩, exec_fuseLockMatrix_locked⟩

end Sys2Proof.Machine
end

section
/-!
SUPPORT. Updates, recovery, the board description and the die reports (R672, R716, R726, R727, R740): what each service does
on a request that it takes.
-/
namespace Sys2Proof.Machine

section
variable {s : State} {ch : Fin 13} {b : List Byte}

/-! ### Staging (R716, R726) -/

/-- The state with bytes staged at an offset of the set. -/
def State.stagedAt (s : State) (o : Nat) (data : List Byte) : State :=
  { s with core := s.core.onBoot fun x => { x with staged := stageBytes x.staged o data } }

/-- A chunk that the bank has room for is staged. -/
theorem State.stage_of_room {o : Nat} {data : List Byte} (h : o + data.length ≤ bankSize) :
    s.stage o data = some (s.stagedAt o data) := if_neg (Nat.not_lt.mpr h)

/-- UPDATE_STAGE puts the buffer's chunk at the offset of word 4. -/
theorem exec_updateStage (hruns : Runs s ch svcStage) (htrial : s.onTrial = false) (hlen : s.core.bufLen ch ≤ b.length)
    (hroom : s.core.req ch 4 + s.core.bufLen ch ≤ bankSize) :
    exec (.updateStage ch (some b)) s =
      .next ((s.stagedAt (s.core.req ch 4) (b.take (s.core.bufLen ch))).reply ch ⟨0, []⟩) := by
  have hfits : s.core.req ch 4 + (b.take (s.core.bufLen ch)).length ≤ bankSize := by rwa [List.length_take_of_le hlen]
  refine congrArg done (State.serve_replies hruns ?_)
  simp only [htrial, Bool.false_eq_true, if_false, Core.bufIn_whole hlen, State.stage_of_room hfits]
  rfl

section
variable (hruns : Runs s ch svcRecStage) (hlen : s.core.bufLen ch ≤ b.length)
  (hroom : s.core.boot.staged.length + s.core.bufLen ch ≤ bankSize)
include hruns hlen hroom

/-- RECOVERY_STAGE puts the buffer's chunk behind the ones before it, and answers OK while what is whole verifies. -/
theorem exec_recoveryStage_sound
    (hsound : (s.stagedAt s.core.boot.staged.length (b.take (s.core.bufLen ch))).recoveryCode = none) :
    exec (.recoveryStage ch (some b)) s =
      .next ((s.stagedAt s.core.boot.staged.length (b.take (s.core.bufLen ch))).reply ch ⟨0, []⟩) := by
  have hfits : s.core.boot.staged.length + (b.take (s.core.bufLen ch)).length ≤ bankSize := by
    rwa [List.length_take_of_le hlen]
  refine congrArg done (State.serve_replies hruns ?_)
  simp only [Core.bufIn_whole hlen, State.stage_of_room hfits, hsound]
  rfl

/-- Where it does not, the set is forgotten and the check's code answered. -/
theorem exec_recoveryStage_refused {c : Nat}
    (hcode : (s.stagedAt s.core.boot.staged.length (b.take (s.core.bufLen ch))).recoveryCode = some c) :
    exec (.recoveryStage ch (some b)) s =
      .next ((s.stagedAt s.core.boot.staged.length (b.take (s.core.bufLen ch))).unstage.reply ch (refusal c 0)) := by
  have hfits : s.core.boot.staged.length + (b.take (s.core.bufLen ch)).length ≤ bankSize := by
    rwa [List.length_take_of_le hlen]
  refine congrArg done (State.serve_replies hruns ?_)
  simp only [Core.bufIn_whole hlen, State.stage_of_room hfits, hcode]

end

/-! ### Installing and confirming (R726, R727) -/

/-- A set that fails a check is refused with the check's code. -/
theorem exec_updateApply_refused {ps : List SetPart} {c : Nat} (hruns : Runs s ch svcApply) (htrial : s.onTrial = false)
    (hparts : s.updateParts = (ps, some c)) : exec (.updateApply ch []) s = .next (s.reply ch (refusal c 0)) := by
  refine congrArg done (State.serve_replies hruns ?_)
  simp only [htrial, Bool.false_eq_true, if_false, hparts]

/-- One that passes and reads back goes to the other bank, which the selector then names on trial. -/
theorem exec_updateApply_good {ps : List SetPart} {bank : Nat} (hruns : Runs s ch svcApply) (htrial : s.onTrial = false)
    (hparts : s.updateParts = (ps, none)) (hbank : bank = otherBank (s.core.rd R.PAG_BOOT_PROG_IMAGE 0 0 0))
    (hback : (ps.all fun p => p.readsBack (s.writeBank bank ps []).flash bank) = true) :
    let s2 := (s.writeBank bank ps []).select ⟨bank, 1, 0⟩
    exec (.updateApply ch []) s = .next
      ({ s2 with core := (s2.core.onBoot fun x => { x with staged := [] }).raise 0 0xA0 1 }.reply ch ⟨0, []⟩) := by
  subst hbank
  refine congrArg done (State.serve_replies hruns ?_)
  simp only [htrial, Bool.false_eq_true, if_false, hparts, hback, not_true]

/-- CONFIRM ends the trial of the running bank. -/
theorem exec_confirm (hruns : Runs s ch svcConfirm)
    (hbank : s.core.rd R.PAG_BOOT_PROG_IMAGE 0 0 0 = (readSelector s.flash).preferred) :
    exec (.confirm ch) s = .next ((s.select { readSelector s.flash with trial := 0 }).reply ch ⟨0, []⟩) :=
  congrArg done (State.serve_replies hruns (if_pos hbank))

/-- A good board description is written. -/
theorem exec_boardDescriptionWrite (hruns : Runs s ch svcBoard) (hlen : s.core.bufLen ch ≤ b.length)
    (hgood : boardOk (b.take (s.core.bufLen ch)) = true) :
    exec (.boardDescriptionWrite ch (some b)) s = .next
      ({ s with flash := writeRecord s.flash boardSlot (b.take (s.core.bufLen ch)) }.reply ch ⟨0, []⟩) := by
  refine congrArg done (State.serve_replies hruns ?_)
  simp only [Core.bufIn_whole hlen, hgood, if_true]
  rfl

/-- A recovery set that verifies and reads back goes to bank A, which the selector then names. -/
theorem exec_recoveryWrite {p : SetPart} (hruns : Runs s ch svcRecWrite) (hp : s.recoveryPart = p)
    (hgood : s.partCode p 0 = none) (hback : p.readsBack (s.writeBank 0 [p] []).unstage.flash 0 = true) :
    exec (.recoveryWrite ch []) s = .next (((s.writeBank 0 [p] []).unstage.select ⟨0, 0, 0⟩).reply ch ⟨0, []⟩) := by
  refine congrArg done (State.serve_replies hruns ?_)
  simp only [hp, hgood, hback, if_true]
  rfl

/-! ### Die reports (R740) -/

/-- Firmware answers a die controller's report on its own channel with 15 words and a status of R739. -/
theorem exec_dieReport {d : Fin 8} (hlive : s.core.live = true) (htaken : s.core.mbxState (4 + d) = 2)
    (hservice : bits (s.core.req (4 + d) 0) 31 24 = 0x30) (hopen : (4 + d.val) ∉ s.core.mbx.replied)
    (hrun : s.core.rd R.MBX_MP_STATUS_STATE 0 0 0 = 1) :
    ∃ r, exec (.dieReport d) s = .next (s.fresh.2.reply (4 + d) r) ∧ r.words.length = 15 ∧ r.status < 8 := by
  have hnew : ¬ s.core.mbx.replied.contains (4 + d.val) = true := by simpa using hopen
  refine ⟨_, congrArg done (if_pos ⟨hlive, htaken, hservice, hnew, hrun⟩), ?_, ?_⟩
  · exact (List.length_map _).trans List.length_range
  · exact Nat.mod_lt _ (by decide)

end

/-- Settles O37: a clause each by the lemma of its service. -/
theorem updateAndRecovery : Obligations.UpdateAndRecovery := by
  unfold Obligations.UpdateAndRecovery
  intro s ch b d k data other staged'
  exact ⟨exec_updateStage, fun ps c => exec_updateApply_refused,
    fun ps hruns htrial hparts hback => exec_updateApply_good hruns htrial hparts rfl hback, exec_confirm,
    exec_boardDescriptionWrite, fun hruns hlen hroom => ⟨exec_recoveryStage_sound hruns hlen hroom,
      fun c => exec_recoveryStage_refused hruns hlen hroom⟩,
    fun hruns hgood hback => exec_recoveryWrite hruns rfl hgood hback, exec_dieReport⟩

/-- Settles O38: the fuse services by their lemmas on a burn that reads back, and those of the flash by theirs. -/
theorem fuseAndFlashServicesComplete : Obligations.FuseAndFlashServicesComplete := by
  unfold Obligations.FuseAndFlashServicesComplete
  constructor
  · intro s ch b fz burnt mx good lockable fused
    have hlock : lockable → s.Lockable ch b := fun ⟨⟨hwhole, hlen⟩, hfree, hrights, hcodes⟩ =>
      ⟨hwhole, hlen, hfree, hrights, hcodes⟩
    have hmatrix : s.fuse.lockedWith mx false = fused := by
      simp only [Fuses.lockedWith, Bool.or_false, fused, fz]
    have hboth : s.fuse.lockedWith mx true = { fused with debugOff := true } := by
      simp only [Fuses.lockedWith, Bool.or_true, fused, fz]
    refine ⟨fun i hruns ⟨hwhole, hlen⟩ hi hfree hlow => exec_ownerKeyAdd hruns hwhole hlen ?_,
      fun i hruns hreq hi => ?_, fun m hruns hman hnew hreq => exec_rollbackCommit_owner hruns hreq hman hnew,
      fun m hruns hman hnew hreq => exec_rollbackCommit_vendor hruns hreq hman hnew, fun hruns h => ?_,
      exec_fuseLockDebugOff, fun hruns h => ?_⟩
    · exact find_range_of_lowest hi (beq_iff_eq.mpr hfree) fun j hj => by rw [hlow j hj]; rfl
    · subst hreq
      exact exec_ownerKeyRevoke hruns (Nat.le_of_lt_succ hi)
    · rw [exec_fuseLockMatrix hruns (hlock h)]
      exact congrArg (fun f => Host.Outcome.next (burnt f)) hmatrix
    · rw [exec_fuseLockBoth hruns (hlock h)]
      exact congrArg (fun f => Host.Outcome.next (burnt f)) hboth
  · intro s ch b p ps k data got ok stagedAt other
    exact ⟨exec_updateStage, fun hruns htrial hparts hback =>
        exec_updateApply_good hruns htrial hparts rfl (List.all_eq_true.mpr hback), exec_confirm, exec_boardDescriptionWrite,
      exec_recoveryStage_sound, fun hruns hp hgood => exec_recoveryWrite hruns hp hgood⟩

end Sys2Proof.Machine
end

section
/-!
SUPPORT. The mailbox commands (R735, R736): a control bit is taken from its master in a state with its transition, and is
discarded with ACC_ERR otherwise.
-/
namespace Sys2Proof.Machine

/-! ### A control bit -/

section
variable {k : Core} {m : Master} {ch : Nat} {c : Prop} [Decidable c]

/-- One that is allowed takes effect. -/
theorem Core.mbxWrite_allowed (f : Core → Core) (h : c) : k.mbxWrite m ch (decide c) f = f k :=
  if_pos (decide_eq_true h)

/-- One that is not is discarded. -/
theorem Core.mbxWrite_refused (f : Core → Core) (h : ¬ c) :
    k.mbxWrite m ch (decide c) f = k.accErr 0 (0xB0 + ch) m 0x144 :=
  if_neg (Bool.eq_false_iff.mp (decide_eq_false h))

end

section
variable {s : State} {m : Master} {ch : Fin 13}

/-! ### GO -/

section
variable (hserves : Serves s m 0 (0xB0 + ch) 0x144 true)
include hserves

/-- GO by the sender posts an idle channel. -/
theorem completes_mbxGo (hsender : m.id = senderId ch) (hidle : s.core.mbxState ch ∈ [0, 3, 4, 5]) :
    let seq := (s.core.rd R.MBX_REQ_HDR_SEQ 0 ch 0 + 1) % 256
    Completes (.mbxGo m ch) s
      ((((s.core.wr R.MBX_REQ_HDR_SENDER 0 ch 0 m.id).wr R.MBX_REQ_HDR_SEQ 0 ch 0 seq).wr R.MBX_STATUS_SEQ 0 ch 0 seq).mbxTo
        ch 1) := by
  have hform := completes_write (c := .mbxGo m ch) _ hserves rfl
  rwa [Core.mbxGo, Core.mbxWrite_allowed _ ⟨hsender, hidle⟩] at hform

/-- From another master, or on a channel posted or taken, it is refused. -/
theorem completes_mbxGo_refused (h : m.id ≠ senderId ch ∨ s.core.mbxState ch = 1 ∨ s.core.mbxState ch = 2) :
    Completes (.mbxGo m ch) s (s.core.accErr 0 (0xB0 + ch) m 0x144) := by
  have hnot : ¬ (m.id = senderId ch ∧ s.core.mbxState ch ∈ [0, 3, 4, 5]) := by
    rintro ⟨hsender, hidle⟩
    simp only [List.mem_cons, List.not_mem_nil, or_false] at hidle
    omega
  have hform := completes_write (c := .mbxGo m ch) _ hserves rfl
  rwa [Core.mbxGo, Core.mbxWrite_refused _ hnot] at hform

/-! ### TAKE -/

/-- TAKE by the MP takes a posted channel and clears its reply words; what cannot be served is answered at once. -/
theorem completes_mbxTake_posted (hm : m = .mp) (hposted : s.core.mbxState ch = 1) :
    let k1 := ((({ s.core with mbx := { s.core.mbx with
        lastTaken := ch.val + 1
        replied := s.core.mbx.replied.filter (· != ch.val) } }.clearReply ch).mbxTo ch 2).begin' ch)
    Completes (.mbxTake m (some ch)) s (match s.core.atOnce ch with
      | some st => k1.reply ch ⟨st, []⟩
      | none => k1) := by
  have hform := completes_write (c := .mbxTake m (some ch)) _ hserves rfl
  rw [Core.mbxTake, Core.mbxWrite_allowed _ ⟨hm, .inl hposted⟩, if_neg (by omega)] at hform
  exact hform

/-- On a withdrawn channel it acknowledges. -/
theorem completes_mbxTake_withdrawn (hm : m = .mp) (hwithdrawn : s.core.mbxState ch = 5) :
    Completes (.mbxTake m (some ch)) s (s.core.mbxTo ch 0) := by
  have hform := completes_write (c := .mbxTake m (some ch)) _ hserves rfl
  rwa [Core.mbxTake, Core.mbxWrite_allowed _ ⟨hm, .inr hwithdrawn⟩, if_pos hwithdrawn] at hform

/-- From another master it is refused. -/
theorem completes_mbxTake_refused (hm : m ≠ .mp) :
    Completes (.mbxTake m (some ch)) s (s.core.accErr 0 (0xB0 + ch) m 0x144) := by
  have hform := completes_write (c := .mbxTake m (some ch)) _ hserves rfl
  rwa [Core.mbxTake, Core.mbxWrite_refused _ fun h => hm h.1] at hform

/-! ### DONE and RELEASE -/

/-- DONE by the MP raises the reply of a taken channel. -/
theorem completes_mbxDone (hm : m = .mp) (htaken : s.core.mbxState ch = 2) : Completes (.mbxDone m ch) s (s.core.finish ch) := by
  have hform := completes_write (c := .mbxDone m ch) _ hserves rfl
  rwa [Core.mbxWrite_allowed _ ⟨hm, htaken⟩] at hform

/-- From another master, or on a channel not taken, it is refused. -/
theorem completes_mbxDone_refused (h : m ≠ .mp ∨ s.core.mbxState ch ≠ 2) :
    Completes (.mbxDone m ch) s (s.core.accErr 0 (0xB0 + ch) m 0x144) := by
  have hform := completes_write (c := .mbxDone m ch) _ hserves rfl
  rwa [Core.mbxWrite_refused _ (not_and_or.mpr h)] at hform

/-- RELEASE by the sender ends a reply. -/
theorem completes_mbxRelease (hsender : m.id = senderId ch) (hreplied : s.core.mbxState ch = 3) :
    Completes (.mbxRelease m ch) s (s.core.mbxTo ch 0) := by
  have hform := completes_write (c := .mbxRelease m ch) _ hserves rfl
  rwa [Core.mbxWrite_allowed _ ⟨hsender, hreplied⟩] at hform

/-- From another master, or on a channel without a reply, it is refused. -/
theorem completes_mbxRelease_refused (h : m.id ≠ senderId ch ∨ s.core.mbxState ch ≠ 3) :
    Completes (.mbxRelease m ch) s (s.core.accErr 0 (0xB0 + ch) m 0x144) := by
  have hform := completes_write (c := .mbxRelease m ch) _ hserves rfl
  rwa [Core.mbxWrite_refused _ (not_and_or.mpr h)] at hform

end

/-! ### Firmware's own turn (R736) -/

/-- With no channel to serve it does nothing. -/
theorem completes_mbxTake_idle (m : Master) (h : s.core.nextChannel = none) : Completes (.mbxTake m none) s s.core := by
  simp only [Completes, exec, execMbxTake, h, done]

/-- With one it is TAKE on that channel. -/
theorem exec_mbxTake_next (m : Master) (h : s.core.nextChannel = some ch.val) :
    exec (.mbxTake m none) s = exec (.mbxTake m (some ch)) s := by
  simp only [exec, execMbxTake, h]

end

/-- Settles O33: each control bit by its lemma. The reply at once to a request that cannot be served, and the turn of firmware,
are the model's choice (log 84, 85). -/
theorem mailboxHandshake : Obligations.MailboxHandshake := by
  unfold Obligations.MailboxHandshake
  intro s m ch hserves k seq refused
  exact ⟨completes_mbxGo hserves, completes_mbxGo_refused hserves, completes_mbxTake_posted hserves,
    completes_mbxTake_withdrawn hserves, completes_mbxTake_idle m, exec_mbxTake_next m,
    fun hm => ⟨completes_mbxTake_refused hserves hm, completes_mbxDone_refused hserves (.inl hm)⟩,
    completes_mbxDone hserves, fun _ hstate => completes_mbxDone_refused hserves (.inr hstate),
    completes_mbxRelease hserves, completes_mbxRelease_refused hserves⟩

end Sys2Proof.Machine
end

section
/-!
SUPPORT. The host queues (R743 to R746) and the telemetry outputs (R617, R618, R771): a ring's descriptor in each case of its
checks, and a record or a frame in each case of its place.
-/
namespace Sys2Proof.Machine

/-! ### Transmit (R244, R245, R744) -/

section
variable {k : Core} {pf q desc : Nat} {bytes : List Byte} {prs : Option Nat}

/-- A descriptor of a good length and port passes the checks. -/
theorem descriptor_passes (hport : k.globalExists (txDesc desc).port = true) (hmin : 60 ≤ (txDesc desc).len)
    (hmax : (txDesc desc).len ≤ 16348) :
    ¬ (¬ k.globalExists (txDesc desc).port = true ∨ (txDesc desc).len < 60 ∨ 16348 < (txDesc desc).len) := by
  simp only [hport, not_true, false_or]
  omega

/-- What the port's account makes of a descriptor's frame in ingress mode. -/
def Core.txInject (k : Core) (t : TxDesc) (frame : List Byte) (prs : Option Nat) : Option Core :=
  k.inject (t.port / 256) (t.port % 256 / 32) t.port (k.classify (t.port / 256) (t.port % 256) frame).1 t.tc true none frame
    (if t.ts then some t.tag else none) prs

/-- A ring that is off or empty gives nothing. -/
theorem Core.hostInject_idle (fault : Bool) (h : k.hqReady pf q = false) : k.hostInject pf q desc bytes fault prs = k :=
  if_pos (Bool.eq_false_iff.mp h)

section
variable (hready : k.hqReady pf q = true)
include hready

/-- A fault of the host's memory disables the queue. -/
theorem Core.hostInject_fault : k.hostInject pf q desc bytes true prs = k.hqFault pf q := by
  simp only [Core.hostInject, hready, not_true, if_true, if_false]

/-- A descriptor of a bad length or port is written back with an error. -/
theorem Core.hostInject_bad
    (h : k.globalExists (txDesc desc).port = false ∨ (txDesc desc).len < 60 ∨ 16348 < (txDesc desc).len) :
    k.hostInject pf q desc bytes false prs = k.hqDone pf q 18 (leSeq 3 2) 3 := by
  rw [← Bool.not_eq_true] at h
  simp only [Core.hostInject, hready, not_true, Bool.false_eq_true, if_false, if_pos h]

section
variable (hport : k.globalExists (txDesc desc).port = true) (hmin : 60 ≤ (txDesc desc).len)
  (hmax : (txDesc desc).len ≤ 16348)
include hport hmin hmax

/-- A buffer that ends before the frame does is a fault. -/
theorem Core.hostInject_short (hshort : bytes.length < (txDesc desc).len) :
    k.hostInject pf q desc bytes false prs = k.hqFault pf q := by
  simp only [Core.hostInject, hready, not_true, Bool.false_eq_true, if_false, if_neg (descriptor_passes hport hmin hmax),
    if_pos hshort]

section
variable (hwhole : (txDesc desc).len ≤ bytes.length)
include hwhole

/-- A frame in egress mode goes to its port, and its descriptor is done. -/
theorem Core.hostInject_egress (hegress : (txDesc desc).egress = true) :
    k.hostInject pf q desc bytes false prs =
      (k.hostEgress (txDesc desc) (withFcs (bytes.take (txDesc desc).len))).hqDone pf q 18 (leSeq 1 2) 3 := by
  simp only [Core.hostInject, hready, not_true, Bool.false_eq_true, if_false, if_neg (descriptor_passes hport hmin hmax),
    if_neg (Nat.not_lt.mpr hwhole), if_pos hegress]

section
variable (hingress : (txDesc desc).egress = false)
include hingress

/-- A frame in ingress mode that its port's account takes is admitted, and its descriptor is done. -/
theorem Core.hostInject_admitted {k1 : Core}
    (h : k.txInject (txDesc desc) (withFcs (bytes.take (txDesc desc).len)) prs = some k1) :
    k.hostInject pf q desc bytes false prs = k1.hqDone pf q 18 (leSeq 1 2) 3 := by
  unfold Core.txInject at h
  simp only [Core.hostInject, hready, not_true, Bool.false_eq_true, if_false, if_neg (descriptor_passes hport hmin hmax),
    if_neg (Nat.not_lt.mpr hwhole), hingress, Nat.div_add_mod', h]

/-- One that it does not take waits, its descriptor untaken. -/
theorem Core.hostInject_waits (h : k.txInject (txDesc desc) (withFcs (bytes.take (txDesc desc).len)) prs = none) :
    k.hostInject pf q desc bytes false prs = k := by
  unfold Core.txInject at h
  simp only [Core.hostInject, hready, not_true, Bool.false_eq_true, if_false, if_neg (descriptor_passes hport hmin hmax),
    if_neg (Nat.not_lt.mpr hwhole), hingress, Nat.div_add_mod', h]

end
end
end
end

/-! ### Receive (R237, R745) -/

/-- The core without the oldest copy of a ring. -/
def Core.withoutRx (k : Core) (pf q : Nat) : Core :=
  { k with hostq := { k.hostq with rx := k.hostq.rx.eraseP fun c => c.pf == pf && c.queue == q } }

section
variable {c : HostCopy} {buffer : Nat}
  (hc : k.hostq.rx.find? (fun c => c.pf == pf && c.queue == q) = some c)
include hc

/-- A ring that is off or empty drops the copy. -/
theorem Core.hostDeliver_dropped (fault : Bool) (h : k.hqReady pf q = false) :
    k.hostDeliver pf q buffer fault = (k.withoutRx pf q).bump R.HQ_DROP 0 pf q 1 := by
  simp only [Core.hostDeliver, hc, h, Bool.false_eq_true, not_false_eq_true, if_true, Core.withoutRx]

/-- A fault of the host's memory disables the queue. -/
theorem Core.hostDeliver_fault (h : k.hqReady pf q = true) :
    k.hostDeliver pf q buffer true = (k.withoutRx pf q).hqFault pf q := by
  simp only [Core.hostDeliver, hc, h, not_true, if_false, if_true, Core.withoutRx]

/-- A copy that the buffer holds goes to it whole. -/
theorem Core.hostDeliver_whole (h : k.hqReady pf q = true) (hfits : c.bytes.length ≤ k.rd R.HQ_CFG_BUF_BYTES 0 pf q) :
    k.hostDeliver pf q buffer false =
      ((k.withoutRx pf q).emit (.dma pf buffer c.bytes)).hqDone pf q 8 (leSeq c.bytes.length 2 ++ leSeq 1 2) 2 := by
  simp only [Core.hostDeliver, hc, h, not_true, Bool.false_eq_true, if_false, Core.withoutRx, List.take_of_length_le hfits,
    if_neg (Nat.not_lt.mpr hfits)]

/-- A longer one is cut at the buffer's size. -/
theorem Core.hostDeliver_cut (h : k.hqReady pf q = true) (hlong : k.rd R.HQ_CFG_BUF_BYTES 0 pf q < c.bytes.length) :
    k.hostDeliver pf q buffer false =
      ((k.withoutRx pf q).emit (.dma pf buffer (c.bytes.take (k.rd R.HQ_CFG_BUF_BYTES 0 pf q)))).hqDone pf q 8
        (leSeq (k.rd R.HQ_CFG_BUF_BYTES 0 pf q) 2 ++ leSeq 3 2) 2 := by
  simp only [Core.hostDeliver, hc, h, not_true, Bool.false_eq_true, if_false, Core.withoutRx, if_pos hlong,
    List.length_take_of_le hlong.le]

end
end

/-- Settles O31: the cases of a transmit descriptor and of a received copy. That an ingress-mode frame which is not admitted
waits, its descriptor untaken, is the model's choice (log 144). -/
theorem hostQueues : Obligations.HostQueues := by
  unfold Obligations.HostQueues
  intro s m pf q r t tail desc bytes buffer fault prs hlive k x
  have hinject (fault : Bool) {k' : Core}
      (h : s.core.hostInject pf (16 + q) desc.toNat bytes fault (prs.map (·.val)) = k') :
      Completes (.hostFrameInject pf q desc bytes fault prs) s k' :=
    h ▸ completes_onCore (c := .hostFrameInject pf q desc bytes fault prs) _ hlive rfl
  have hdeliver (fault : Bool) {k' : Core} (h : s.core.hostDeliver pf r buffer.toNat fault = k') :
      Completes (.hostRxDeliver pf r buffer fault) s k' :=
    h ▸ completes_onCore (c := .hostRxDeliver pf r buffer fault) _ hlive rfl
  exact ⟨fun hserves => completes_write (c := .hqTailWrite m pf t tail) _ hserves rfl,
    fun hidle => hinject _ (Core.hostInject_idle _ hidle),
    fun hready => ⟨hinject _ (Core.hostInject_fault hready), fun hbad => hinject _ (Core.hostInject_bad hready hbad),
      fun hshort hport hmin hmax => hinject _ (Core.hostInject_short hready hport hmin hmax hshort),
      fun hwhole hport hmin hmax =>
        ⟨fun hegress => hinject _ (Core.hostInject_egress hready hport hmin hmax hwhole hegress),
          fun hingress hnone => hinject _ (Core.hostInject_waits hready hport hmin hmax hwhole hingress hnone),
          fun k1 hingress hsome => hinject _ (Core.hostInject_admitted hready hport hmin hmax hwhole hingress hsome)⟩⟩,
    fun c hc => ⟨fun h => hdeliver _ (Core.hostDeliver_dropped hc _ h), fun h => hdeliver _ (Core.hostDeliver_fault hc h),
      fun h hfits => hdeliver _ (Core.hostDeliver_whole hc h hfits), fun h hlong => hdeliver _ (Core.hostDeliver_cut hc h hlong)⟩⟩

end Sys2Proof.Machine
end

section
/-!
SUPPORT. The telemetry outputs (R617, R618, R771): a capture record in each state of its ring, and a collector frame that its
account takes or does not.
-/
namespace Sys2Proof.Machine

/-! ### The Plate archive (R617, R618) -/

/-- The core without the oldest record of a die. -/
def Core.withoutPlate (k : Core) (d : Nat) : Core :=
  { k with cxl := { k.cxl with plate := k.cxl.plate.eraseP (·.die == d) } }

/-- A record meets the same ring without itself in the queue. -/
theorem Core.withoutPlate_plateFull (k : Core) (d n : Nat) : (k.withoutPlate d).plateFull n = k.plateFull n := rfl

section
variable {k : Core} {d : Nat}

/-- A ring that has room shows no fullness. -/
theorem Core.plateMeets_room {n : Nat} (h : k.plateFull n = false) :
    k.plateMeets n = { k with cxl := { k.cxl with plateFull := false } } := by
  simp only [Core.plateMeets, h, Bool.false_and, Bool.false_eq_true, if_false]

/-- One that turns full raises its event. -/
theorem Core.plateMeets_turnsFull {n : Nat} (h : k.plateFull n = true) (hbefore : k.cxl.plateFull = false) :
    k.plateMeets n = { (k.raise 0 0x90 4) with cxl := { k.cxl with plateFull := true } } := by
  simp only [Core.plateMeets, h, hbefore, Bool.not_false, Bool.and_true, if_true, Core.raise_cxl]

variable {r : PlateRec} (hr : k.cxl.plate.find? (·.die == d) = some r)
include hr

/-- Without a region or a budget a record is dropped. -/
theorem Core.plateWrite_off (hoff : k.regionOn 3 = false ∨ k.tokens 3 = 0) :
    k.plateWrite d = (k.withoutPlate d).bump R.CXL_PLATE_DROP_CNT 0 0 0 1 := by
  rw [← Bool.not_eq_true] at hoff
  simp only [Core.plateWrite, hr, if_pos hoff, Core.withoutPlate]

section
variable (hregion : k.regionOn 3 = true) (htokens : k.tokens 3 ≠ 0)
include hregion htokens

/-- So is one that the ring has no room for. -/
theorem Core.plateWrite_full (hfull : k.plateFull r.lines.length = true) (hbefore : k.cxl.plateFull = false) :
    k.plateWrite d = ({ ((k.withoutPlate d).raise 0 0x90 4) with
      cxl := { (k.withoutPlate d).cxl with plateFull := true } }).bump R.CXL_PLATE_DROP_CNT 0 0 0 1 := by
  have hmeets := Core.plateMeets_turnsFull ((k.withoutPlate_plateFull d r.lines.length).trans hfull) hbefore
  rw [Core.withoutPlate] at hmeets
  simp only [Core.plateWrite, hr, hregion, htokens, not_true, or_self, if_false, hfull, if_true, hmeets, Core.withoutPlate]

/-- Any other is written at WP, which moves on by its lines and wraps. -/
theorem Core.plateWrite_room (hroom : k.plateFull r.lines.length = false) :
    k.plateWrite d =
      (({ k.withoutPlate d with cxl := { (k.withoutPlate d).cxl with plateFull := false } }.plateLines
        (k.rd R.CXL_PLATE_WP 0 0 0) (k.regionLines 3) r.lines).wr R.CXL_PLATE_WP 0 0 0
          ((k.rd R.CXL_PLATE_WP 0 0 0 + r.lines.length) % max (k.regionLines 3) 1)) := by
  have hmeets := Core.plateMeets_room ((k.withoutPlate_plateFull d r.lines.length).trans hroom)
  rw [Core.withoutPlate] at hmeets
  simp only [Core.plateWrite, hr, hregion, htokens, not_true, or_self, if_false, hroom, Bool.false_eq_true, hmeets,
    Core.withoutPlate]

end
end

/-! ### The collectors (R771) -/

section
variable {s : State} {d p : Fin 8} {c : Collector}

/-- What the account of a collector frame makes of it. -/
def Core.collInject (k : Core) (d p : Nat) (c : Collector) (prs : Option Nat) : Option Core :=
  k.inject d p (d * 256 + c.port % 256) (k.collPg d (c.port % 256)) c.tc false (some c.entry) c.frame none prs

variable (hlive : s.core.live = true)
  (hc : s.core.tele.queue.find? (fun c => c.die == d.val && c.pipe == p.val) = some c)
include hlive hc

/-- A frame that is not taken waits. -/
theorem completes_collectorFrameInject_waits {prs : Option (Fin 256)}
    (h : s.core.collInject d p c (prs.map (·.val)) = none) : Completes (.collectorFrameInject d p prs) s s.core := by
  have hform := completes_onCore (c := .collectorFrameInject d p prs) _ hlive rfl
  unfold Core.collInject at h
  simpa only [hc, h] using hform

/-- One that is leaves the queue and is counted. -/
theorem completes_collectorFrameInject_taken {prs : Option (Fin 256)} {k1 : Core}
    (h : s.core.collInject d p c (prs.map (·.val)) = some k1) :
    Completes (.collectorFrameInject d p prs) s
      (({ k1 with tele := { k1.tele with queue := k1.tele.queue.erase c } }).bump R.TRC_COLL_CNT (dw d) 0 0 1) := by
  have hform := completes_onCore (c := .collectorFrameInject d p prs) _ hlive rfl
  unfold Core.collInject at h
  simpa only [hc, h] using hform

end

/-- Settles O32: the cases of a record and of a collector frame. The account of a collector frame and WP reaching RP are the
model's choice (log 75, 139). -/
theorem telemetryOutputs : Obligations.TelemetryOutputs := by
  unfold Obligations.TelemetryOutputs
  intro s d p prs hlive k
  have hplate {k' : Core} (h : s.core.plateWrite d = k') : Completes (.plateRecordWrite d) s k' :=
    h ▸ completes_onCore (c := .plateRecordWrite d) _ hlive rfl
  exact ⟨fun r hr => ⟨fun hoff => hplate (Core.plateWrite_off hr hoff),
      fun hregion htokens hfull hbefore => hplate (Core.plateWrite_full hr hregion htokens hfull hbefore),
      fun hregion htokens hroom => hplate (Core.plateWrite_room hr hregion htokens hroom)⟩,
    fun c hc => ⟨completes_collectorFrameInject_waits hlive hc, fun k1 => completes_collectorFrameInject_taken hlive hc⟩⟩

end Sys2Proof.Machine
end
